-- ==== Sys2Proof/Word.lean ====
section
/-!
DEFINITION. The word types of the CFT7620 model and their plainest arithmetic: bytes, FP32 lanes, sparse tables,
bit fields of a packed word (R3: bit 0 is the least significant bit, multi-byte fields are little-endian).
-/

namespace Sys2Proof

/-- One byte (R3). -/
abbrev Byte := BitVec 8

/-- One 32-bit vector lane: the bits of an FP32 or of a U32 (R52). -/
abbrev Lane := BitVec 32

/-- One 64-bit word: a scalar register (R81) or a word of facet memory (R57). -/
abbrev Word64 := BitVec 64

/-- Sparse data by key: pairs of key and value, keys strictly rising. -/
abbrev Tab (α : Type) := List (Nat × α)

/-- Bits [hi:lo] of a packed word (R3). -/
def bits (w hi lo : Nat) : Nat := (w >>> lo) % 2 ^ (hi + 1 - lo)

/-- Bit i of a packed word. -/
def bit (w i : Nat) : Bool := w.testBit i

/-- The two's-complement value of an n-bit field. -/
def signed (n v : Nat) : Int := if v < 2 ^ (n - 1) then (v : Int) else (v : Int) - (2 ^ n : Nat)

/-- Little-endian bytes to a number (R3). -/
def leNat : List Byte → Nat
  | [] => 0
  | b :: bs => b.toNat + 256 * leNat bs

/-- A number as n little-endian bytes (R3). -/
def leBytes : Nat → Nat → List Byte
  | 0, _ => []
  | n + 1, v => BitVec.ofNat 8 v :: leBytes n (v / 256)

/-- Quotient rounded up. -/
def ceilDiv (a b : Nat) : Nat := (a + (b - 1)) / b

/-- A counter at the top of its range stays there (R477). -/
def satAdd (top a b : Nat) : Nat := min top (a + b)

/-- Bit positions set in a mask, rising, below n. -/
def maskBits (n m : Nat) : List Nat := (List.range n).filter fun i => m.testBit i

/-- Number of bits set below n. -/
def popCount (n m : Nat) : Nat := (maskBits n m).length

end Sys2Proof
end

