-- ==== Sys2Proof/Syntax.lean ====
section
/-!
DEFINITION. The commands of the CFT7620 block: the one inductive Instr, one constructor per row of spec/opcode_table.json, and
the operands its constructors carry. A command is an event the device meets (a boundary, an arriving frame, a command entry, a
message, a pin) with what the outside supplies with it. Cryptographic checks (Ed448, X448, AES-GCM and KMAC tags) arrive as the
check's outcome: the model holds no key material (assumption 12).
-/

namespace Sys2Proof

/-- A flit: 64 payload bytes as one little-endian number and the 16-bit sideband of Table 2.9. -/
structure Flit where
  pay : Nat
  sb : Nat
  deriving DecidableEq, Repr

/-- A Bridle frame (R258, Table 8.3, Table 8.4): header fields, the flits it carries, the bytes of a control payload from byte 44, VERSION and the
GCM tag. -/
structure Frame where
  typ : Nat
  seq : Nat
  ack : Nat
  retry : Bool
  enc : Bool
  slot : Nat
  comp : Nat
  tepoch : Nat
  crslot : Nat
  crcnt : Nat
  lctr : Nat
  flits : List Flit
  ctl : List Byte
  version : Nat
  gtag : Nat
  deriving DecidableEq, Repr

/-- What the ballast reads at a beat boundary (R384, R392): estimated power of everything but the canopy and of the canopy per
executed beat, over the last window, in mW, and the 80 sensor readings as F32 in °C. -/
structure BeatEnv where
  pOth : Nat
  pCan : Nat
  temps : List Lane
  deriving DecidableEq, Repr

/-- What the memory interfaces report with an access (Table 4.12): corrected GDDR7 errors, retried bursts, corrected LPDDR5X
link errors, whether an LPDDR5X access was re-read, and whether the access stayed uncorrectable. -/
structure MemEnv where
  gddrCe : Nat
  edc : Nat
  lpCe : Nat
  reread : Bool
  dead : Bool
  deriving DecidableEq, Repr

/-- What an element transfer meets (R150, R160): whether its GCM tag verifies, and the memory reports at its source and at its destination. -/
structure XferEnv where
  tagOk : Bool
  mem : MemEnv
  out : MemEnv
  deriving DecidableEq, Repr

/-- A board-space request or reply (Table 8.9) with the data flits that follow it. -/
structure BoardMsg where
  addr : Nat
  lines : Nat
  tag : Nat
  sslot : Nat
  jobtag : Nat
  status : Nat
  dsync : Nat
  dsyncEn : Bool
  operand : Nat
  data : List Byte
  deriving DecidableEq, Repr

/-- A write to a register that has no command of its own (R8): a facet control register by a gondola, a winch register by a
gondola, an offset of the Tether register window by the host. -/
inductive RegTarget where
  | facet (gondola facet offset : Nat)
  | winch (gondola engine offset : Nat)
  | window (offset : Nat)
  deriving DecidableEq, Repr

/-- The three kinds of operation of a bundle (R80). -/
inductive OpUnit where
  | array
  | vector
  | control
  deriving DecidableEq, Repr

/-- What JOB_START reads (R178, R271, R306): the job descriptor, the member list, the route table and the copy of the image
header, section table and BRIDLE_PLAN section. -/
structure JobHost where
  desc : List Byte
  members : List Nat
  routes : List Byte
  imageHead : List Byte
  bridle : List Byte
  deriving DecidableEq, Repr

/-- A member's formation confirmation (R177, R276, R370, R409): its status (and sub-code), profile, Ripcord mode, link-key check
value, the flight time in ns of its link toward its parent in the control tree, and whether it comes from a Frozen survivor of a
rejoin, with the survivor's active epoch, last committed step serial and whether it committed the step that the freeze met. -/
structure Confirm where
  status : Nat
  detail : Nat
  flight : Nat
  rejoin : Bool
  epoch : Bool
  serial : Nat
  committed : Bool
  profile : Nat
  mode : Nat
  jkCheck : Nat
  deriving DecidableEq, Repr

/-- A row of a step's batch (R192, R193): request slot and serial, group, position, input token, whether a token is sampled. -/
structure BatchRow where
  slot : Nat
  serial : Nat
  group : Nat
  pos : Nat
  tok : Nat
  sample : Bool
  void : Bool
  deriving DecidableEq, Repr

/-- A group of a step (R192, R193). -/
structure GroupEntry where
  wset : Nat
  gen : Nat
  rbase : Nat
  rows : Nat
  void : Bool
  deriving DecidableEq, Repr

/-- A grammar automaton (Table 5.9): vocabulary, state records, transitions, bitmaps as numbers. -/
structure Automaton where
  vocab : Nat
  states : List (Nat × Nat × Nat × Nat)
  trans : List (Nat × Nat)
  bitmaps : List Nat
  deriving DecidableEq, Repr

/-- An automaton mask as a staging record brings it (R208, R209, R247): number, automaton, state, start state and the history length at which it
took effect. -/
structure AutoCopy where
  num : Nat
  auto : Automaton
  state : Nat
  start : Nat
  from_ : Nat
  deriving DecidableEq, Repr

/-- A copy of a request as a staging record brings it (R176, R191, R411): where its ADMIT came from, its stream of tokens, how many are
committed, how many have key-value entries, what the sampler needs (allow lists the tokens its mask allows, if it is a list or empty, auto the
automaton if it is one), its goals and flags, the digest mode of its ADMIT (R248), and the tokens sampled at appended positions that did
not join the history (R199, R252). -/
structure ReqCopy where
  slot : Nat
  serial : Nat
  ring : Nat
  tag : Nat
  wset : Nat
  gen : Nat
  stream : List Nat
  history : Nat
  kv : Nat
  promptLen : Nat
  maxNew : Nat
  made : List Nat
  stops : List Nat
  seed : Nat
  temp : Lane
  topk : Nat
  topp : Lane
  allow : Option (List Nat)
  chunk : Nat
  tbt : Nat
  deadline : Option Nat
  hard : Bool
  prio : Bool
  verifyFrom : Nat
  verifyUpTo : Nat
  auto : Option AutoCopy
  mode : Nat
  verified : List (Nat × Nat)
  deriving DecidableEq, Repr

/-- A command that the lead applied at a step boundary, as a staging record tells it (R411): ring, TAG, OPCODE, SERIAL, VAR, the beat of
its commit point, STATUS. -/
structure CmdOutcome where
  ring : Nat
  tag : Nat
  opcode : Nat
  serial : Nat
  var : Nat
  beat : Nat
  status : Nat
  deriving DecidableEq, Repr

/-- What one row of a step produced on the slice: the candidate logits of every member's share in rank order, by token
number, and the page-data bytes this member wrote for the row's position (R210, R249). -/
structure RowResult where
  logits : List (List (Nat × Lane))
  kv : List Byte
  deriving DecidableEq, Repr

/-- How a message of the Object Access Protocol reached the device (R328, R311): the management port from a client address and
port, or a DICT command by ring and TAG. -/
inductive Via where
  | port (client : Nat)
  | ring (ring tag : Nat)
  deriving DecidableEq, Repr

/-- A frame of the management port as the MAC sees it (R336, R337, R339): whether it carries a VLAN tag, its EtherType and length, whether its source
is link-local, whether its packet is free of what R339 drops (a fragment, an extension header, a UDP checksum of 0), and how many received
messages stand in the queue before it. -/
structure NetFrame where
  tagged : Bool
  etherType : Nat
  bytes : Nat
  linkLocal : Bool
  plain : Bool
  waiting : Nat
  deriving DecidableEq, Repr

/-- A message of the Object Access Protocol (Table 10.5): header fields, body, whether its length and tag hold, and for the
messages that need them the outcomes of the certificate, request-signature, X448 and KEY-value checks and of a signature that
a written value carries (R330, R333, R349, R442); net is the frame it came in on the management port. -/
structure OapMsg where
  via : Via
  session : Nat
  seq : Nat
  group : Nat
  op : Nat
  enc : Bool
  version : Nat
  lengthOk : Bool
  tagOk : Bool
  body : List Byte
  certSig : Bool
  reqSig : Bool
  zOk : Bool
  keyOk : Bool
  valueSig : Bool
  net : NetFrame
  deriving DecidableEq, Repr

/-- What one regulator answers to the PMBus reads of R382. -/
structure PmbusRead where
  vout : Nat
  iout : Nat
  pout : Nat
  temp : Nat
  status : Nat
  deriving DecidableEq, Repr

/-- The commands, in the order of the rows of spec/opcode_table.json. -/
inductive Instr where
  | beatBoundary (env : BeatEnv)
  | roundBoundary (env : BeatEnv) (margin : Int)
  | beatrefLoss
  | holdoverExit
  | iterationStart (facet : Nat)
  | stallRelease (facet : Nat)
  | passComplete (facet bank : Nat)
  | flitArrival (facet : Nat)
  | creditReturn (facet queue : Nat)
  | exactAddGroup (facet queue : Nat)
  | nop (facet : Nat) (unit : OpUnit)
  | issue (facet : Nat)
  | mov (facet : Nat)
  | add (facet : Nat)
  | sub (facet : Nat)
  | mul (facet : Nat)
  | fma (facet : Nat)
  | max (facet : Nat)
  | min (facet : Nat)
  | scale (facet : Nat)
  | bcast (facet : Nat)
  | exp2 (facet : Nat)
  | rcp (facet : Nat)
  | rsqrt (facet : Nat)
  | rsum (facet : Nat)
  | rmax (facet : Nat)
  | rmaxi (facet : Nat)
  | iadd (facet : Nat)
  | psum (facet : Nat)
  | top2 (facet : Nat)
  | cvt (facet : Nat)
  | xadd (facet : Nat)
  | xrd (facet : Nat)
  | xclr (facet : Nat)
  | ld (facet : Nat)
  | st (facet : Nat)
  | saddi (facet : Nat)
  | loop (facet : Nat)
  | endIteration (facet : Nat)
  | swait (facet : Nat)
  | ssig (facet : Nat)
  | fadd32 (facet : Nat)
  | fadd64 (facet : Nat)
  | waitl (facet : Nat)
  | waitw (facet : Nat)
  | gondolaLoad (gondola addr len : Nat) (secure : Bool) (env : MemEnv)
  | gondolaStore (gondola addr : Nat) (data : List Byte) (secure : Bool) (env : MemEnv)
  | fetchAdd32 (gondola addr operand : Nat)
  | fetchAdd64 (gondola addr operand : Nat)
  | swap (gondola addr : Nat) (data : List Byte)
  | wserial (gondola facet window value : Nat)
  | registerWrite (target : RegTarget) (value : Nat)
  | scanOut (ring tag : Nat)
  | scanHold (comp : Nat)
  | scanRecordCommit (comp facet : Nat)
  | scanIn (ring tag : Nat) (tagOk : Bool)
  | submit (gondola engine desc : Nat)
  | start (gondola engine index : Nat)
  | winchAbort (gondola engine record : Nat)
  | descriptorStart (engine : Nat)
  | elementTransfer (engine record : Nat) (env : XferEnv)
  | descriptorComplete (engine record : Nat)
  | descriptorFail (engine record : Nat)
  | boardRead (msg : BoardMsg) (env : MemEnv)
  | boardWrite (msg : BoardMsg) (env : MemEnv)
  | boardFetchAdd32 (msg : BoardMsg)
  | boardFetchAdd64 (msg : BoardMsg)
  | boardSwap (msg : BoardMsg)
  | readData (msg : BoardMsg)
  | writeAcknowledge (msg : BoardMsg)
  | atomicResult (msg : BoardMsg)
  | refresh (unit multiple : Nat)
  | periodicRetraining
  | memoryTrainingDone (gddrOk lpOk densityOk rate : Nat)
  | trainingStart
  | jobStart (ring tag : Nat) (host : Option JobHost)
  | formationConfirmation (job rank : Nat) (confirm : Confirm)
  | formationTimeout (job : Nat)
  | probeCheckTimeout (job : Nat)
  | imageArrival (job : Nat) (image : List Byte)
  | loaderComplete (job : Nat) (sigOk : Bool) (micros : Nat)
  | jobEndDrain (ring tag : Nat)
  | jobEndCancel (ring tag : Nat)
  | jobResourceRelease (job : Nat)
  | weightRegionRelease (job : Nat)
  | admitReq (ring tag : Nat) (tokens : Option (List Nat))
  | append (ring tag : Nat) (tokens : Option (List Nat))
  | cancel (ring tag : Nat)
  | trim (ring tag : Nat)
  | setMaskNone (ring tag : Nat)
  | setMaskAllowList (ring tag : Nat) (tokens : Option (List Nat))
  | setMaskAutomaton (ring tag : Nat)
  | loadAutomaton (ring tag : Nat) (bytes : Option (List Byte))
  | catalogLoad (ring tag : Nat) (digest : Option (List Byte))
  | catalogSwap (ring tag : Nat)
  | catalogEvict (ring tag : Nat)
  | step (ring tag : Nat) (record : Option (List Byte))
  | stepStart (job : Nat)
  | roundPlan (ring tag : Nat)
  | roundPlanForward (job member layer group serial rounds : Nat)
  | planRelease (job layer group : Nat)
  | countCompletion (job layer group : Nat)
  | stagingRecord (job serial start : Nat) (groups : List GroupEntry) (rows : List BatchRow) (table : List ReqCopy) (outcomes : List CmdOutcome)
  | liftStart (job wset : Nat) (recB : Bool)
  | liftComplete (job wset : Nat) (recB : Bool) (member : Nat) (gone : Bool)
  | doneBeat (job : Nat) (results : List RowResult) (digestBeats : Nat)
  | doneBeatMessage (job rank beat flags : Nat)
  | stepBoundary (job : Nat)
  | stuckStep (job : Nat)
  | drainComplete (comp : Nat)
  | drainBeatMessage (comp rank beat : Nat)
  | flip (comp : Nat)
  | forcedReconfiguration (comp : Nat)
  | signalDetected (port : Nat)
  | lanesLocked (port lanes flight : Nat) (residual : Int) (rtt : Nat)
  | trainingTimeout (port : Nat)
  | identity (port : Nat) (frame : Frame) (fec : Nat)
  | lossOfSignal (port : Nat)
  | markerLoss (port : Nat)
  | heartbeatLoss (port : Nat)
  | resendLimit (port : Nat)
  | skewLimit (port : Nat)
  | downRetry (port : Nat)
  | data (port : Nat) (frame : Frame) (tagOk : Bool) (fec : Nat)
  | idle (port : Nat) (frame : Frame) (fec : Nat)
  | marker (port : Nat) (frame : Frame) (flight : Nat) (residual : Int) (fec : Nat)
  | heartbeatFrame (port : Nat) (frame : Frame) (fec : Nat)
  | probe (port : Nat) (frame : Frame) (fec : Nat)
  | badFrame (port : Nat) (raw : List Byte) (uncorrectable fec : Nat)
  | probeSend (job leg : Nat)
  | legBroken (job leg : Nat)
  | laneChangeDone (port lanes flight : Nat) (residual : Int) (rtt : Nat)
  | tetherLanesLocked (low high : Bool)
  | tetherTrainingTimeout
  | tetherFrameLoss
  | tetherDownRetry
  | sqtail (ring value : Nat)
  | cqhead (ring value : Nat)
  | aperture (comp offset : Nat) (data : List Byte)
  | ringFetch
  | rdata (tag status : Nat) (data : List Byte)
  | tetherReadTimeout (tag : Nat)
  | completionWrite (ring : Nat)
  | abort (ring tag : Nat)
  | dictRead (ring tag : Nat) (msg : Option OapMsg)
  | dictWrite (ring tag : Nat) (msg : Option OapMsg)
  | dictCommit (ring tag : Nat) (msg : Option OapMsg)
  | hello (msg : OapMsg)
  | sessionOpen (msg : OapMsg)
  | sessionClose (msg : OapMsg)
  | heartbeat (msg : OapMsg)
  | read (msg : OapMsg)
  | list (msg : OapMsg)
  | segRead (msg : OapMsg)
  | write (msg : OapMsg)
  | groupOpen (msg : OapMsg)
  | stage (msg : OapMsg)
  | segWrite (msg : OapMsg)
  | groupAbort (msg : OapMsg)
  | commit (msg : OapMsg)
  | groupCommit (group : Nat)
  | groupIdleExpiry (group : Nat)
  | sessionIdleTimeout (session : Nat)
  | orphanTimeout
  | neighborSolicitation (client : Nat) (net : NetFrame)
  | echoRequest (client : Nat) (net : NetFrame) (data : List Byte)
  | phyLinkUp
  | duplicateAddressDetection (duplicate : Bool)
  | permitExpiry (permit : Nat)
  | fuseWriteDone
  | tamperN
  | glitchSensor (kind : Nat)
  | teardownWaitEnd (comp : Nat)
  | scrubDone (comp badDevices badPackages : Nat)
  | vddCoreInTolerance
  | clockRelock
  | gddr7RetrainingDone
  | pmbusPoll (core sram : PmbusRead)
  | pmbAlertN (coreStatus sramStatus : Nat)
  | regulatorTimeout (rail : Nat)
  | leaseExpiry
  | brakeNFall
  | brakeNRise
  | brakeReleaseDelay
  | brakeHoldEnd
  | thermalTrip (sensor : Nat)
  | enginesEmpty
  | mooredEntryAbandon
  | mooredEntryDone
  | mooredExitDone
  | failStop (cause unit addr detail : Nat)
  | watchdog (pilot : Bool) (unit : Nat)
  | sliceFreeze (job : Nat)
  | rejoinComplete (job : Nat) (committed : Bool)
  | restoreComplete (job : Nat)
  | recoveryTimeout (job : Nat)
  | reProtection (comp : Nat) (remoteDirty : Bool) (shards : List (List Byte))
  | rebuild (comp stripe : Nat) (unprotected : Bool) (shards : List (Nat × List Byte))
  | shadowDecode (job slot page : Nat) (pageData : List Byte) (tagOk : Bool)
  | porstNAsserted
  | porstNReleased
  | sysrstNAsserted
  | sysrstNReleased
  | powerLoss
  | railExcursion (aon : Bool)
  | bootRomDone (flashOk : Bool) (capacity : Nat)
  | firmwareVerify (sigOk : Bool)
  | journalReplay (phyOk : Bool)
  | recoveryAnnounce
  | recoveryWrite (client offset total : Nat) (data : List Byte) (net : NetFrame)
  | recoveryInstall (client : Nat) (sigOk compareOk : Bool) (net : NetFrame)
  | recoveryClaimLapse
  | eraseDone
  | programDone
  | readBackDone (equal : Bool)
  | recordDurable (ok : Bool)
  | compactionCut
  | compactionDone
  | gustRunEnd
  | simulatedFailStop
  | sample (comp : Nat)
  | bypass
  | idcode
  | samplePreload
  | extest
  | clamp
  | extestPulse
  | extestTrain
  | unlockExchange (sigOk : Bool)
  | slot (index : Nat)
  | phyLinkDown
  | plcaBeaconLoss
  | plcaBeaconSeen
  | tamperCounterIncrement
  deriving DecidableEq, Repr

end Sys2Proof
end

