-- ==== Sys2Proof/Decode.lean ====
section
/-!
DEFINITION. The command that a word spells by the bits of the opcode table. No row of the table gives bits (every command is an
event, a frame, an entry or a message), so no word spells one.
-/

namespace Sys2Proof

/-- No row of the table has bits: no word spells a command (assumption 2). -/
def decodeTableWord (_nbits _w : Nat) : Option Instr := none

end Sys2Proof
end

