-- ==== Sys2Proof/Machine/Tab.lean ====
section
/-!
DEFINITION. Sparse tables in one canonical form: keys strictly rising. Every keyed part of the state is one of these.
-/

namespace Sys2Proof.Machine

/-- The value at a key, if listed. -/
def tget {α : Type} : Tab α → Nat → Option α
  | [], _ => none
  | (k, v) :: t, i => if k = i then some v else tget t i

/-- The value at a key, or what an unlisted key holds. -/
def tgetD {α : Type} (t : Tab α) (i : Nat) (d : α) : α := (tget t i).getD d

/-- Write one key, keeping the keys rising. -/
def tset {α : Type} : Tab α → Nat → α → Tab α
  | [], i, a => [(i, a)]
  | (k, v) :: t, i, a =>
    if k = i then (i, a) :: t else if i < k then (i, a) :: (k, v) :: t else (k, v) :: tset t i a

/-- Remove one key. -/
def terase {α : Type} : Tab α → Nat → Tab α
  | [], _ => []
  | (k, v) :: t, i => if k = i then terase t i else (k, v) :: terase t i

/-- Change the value at a key, starting from d where the key is not listed. -/
def tmod {α : Type} (t : Tab α) (i : Nat) (d : α) (f : α → α) : Tab α := tset t i (f (tgetD t i d))

/-- Change the value at a key if the key is listed. -/
def tadj {α : Type} (t : Tab α) (i : Nat) (f : α → α) : Tab α :=
  match tget t i with
  | some v => tset t i (f v)
  | none => t

/-- Change every listed value. -/
def tmap {α : Type} (t : Tab α) (f : Nat → α → α) : Tab α := t.map fun p => (p.1, f p.1 p.2)

/-- Keep the listed pairs that satisfy p. -/
def tfilter {α : Type} (t : Tab α) (p : Nat → α → Bool) : Tab α := t.filter fun q => p q.1 q.2

/-- The keys of a table, rising. -/
def tkeys {α : Type} (t : Tab α) : List Nat := t.map Prod.fst

/-- The values of a table in key order. -/
def tvals {α : Type} (t : Tab α) : List α := t.map Prod.snd

/-- The keys rise strictly: the canonical form. -/
def rising : List Nat → Bool
  | [] => true
  | [_] => true
  | a :: b :: t => decide (a < b) && rising (b :: t)

/-- A table in canonical form. -/
def twf {α : Type} (t : Tab α) : Bool := rising (tkeys t)

/-- Insert into a rising list of numbers, once. -/
def sinsert : List Nat → Nat → List Nat
  | [], i => [i]
  | k :: t, i => if k = i then k :: t else if i < k then i :: k :: t else k :: sinsert t i

/-- Remove from a rising list of numbers. -/
def serase : List Nat → Nat → List Nat
  | [], _ => []
  | k :: t, i => if k = i then t else if i < k then k :: t else k :: serase t i

/-- Replace element i of a list. -/
def lset {α : Type} : List α → Nat → α → List α
  | [], _, _ => []
  | _ :: t, 0, a => a :: t
  | b :: t, i + 1, a => b :: lset t i a

/-- The first n elements, padded with d. -/
def lpad {α : Type} (n : Nat) (d : α) (l : List α) : List α := l.take n ++ List.replicate (n - l.length) d

/-- Fold a state change over a list. -/
def foldS {α σ : Type} (l : List α) (f : α → σ → σ) (s : σ) : σ := l.foldl (fun t a => f a t) s

/-- Insertion by a strict order (structural). -/
def oinsert {α : Type} (lt : α → α → Bool) (a : α) : List α → List α
  | [] => [a]
  | b :: t => if lt a b then a :: b :: t else b :: oinsert lt a t

/-- A stable insertion sort by a strict order. -/
def osort {α : Type} (lt : α → α → Bool) (l : List α) : List α := l.foldl (fun acc a => oinsert lt a acc) []

end Sys2Proof.Machine
end

