-- ==== Sys2Proof/Machine/Hash.lean ====
section
/-!
DEFINITION. The hash and code functions the manual names: SHAKE256 (FIPS 202), CRC-32 of IEEE 802.3 (R258), the rANS decode of
R147, the Reed–Solomon arithmetic of R413.
-/

namespace Sys2Proof.Machine

/-- Rotate a 64-bit word left. -/
def rotl64 (w n : Nat) : Nat := (w * 2 ^ n % 2 ^ 64) + w / 2 ^ (64 - n)

/-- Keccak round constants. -/
def keccakRC : List Nat := [0x1, 0x8082, 0x800000000000808A, 0x8000000080008000, 0x808B, 0x80000001, 0x8000000080008081,
  0x8000000000008009, 0x8A, 0x88, 0x80008009, 0x8000000A, 0x8000808B, 0x800000000000008B, 0x8000000000008089,
  0x8000000000008003, 0x8000000000008002, 0x8000000000000080, 0x800A, 0x800000008000000A, 0x8000000080008081,
  0x8000000000008080, 0x80000001, 0x8000000080008008]

/-- Keccak rotation offsets, lane x + 5y. -/
def keccakRot : List Nat :=
  [0, 1, 62, 28, 27, 36, 44, 6, 55, 20, 3, 10, 43, 25, 39, 41, 45, 15, 21, 8, 18, 2, 61, 56, 14]

/-- Element i of a list of numbers, 0 beyond its end. -/
def nth (l : List Nat) (i : Nat) : Nat := l.getD i 0

/-- One round of Keccak-f[1600] on 25 lanes. -/
def keccakRound (a : List Nat) (rc : Nat) : List Nat :=
  let c := (List.range 5).map fun x =>
    Nat.xor (nth a x) (Nat.xor (nth a (x + 5)) (Nat.xor (nth a (x + 10)) (Nat.xor (nth a (x + 15)) (nth a (x + 20)))))
  let dd := (List.range 5).map fun x => Nat.xor (nth c ((x + 4) % 5)) (rotl64 (nth c ((x + 1) % 5)) 1)
  let t := (List.range 25).map fun i => rotl64 (Nat.xor (nth a i) (nth dd (i % 5))) (nth keccakRot i)
  -- lane (x, y) moves to (y, 2x + 3y)
  let b := (List.range 25).map fun j =>
    let u := j % 5
    let v := j / 5
    let y := u
    let x := (v + 5 * 3 - 3 * y % 5 + 5) * 3 % 5
    nth t (x + 5 * y)
  (List.range 25).map fun j =>
    let y := j / 5
    let x := j % 5
    let v := Nat.xor (nth b j) (Nat.land (Nat.xor (nth b ((x + 1) % 5 + 5 * y)) (2 ^ 64 - 1)) (nth b ((x + 2) % 5 + 5 * y)))
    if j = 0 then Nat.xor v rc else v

/-- Keccak-f[1600]. -/
def keccakF (a : List Nat) : List Nat := keccakRC.foldl keccakRound a

/-- XOR a block of 136 bytes into the first 17 lanes. -/
def absorb (a : List Nat) (blk : List Byte) : List Nat :=
  (List.range 25).map fun i => if i < 17 then Nat.xor (nth a i) (leNat ((blk.drop (8 * i)).take 8)) else nth a i

/-- Absorb the blocks of a padded message, fuel at least their number. -/
def absorbAll : Nat → List Nat → List Byte → List Nat
  | 0, a, _ => a
  | n + 1, a, m => match m with
    | [] => a
    | _ => absorbAll n (keccakF (absorb a (m.take 136))) (m.drop 136)

/-- SHAKE256 with n ≤ 136 bytes of output. -/
def shake256 (m : List Byte) (n : Nat) : List Byte :=
  let z := 135 - m.length % 136
  let pad : List Byte := if z = 0 then [0x9F] else [0x1F] ++ List.replicate (z - 1) 0 ++ [0x80]
  let a := absorbAll (m.length / 136 + 2) (List.replicate 25 0) (m ++ pad)
  ((a.take 17).flatMap fun w => leBytes 8 w).take n

/-- SHAKE256 with 256 bits of output. -/
def digest32 (m : List Byte) : List Byte := shake256 m 32

/-- The first 16 bytes of SHAKE256 (R206, R249). -/
def digest16 (m : List Byte) : List Byte := shake256 m 16

/-- One bit step of the reflected CRC-32. -/
def crcBit (c : Nat) : Nat := if c % 2 = 1 then Nat.xor (c / 2) 0xEDB88320 else c / 2

/-- CRC-32 with the IEEE 802.3 polynomial (R258). -/
def crc32 (m : List Byte) : Nat :=
  let c := m.foldl (fun c b => crcBit (crcBit (crcBit (crcBit (crcBit (crcBit (crcBit (crcBit (Nat.xor c b.toNat)))))))))
    0xFFFFFFFF
  Nat.xor c 0xFFFFFFFF

/-! rANS (R147). -/

/-- The symbol that r selects, with its frequency and cumulative frequency. -/
def ransSym : List Nat → Nat → Nat → Nat → Option (Nat × Nat × Nat)
  | [], _, _, _ => none
  | f :: fs, s, cum, r => if r < cum + f then some (s, f, cum) else ransSym fs (s + 1) (cum + f) r

/-- Renormalise by 16 bits until the state has reached 65,536; the fuel is more than the words of the payload, past which a state that is
still below it makes the tile corrupt. -/
def ransRenorm (p : List Byte) : Nat → Nat → Nat → Nat × Nat
  | 0, x, w => (x, w)
  | n + 1, x, w =>
    if x < 65536 then ransRenorm p n (x * 65536 + leNat ((p.drop w).take 2)) (w + 2) else (x, w)

/-- Decode n bytes from byte index i on, states xs, position w: the bytes, the final states and position. -/
def ransLoop (p : List Byte) (freq : List Nat) : Nat → Nat → List Nat → Nat → Option (List Byte × List Nat × Nat)
  | 0, _, xs, w => some ([], xs, w)
  | n + 1, i, xs, w =>
    let x := nth xs (i % 4)
    match ransSym freq 0 0 (x % 4096) with
    | none => none
    | some (s, f, cum) =>
      let x' := f * (x / 4096) + x % 4096 - cum
      let (y, w') := ransRenorm p (p.length + 1) x' w
      if y < 65536 || w' > p.length then none
      else (ransLoop p freq n (i + 1) (lset xs (i % 4) y) w').map fun r => (BitVec.ofNat 8 s :: r.1, r.2)

/-- R147: the tile's data, or none where the payload is corrupt. -/
def ransDecode (p : List Byte) (plen : Nat) : Option (List Byte) :=
  let freq := (List.range 256).map fun s => leNat ((p.drop (2 * s)).take 2)
  let xs := (List.range 4).map fun j => leNat ((p.drop (512 + 4 * j)).take 4)
  if p.length < 528 || freq.foldl (· + ·) 0 ≠ 4096 then none
  else match ransLoop p freq plen 0 xs 528 with
    | some (out, ys, w) => if ys.all (fun y => decide (y = 65536)) && decide (w = p.length) then some out else none
    | none => none

/-! Reed–Solomon over GF(2^8) with polynomial 0x11D (R413). -/

/-- Multiplication by 2. -/
def gfDouble (a : Nat) : Nat := if a < 128 then 2 * a else Nat.xor (2 * a) 0x11D

/-- a × 2^j. -/
def gfMulPow (j a : Nat) : Nat := (List.range j).foldl (fun x _ => gfDouble x) a

/-- Product, by the bits of b. -/
def gfMul (a b : Nat) : Nat :=
  (List.range 8).foldl (fun acc i => if b.testBit i then Nat.xor acc (gfMulPow i a) else acc) 0

/-- Inverse: a^254. -/
def gfInv (a : Nat) : Nat :=
  (List.range 7).foldl (fun (p : Nat × Nat) _ => (gfMul p.1 (gfMul p.2 p.2), gfMul p.2 p.2)) (1, a) |>.1

/-- Bytewise XOR of two strings. -/
def xorBytes (a b : List Byte) : List Byte := List.zipWith (fun x y => x ^^^ y) a b

/-- Every byte × 2^j. -/
def gfScale (j : Nat) (a : List Byte) : List Byte := a.map fun x => BitVec.ofNat 8 (gfMulPow j x.toNat)

/-- Every byte × c. -/
def gfTimes (c : Nat) (a : List Byte) : List Byte := a.map fun x => BitVec.ofNat 8 (gfMul c x.toNat)

/-- Parity i of the data shards, each n bytes (R413): 0 the XOR, 1 the sum of 2^j × shard j. -/
def rsParity (i n : Nat) (shards : List (List Byte)) : List Byte :=
  ((List.range shards.length).map fun j => if i = 0 then shards.getD j [] else gfScale j (shards.getD j [])).foldl
    xorBytes (List.replicate n 0)

end Sys2Proof.Machine
end

