-- ==== Sys2Proof/Machine/Fp.lean ====
section
/-!
DEFINITION. The arithmetic of the array and of the vector engine (R36 to R43, R53 to R55): exact values, one rounding to
nearest even, subnormals kept, one canonical NaN.
-/

namespace Sys2Proof.Machine

/-- An FP32 value taken apart: a finite value is v × 2^e, neg keeps the sign of a zero. -/
inductive Fp where
  | nan
  | inf (neg : Bool)
  | fin (neg : Bool) (m : Nat) (e : Int)
  deriving DecidableEq, Repr

/-- The canonical quiet NaN (R42). -/
def f32NaN : Lane := 0x7FC00000#32

/-- Infinity of a sign. -/
def f32Inf (neg : Bool) : Lane := if neg then 0xFF800000#32 else 0x7F800000#32

/-- Zero of a sign. -/
def f32Zero (neg : Bool) : Lane := if neg then 0x80000000#32 else 0#32

/-- The value of an FP32 (R42: subnormals are kept). -/
def f32Dec (a : Lane) : Fp :=
  let w := a.toNat
  let neg := w.testBit 31
  let x := bits w 30 23
  let f := bits w 22 0
  if x = 255 then (if f = 0 then .inf neg else .nan)
  else if x = 0 then .fin neg f (-149)
  else .fin neg (f + 2 ^ 23) ((x : Int) - 150)

/-- m × 2^e rounded to nearest even onto a format of p significant bits whose smallest unit is 2^qmin: the code without its
sign. A code above the largest finite one means overflow. -/
def rneCode (p : Nat) (qmin : Int) (m : Nat) (e : Int) : Nat :=
  if m = 0 then 0 else
  let top : Int := (m.log2 : Int) + e
  let q : Int := max (top - ((p : Int) - 1)) qmin
  let sh : Int := q - e
  let r : Nat :=
    if sh ≤ 0 then m <<< (-sh).toNat
    else
      let k := sh.toNat
      let a := m >>> k
      let rem := m % 2 ^ k
      let half := 2 ^ (k - 1)
      if rem > half ∨ (rem = half ∧ a % 2 = 1) then a + 1 else a
  r + (q - qmin).toNat * 2 ^ (p - 1)

/-- Round an exact value to FP32: to nearest even, beyond the range an infinity (R42). -/
def f32Enc (neg : Bool) (m : Nat) (e : Int) : Lane :=
  let c := rneCode 24 (-149) m e
  if c ≥ 0x7F800000 then f32Inf neg
  else BitVec.ofNat 32 (c + (if neg then 2 ^ 31 else 0))

/-- Round v × 2^e; an exact zero takes the sign given. -/
def f32OfInt (v : Int) (e : Int) (zeroNeg : Bool) : Lane :=
  if v = 0 then f32Zero zeroNeg else f32Enc (decide (v < 0)) v.natAbs e

/-- The signed mantissa. -/
def smant (neg : Bool) (m : Nat) : Int := if neg then -(m : Int) else (m : Int)

/-- Align to a lower exponent. -/
def alignTo (v : Int) (e lo : Int) : Int := v * (2 ^ (e - lo).toNat : Nat)

/-- Product of two values, unrounded. -/
def fpMul : Fp → Fp → Fp
  | .nan, _ => .nan
  | _, .nan => .nan
  | .inf a, .inf b => .inf (a != b)
  | .inf a, .fin b m _ => if m = 0 then .nan else .inf (a != b)
  | .fin b m _, .inf a => if m = 0 then .nan else .inf (a != b)
  | .fin a m e, .fin b n f => .fin (a != b) (m * n) (e + f)

/-- Sum of two unrounded values, rounded once (R42). -/
def fpAddRound : Fp → Fp → Lane
  | .nan, _ => f32NaN
  | _, .nan => f32NaN
  | .inf a, .inf b => if a = b then f32Inf a else f32NaN
  | .inf a, .fin .. => f32Inf a
  | .fin .., .inf a => f32Inf a
  | .fin a m e, .fin b n f =>
    let lo := min e f
    let v := alignTo (smant a m) e lo + alignTo (smant b n) f lo
    f32OfInt v lo (a && b)

/-- One rounding of an unrounded value. -/
def fpRound : Fp → Lane
  | .nan => f32NaN
  | .inf a => f32Inf a
  | .fin a m e => if m = 0 then f32Zero a else f32Enc a m e

/-- The opposite value. -/
def fpNeg : Fp → Fp
  | .nan => .nan
  | .inf a => .inf (!a)
  | .fin a m e => .fin (!a) m e

/-- a + b (Table 2.3, R53). -/
def f32Add (a b : Lane) : Lane := fpAddRound (f32Dec a) (f32Dec b)

/-- a − b (Table 2.3, R53). -/
def f32Sub (a b : Lane) : Lane := fpAddRound (f32Dec a) (fpNeg (f32Dec b))

/-- a × b (Table 2.3, R53). -/
def f32Mul (a b : Lane) : Lane := fpRound (fpMul (f32Dec a) (f32Dec b))

/-- a × b + c with one rounding (Table 2.3). -/
def f32Fma (a b c : Lane) : Lane := fpAddRound (fpMul (f32Dec a) (f32Dec b)) (f32Dec c)

/-- a × 2^k (Table 2.3, SCALE). -/
def f32Scale (a : Lane) (k : Int) : Lane :=
  match f32Dec a with
  | .fin s m e => fpRound (.fin s m (e + k))
  | x => fpRound x

/-- Position of an ordered value on the number line; −0 lies just below +0 (IEEE 754 maximum and minimum). -/
def f32Key (a : Lane) : Int :=
  let w := a.toNat
  if w.testBit 31 then -((w % 2 ^ 31 : Nat) : Int) - 1 else (w : Int)

/-- Is it a NaN? -/
def f32IsNaN (a : Lane) : Bool := decide (f32Dec a = .nan)

/-- a < b as real numbers, false with a NaN. -/
def f32Lt (a b : Lane) : Bool :=
  match f32Dec a, f32Dec b with
  | .nan, _ => false
  | _, .nan => false
  | .inf s, .inf t => s && !t
  | .inf s, .fin .. => s
  | .fin .., .inf t => !t
  | .fin s m e, .fin t n f => decide (alignTo (smant s m) e (min e f) < alignTo (smant t n) f (min e f))

/-- Equal as real numbers, false with a NaN. -/
def f32Eq (a b : Lane) : Bool := !f32IsNaN a && !f32IsNaN b && !f32Lt a b && !f32Lt b a

/-- The larger of a and b; NaN if either is NaN (Table 2.3). -/
def f32Max (a b : Lane) : Lane :=
  if f32IsNaN a || f32IsNaN b then f32NaN else if f32Key a < f32Key b then b else a

/-- The smaller of a and b; NaN if either is NaN (Table 2.3). -/
def f32Min (a b : Lane) : Lane :=
  if f32IsNaN a || f32IsNaN b then f32NaN else if f32Key b < f32Key a then b else a

/-- 1 / a, correctly rounded (R53): the quotient to 300 bits below the leading one, with a sticky bit. -/
def f32Rcp (a : Lane) : Lane :=
  match f32Dec a with
  | .nan => f32NaN
  | .inf s => f32Zero s
  | .fin s m e =>
    if m = 0 then f32Inf s
    else
      let n := 2 ^ 100
      let q := n / m
      f32Enc s (2 * q + (if n % m = 0 then 0 else 1)) (-101 - e)

/-- Integer square root, one bit at a time from bit k down. -/
def isqrtLoop (n : Nat) : Nat → Nat → Nat
  | 0, r => if (r + 1) * (r + 1) ≤ n then r + 1 else r
  | k + 1, r =>
    let t := r + 2 ^ (k + 1)
    isqrtLoop n k (if t * t ≤ n then t else r)

/-- Floor of the square root of a number below 2^260. -/
def isqrt (n : Nat) : Nat := isqrtLoop n 130 0

/-- 1 / √a, correctly rounded (R53). -/
def f32Rsqrt (a : Lane) : Lane :=
  match f32Dec a with
  | .nan => f32NaN
  | .inf s => if s then f32NaN else f32Zero false
  | .fin s m e =>
    if m = 0 then f32Inf s
    else if s then f32NaN
    else
      let m2 := if e % 2 = 0 then m else 2 * m
      let h : Int := (if e % 2 = 0 then e else e - 1) / 2
      let n := 2 ^ 200
      let r := isqrt (n / m2)
      f32Enc false (2 * r + (if r * r * m2 = n then 0 else 1)) (-101 - h)

/-- ln 2 in units of 2^−256, rounded down. -/
def ln2Fix : Nat := 0xb17217f7d1cf79abc9e3b39803f2f6af40f343267298b62d8a0d175b8baafa2b

/-- The exponential series at y (units of 2^−256): n more terms from the term t number k. -/
def expSeries (y : Nat) : Nat → Nat → Nat → Nat
  | 0, _, _ => 0
  | n + 1, k, t => t + expSeries y n (k + 1) ((t * y) / (k * 2 ^ 256))

/-- 2^a, correctly rounded (R53): 2^fraction to 256 bits by its series, then one rounding. -/
def f32Exp2 (a : Lane) : Lane :=
  match f32Dec a with
  | .nan => f32NaN
  | .inf s => if s then f32Zero false else f32Inf false
  | .fin s m e =>
    if f32Lt a 0xC3160000#32 then f32Zero false
    else if !f32Lt a 0x43000000#32 then f32Inf false
    else
      let v := smant s m
      if e ≥ 0 then f32Enc false 1 (v * (2 ^ e.toNat : Nat))
      else
        let k := (-e).toNat
        let i : Int := v / (2 ^ k : Nat)
        let f := (v % (2 ^ k : Nat)).toNat
        if f = 0 then f32Enc false 1 i
        else
          let y := (f * ln2Fix) / 2 ^ k
          f32Enc false (2 * expSeries y 60 1 (2 ^ 256) + 1) (i - 257)

/-! Operand formats (Table 2.1, R36): elements as exact values. -/

/-- An element of an operand: a NaN, an infinity, or a finite number of the format's units. -/
inductive Elem where
  | nan
  | inf (neg : Bool)
  | fin (v : Int)
  deriving DecidableEq, Repr

/-- A sign-magnitude element with x exponent bits and f fraction bits, in units of its smallest subnormal. -/
def miniElem (x f w : Nat) : Int :=
  let ex := bits w (x + f - 1) f
  let fr := bits w (f - 1) 0
  let m := if ex = 0 then fr else (fr + 2 ^ f) * 2 ^ (ex - 1)
  if w.testBit (x + f) then -(m : Int) else (m : Int)

/-- The element of format code fmt coded by w, in units of 2^(elemUnit fmt). BF16 is not a block format: code 6 is not read here. -/
def elemOf (fmt w : Nat) : Elem :=
  match fmt with
  | 0 => .fin (miniElem 2 1 w)
  | 1 | 4 => if w % 128 = 127 then .nan else .fin (miniElem 4 3 w)
  | 2 | 5 => if bits w 6 2 = 31 then (if w % 4 = 0 then .inf (w.testBit 7) else .nan) else .fin (miniElem 5 2 w)
  | _ => .fin (signed 8 (w % 256))

/-- The unit exponent of a block format: E2M1 2^−1, E4M3 2^−9, E5M2 2^−16, INT8 2^−6. -/
def elemUnit (fmt : Nat) : Int :=
  match fmt with
  | 0 => -1
  | 1 | 4 => -9
  | 2 | 5 => -16
  | _ => -6

/-- Product of two elements (R38, R42). -/
def elemMul : Elem → Elem → Elem
  | .nan, _ => .nan
  | _, .nan => .nan
  | .inf a, .inf b => .inf (a != b)
  | .inf a, .fin v => if v = 0 then .nan else .inf (a != decide (v < 0))
  | .fin v, .inf a => if v = 0 then .nan else .inf (a != decide (v < 0))
  | .fin v, .fin w => .fin (v * w)

/-- Exact sum of two products (R38, R42). -/
def elemAdd : Elem → Elem → Elem
  | .nan, _ => .nan
  | _, .nan => .nan
  | .inf a, .inf b => if a = b then .inf a else .nan
  | .inf a, .fin _ => .inf a
  | .fin _, .inf a => .inf a
  | .fin v, .fin w => .fin (v + w)

/-- The exact block sum of the element products of one K block (R38). -/
def blockSum : List Elem → List Elem → Elem
  | a :: as, b :: bs => elemAdd (elemMul a b) (blockSum as bs)
  | _, _ => .fin 0

/-- The block sum scaled by its two E8M0 codes and rounded once (R39, R42); FP8 takes no scale. -/
def blockRound (af bf : Nat) (mx : Bool) (xa xb : Nat) (s : Elem) : Lane :=
  if mx && (decide (xa = 255) || decide (xb = 255)) then f32NaN
  else
    let sc : Int := if mx then (xa : Int) - 127 + ((xb : Int) - 127) else 0
    match s with
    | .nan => f32NaN
    | .inf n => f32Inf n
    | .fin v => f32OfInt v (elemUnit af + elemUnit bf + sc) false

/-- A BF16 as FP32 (Table 2.1). -/
def bf16ToF32 (w : Nat) : Lane := BitVec.ofNat 32 ((w % 65536) * 65536)

/-! Store conversion (R55). -/

/-- Significant bits, smallest unit and largest finite code of a store format; INT8 apart. -/
def storeFmt (fmt : Nat) : Nat × Int × Nat :=
  match fmt with
  | 0 => (2, -1, 0x7)
  | 1 | 4 => (4, -9, 0x7E)
  | 2 | 5 => (3, -16, 0x7B)
  | _ => (8, -133, 0x7F7F)

/-- Is the code an MX format? -/
def isMx (fmt : Nat) : Bool := decide (fmt ≤ 3)

/-- The largest exponent of an MX element (R55). -/
def mxEmax (fmt : Nat) : Int :=
  match fmt with
  | 0 => 2
  | 1 => 8
  | 2 => 15
  | _ => 0

/-- The shared scale code of a group of lanes (R55): none of the lanes counts where it is a NaN; an infinity clamps to 127. -/
def mxScale (fmt : Nat) (ls : List Lane) : Nat :=
  let tops := ls.filterMap fun a =>
    match f32Dec a with
    | .fin _ m e => if m = 0 then none else some ((m.log2 : Int) + e)
    | .inf _ => some (1000 : Int)
    | .nan => none
  match tops with
  | [] => 0
  | t :: ts =>
    let x := (ts.foldl max t) - mxEmax fmt
    let c : Int := max (-127) (min 127 x)
    (c + 127).toNat

/-- The sign position of a store format's code. -/
def signBit (fmt : Nat) : Nat :=
  match fmt with
  | 0 => 8
  | 6 => 0x8000
  | _ => 0x80

/-- One lane's element code in a store format, after division by 2^x (R55). unstated is the code where the spec states
none: an infinity in a format without infinities. -/
def cvtElem (fmt : Nat) (x : Int) (unstated : Nat) (a : Lane) : Nat :=
  match f32Dec a with
  | .nan =>
    match fmt with
    | 0 | 3 => 0
    | 1 | 4 => 0x7F
    | 2 | 5 => 0x7E
    | _ => 0x7FC0
  | .inf s =>
    match fmt with
    | 2 | 5 => 0x7C + (if s then 0x80 else 0)
    | 6 => 0x7F80 + (if s then 0x8000 else 0)
    | _ => unstated
  | .fin s m e =>
    if fmt = 3 then
      let c := min 127 (rneCode 64 (-6) m (e - x))
      if s then (256 - c) % 256 else c
    else
      let (p, q, top) := storeFmt fmt
      let c := min top (rneCode p q m (e - x))
      c + (if s then signBit fmt else 0)

/-! The counter-based draw (R210, R456). -/

/-- One Philox4x32 round. -/
def philoxRound (k0 k1 : Nat) (c : Nat × Nat × Nat × Nat) : Nat × Nat × Nat × Nat :=
  let (c0, c1, c2, c3) := c
  let p0 := 0xD2511F53 * c0
  let p1 := 0xCD9E8D57 * c2
  (Nat.xor (Nat.xor (p1 / 2 ^ 32) c1) k0, p1 % 2 ^ 32, Nat.xor (Nat.xor (p0 / 2 ^ 32) c3) k1, p0 % 2 ^ 32)

/-- n Philox4x32 rounds with the key schedule. -/
def philoxRounds : Nat → Nat → Nat → Nat × Nat × Nat × Nat → Nat × Nat × Nat × Nat
  | 0, _, _, c => c
  | n + 1, k0, k1, c =>
    philoxRounds n ((k0 + 0x9E3779B9) % 2 ^ 32) ((k1 + 0xBB67AE85) % 2 ^ 32) (philoxRound k0 k1 c)

/-- philox4x32_10 (R210, R456). -/
def philox (k0 k1 c0 c1 c2 c3 : Nat) : Nat × Nat × Nat × Nat := philoxRounds 10 k0 k1 (c0, c1, c2, c3)

end Sys2Proof.Machine
end

