-- ==== Sys2Proof/Config.lean ====
section
/-!
DEFINITION. What an implementation or the manual's tables fix: free values (constants without a body: nothing can be proved of
them), the profiles, the status codes, the limits of Table 0.2 and Table 5.10.
-/

namespace Sys2Proof.Config

/-- The random-number generator (R152, R330, R349, R357, R374): draw number n. Free (assumption 4). -/
opaque random : Nat → Nat

/-- Byte i of the fused maker-root digest of this device (0x1330:05). Free (assumption 3). -/
opaque makerRoot : Nat → Byte

/-- The code that CVT writes for an infinity of a sign in a store format without infinities: the manual states none (R55;
assumption 20). Free, by format, sign and position. -/
opaque cvtInfinity : Nat → Bool → Nat → Nat

/-- The F32 pattern of a scale or a register that the manual leaves undefined at a read. Free. -/
opaque unstated : Nat → Nat

/-- Byte i of the AES-256-GCM keystream of a key and an IV (R149, assumption 12): the model holds no key material. Free. -/
opaque keystream : Nat → Nat → Nat → Byte

/-- The GCM tag of a key, an IV and the authenticated bytes (R149, assumption 12). Free. -/
opaque gcmTag : Nat → Nat → List Byte → Nat

/-- Byte i of the parts of a scan record whose layout the manual does not give (Table 3.15: control state, switch buffers, array
pipeline), by record. Free. -/
opaque scanByte : Nat → Nat → Byte

/-- Byte i of the fuse map (0x8000:02): the manual gives no layout. Free, by the fuses' state (with the UDS left out). -/
opaque fuseMap : Nat → Nat → Byte

/-- Byte i of the digest of the boot ROM, M_ROM (R357). Free. -/
opaque romDigest : Nat → Byte

/-- How the fabric is wired: the device and port at the far end of a port of a device, by device number (R271). The wiring lies outside the
device, and a route entry names the out port of every hop and no device. Free (assumption 188). -/
opaque wiring : Nat → Nat → Option (Nat × Nat)

/-- The multicast leg that is a descriptor's destination, if any: the manual lets a winch descriptor have a multicast destination (R277) and does
not say how a descriptor names it. Free, by descriptor (assumption 183). -/
opaque multicastLeg : Nat → Option Nat

/-- The sync counter, within the compartment, that the step controller names in a descriptor of its own: the manual gives none (R164, Table
4.14). Free, by compartment (assumption 184). -/
opaque controllerSync : Nat → Nat

/-- Local address of the request block of a row's request, in units of 128 bytes (R193): the manual gives no place. Free, by job and
slot. -/
opaque requestBlock : Nat → Nat → Nat

/-- What the step controller puts into the fields of a head-list entry other than SERIAL and VOID (R104, kind 1): the manual does not
say. Free, by list, entry and serial. -/
opaque headEntry : Nat → Nat → Nat → Nat

/-- The list entry whose ROWS sets valid-count register v of a logical facet (R105): which facets an entry serves is the image's own
matter. Free, by facet and register; none where no entry does. -/
opaque countSource : Nat → Nat → Option Nat

/-- The candidate logits of a sampled position, the shares of all ranks in rank order, by token number (R210, R236): a function of the image by its
digest, of the generation by its WSID, of the slice size and of the tokens up to the position. The arithmetic is the image's own matter. Free. -/
opaque rowLogits : List Byte → Nat → Nat → List Nat → List (List (Nat × BitVec 32))

/-- The page-data bytes of a position on a rank (R236, R249), by image digest, WSID, slice size, rank and the tokens up to the position. Free. -/
opaque rowData : List Byte → Nat → Nat → Nat → List Nat → List Byte

/-- Byte i of the XOR of the other ranks' pieces of a page that closes (R422), by job, slot, request serial, page and rank: they come from the other
members. Free. -/
opaque parityByte : Nat → Nat → Nat → Nat → Nat → Nat → Byte

/-- The page-data bytes of one position of a reused block whose bytes lie outside the guarantee (R240, R249). Free, by block hash and position. -/
opaque sharedData : Nat → Nat → List Byte

/-- The flag bits of a token completion that a new lead writes again (R411): they reached no staging record. By job, slot and position
(R411). -/
opaque repeatedFlags : Nat → Nat → Nat → Nat

/-- Cycles per beat by profile code (Table 12.2). -/
def cyclesPerBeat (p : Nat) : Nat := if p = 0 then 1280 else if p = 1 then 1408 else if p = 2 then 1024 else 768

/-- Flits per on-chip slot by profile code (Table 3.1). -/
def flitsPerSlot (p : Nat) : Nat := if p = 0 then 20 else if p = 1 then 22 else if p = 2 then 16 else 12

/-- Bridle lanes set by the profile; Onyx sets none (R254). -/
def profileLanes (p : Nat) : Option Nat := if p = 0 then some 16 else if p = 1 then some 8 else if p = 2 then some 16 else none

/-- Frames per Bridle slot by lanes in service (Table 8.1). -/
def framesPerSlot (lanes : Nat) : Nat := if lanes = 16 then 15 else if lanes = 8 then 7 else if lanes = 4 then 3 else 0

/-- GDDR7 pin rate in Gb/s by profile code (R137). -/
def gddrRate (p : Nat) : Nat := if p = 0 then 40 else if p = 2 then 48 else 32

/-- Base VDD_CORE in mV by profile code (Table 12.2). -/
def vddCore (p : Nat) : Nat := if p = 0 then 700 else if p = 1 then 760 else if p = 2 then 660 else 600

/-- VDD_SRAM in mV in every profile (Table 12.2). -/
def vddSram : Nat := 750

/-- Array clock in MHz by profile code (Table 12.2). -/
def arrayClock (p : Nat) : Nat := if p = 0 then 1250 else if p = 1 then 1375 else if p = 2 then 1000 else 750

/-- Envelope in W by profile code (Table 12.2). -/
def envelope (p : Nat) : Nat := if p = 3 then 280 else 450

/-- Beats in a Round (R16). -/
def round : Nat := 2 ^ 20

/-- The first 64 bits of KMAC256 of a key over bytes (R366, R370; assumption 12). Free, by key, purpose and bytes. -/
opaque kmac : Nat → Nat → List Byte → Nat

/-- Byte i of the public key of a key pair (R330, R363; assumption 12). Free, by key. -/
opaque publicKey : Nat → Nat → Byte

/-- Byte i of an Ed448 signature by a key over bytes (R330, R358; assumption 12). Free. -/
opaque signature : Nat → List Byte → Nat → Byte

/-! Status codes (Table 9.11). -/

def ok : Nat := 0x0000
def late : Nat := 0x0001
def alreadyDone : Nat := 0x0002
def replayed : Nat := 0x0003
def nullStep : Nat := 0x0004
def cancelled : Nat := 0x0010
def aborted : Nat := 0x0011
def deadlineMissed : Nat := 0x0012
def busy : Nat := 0x0020
def noResource : Nat := 0x0021
def shapeExceeded : Nat := 0x0022
def generationGone : Nat := 0x0023
def accessDenied : Nat := 0x0030
def range : Nat := 0x0031
def readOnly : Nat := 0x0032
def commitFailed : Nat := 0x0033
def authFail : Nat := 0x0034
def keyRetired : Nat := 0x0035
def imageRejected : Nat := 0x0040
def slotConflict : Nat := 0x0041
def planMismatch : Nat := 0x0042
def noTarget : Nat := 0x0050
def poison : Nat := 0x0051
def linkDown : Nat := 0x0052
def deviceFault : Nat := 0x00F0

end Sys2Proof.Config
end

