-- ==== Sys2Proof/Machine/StateMem.lean ====
section
/-!
DEFINITION. The state of the three memory tiers and of the winch engines (chapter 4).
-/

namespace Sys2Proof.Machine

/-- Every byte the device keeps outside its registers, by local address (Table 4.1): facet memory, secure memory, working
tier and resting tier, in one list of cells with strictly rising addresses and no cell that equals what an unlisted
address reads as (MemSys.wf). live lists the 64-bit words
of facet memory that are not POISON (R64), lines the weight lines of facet memory (R153), granBase whether an unlisted granule of the working
tier is a weight granule and granules the granules that differ from it (R153, Table 14.3), flips the words with injected bit flips
(R63, R454), scrubbed the tier units whose last content is a teardown's scrub pattern (R374), with the draw of its value. -/
structure MemSys where
  cells : List Host.Cell
  live : List Nat
  lines : List Nat
  granBase : Bool
  granules : List Nat
  flips : Tab Nat
  scrubbed : Tab Nat
  deriving DecidableEq, Repr

/-- Memory right after PORST_N: nothing listed, every facet word POISON (R64). -/
def MemSys.reset : MemSys := ⟨[], [], [], false, [], [], []⟩

/-- The states of a stream descriptor's record (Table 4.11). An aborted record waits as aborting until its accesses in flight have ended
(R166); report says that the abort came through ABORT, so that ABTSTAT shows its end. -/
inductive RecState where
  | queued
  | waiting
  | active
  | aborting (report : Bool)
  | done
  | failed
  | aborted
  deriving DecidableEq, Repr

/-- What the device submitted a descriptor for: the step controller acts on its end (R184, R198, R204, R205, chapter 13). -/
inductive Purpose where
  | image
  | gondola
  | liftGen (job wset recB : Nat)
  | spillPage (job slot page : Nat)
  | liftPage (job slot page : Nat)
  deriving DecidableEq, Repr

/-- An element of a descriptor whose far part is under way (R160, R169): its number, source and next destination address, the bytes that far
reads have brought by board address, the bytes that are still to leave for a far destination, whether writes have left, and the status of
a far access that failed (0 for none). -/
structure FarElem where
  elem : Nat
  src : Nat
  dst : Nat
  got : List (Nat × List Byte)
  out : List Byte
  sent : Bool
  err : Nat
  deriving DecidableEq, Repr

/-- A descriptor's operation record (R162): number, the 512-bit descriptor, the elements issued, the status and the element that failed it, the
elements whose far part is under way, oldest first. -/
structure Rec where
  num : Nat
  desc : Nat
  st : RecState
  elem : Nat
  status : Nat
  errElem : Nat
  purpose : Purpose
  remote : List FarElem
  deriving DecidableEq, Repr

/-- A winch engine's control block and records (Table 4.10). -/
structure Engine where
  recs : List Rec
  next : Nat
  substat : Nat
  abtstat : Nat
  errlog : Nat
  deriving DecidableEq, Repr

/-- An engine right after reset. -/
def Engine.reset : Engine := ⟨[], 0, 0, 0, 0⟩

/-- Who waits for a board-space reply (R172). -/
inductive BoardUser where
  | engine (e rec elem : Nat)
  | gondola (g : Nat)
  deriving DecidableEq, Repr

/-- A board-space request this device has sent and not seen answered (R170, R172): its leg, and the acknowledgements still to come, more than
one for a multicast (R277). -/
structure BoardReq where
  user : BoardUser
  kind : Nat
  slot : Nat
  addr : Nat
  len : Nat
  leg : Nat
  left : Nat
  deriving DecidableEq, Repr

end Sys2Proof.Machine
end

