-- ==== Sys2Proof/Machine/Mem.lean ====
section
/-!
DEFINITION. The operations over the device's memories (chapter 4, R57 to R66, R153): what an address reads as, plain and marked
writes, POISON, weight marks, code-bit flips, loss and scrub. Every one keeps the canonical form of MemSys.
-/

namespace Sys2Proof.Machine

/-- First address of the working tier (Table 4.1). -/
def workBase : Nat := 0x010000000000
/-- First address of the resting tier (Table 4.1). -/
def restBase : Nat := 0x100000000000
/-- First address of secure memory (Table 4.1). -/
def secureBase : Nat := 0x20000000
/-- First address of control space (Table 4.1). -/
def controlBase : Nat := 0x40000000
/-- Bytes of facet memory (Table 4.1). -/
def facetTop : Nat := 0x20000000

/-- The regions of the local address map (Table 4.1, R131, R132). -/
inductive Region where
  | facet (n : Nat)
  | secure
  | control
  | gddr (d : Nat)
  | lp (p : Nat)
  | hole
  deriving DecidableEq, Repr

/-- The region of a local address (Table 4.1, R131, R132). -/
def regionOf (a : Nat) : Region :=
  if a < facetTop then .facet (a / 0x80000)
  else if a < secureBase + 0x400000 then .secure
  else if a < controlBase then .hole
  else if a < controlBase + 0x40000000 then .control
  else if a < workBase then .hole
  else if a < workBase + 0x1000000000 then .gddr ((a - workBase) / 0x100000000)
  else if a < restBase then .hole
  else if a < restBase + 0xC000000000 then .lp ((a - restBase) / 0x1800000000)
  else .hole

/-- The tier unit of an address as scrub and refresh count it: GDDR7 device d, or 16 + package. -/
def unitOf (a : Nat) : Option Nat :=
  match regionOf a with
  | .gddr d => some d
  | .lp p => some (16 + p)
  | _ => none

/-- What a byte that nothing has written reads as: in a scrubbed unit its byte of the word's address XOR the teardown's draw
(R374), anywhere else 0 (assumption 5: the manual gives no content after power-on). -/
def MemSys.background (m : MemSys) (a : Nat) : Byte :=
  match unitOf a with
  | some u =>
    match tget m.scrubbed u with
    | some n => BitVec.ofNat 8 ((Nat.xor (a / 8 * 8) (Config.random n % 2 ^ 64)) >>> (8 * (a % 8)))
    | none => 0
  | none => 0

/-- The byte stored at an address, whatever its poison bit. -/
def MemSys.byte (m : MemSys) (a : Nat) : Byte := (tget m.cells a).getD (m.background a)

/-- n bytes from an address. -/
def MemSys.bytes (m : MemSys) (a : Nat) : Nat → List Byte
  | 0 => []
  | n + 1 => m.byte a :: m.bytes (a + 1) n

/-- Store one byte: an entry equal to what an unlisted address reads as is not kept. -/
def MemSys.setByte (m : MemSys) (a : Nat) (b : Byte) : MemSys :=
  { m with cells := if b = m.background a then terase m.cells a else tset m.cells a b }

/-- Store bytes from an address on. -/
def MemSys.setBytes (m : MemSys) (a : Nat) : List Byte → MemSys
  | [] => m
  | b :: bs => (m.setByte a b).setBytes (a + 1) bs

/-- Is the facet word at this address POISON (R64)? -/
def MemSys.poisoned (m : MemSys) (a : Nat) : Bool := decide (a < facetTop) && !m.live.contains (a / 8)

/-- Does any word of a run of n bytes read as POISON? -/
def MemSys.anyPoison (m : MemSys) (a n : Nat) : Bool :=
  decide (a < facetTop) && ((List.range ((a + n + 7) / 8 - a / 8)).any fun i => m.poisoned (8 * (a / 8 + i)))

/-- The mark units that a run of n bytes touches: facet lines of 128 bytes, working-tier granules of 64 KiB (R153). -/
def unitSpan (sz a n : Nat) : List Nat := (List.range ((a + n + sz - 1) / sz - a / sz)).map fun i => a / sz + i

/-- The mark units that a run of n bytes covers whole. -/
def wholeSpan (sz a n : Nat) : List Nat :=
  let lo := (a + sz - 1) / sz
  (List.range ((a + n) / sz - lo)).map fun i => lo + i

/-- Is a working-tier granule marked (R153)? -/
def MemSys.granuleMarked (m : MemSys) (g : Nat) : Bool := xor m.granBase (m.granules.contains g)

/-- Set or clear a granule's mark. -/
def MemSys.markGranule (m : MemSys) (g : Nat) (on : Bool) : MemSys :=
  { m with granules := if on = m.granBase then serase m.granules g else sinsert m.granules g }

/-- Does a run of n bytes touch a weight granule or a weight line (R153)? -/
def MemSys.touchesWeight (m : MemSys) (a n : Nat) : Bool :=
  match regionOf a with
  | .facet _ => (unitSpan 128 a n).any fun l => m.lines.contains l
  | .gddr _ => (unitSpan 65536 a n).any fun g => m.granuleMarked g
  | _ => false

/-- Mark every unit a write touches (R153). -/
def MemSys.markTouched (m : MemSys) (a n : Nat) : MemSys :=
  match regionOf a with
  | .facet _ => { m with lines := (unitSpan 128 a n).foldl sinsert m.lines }
  | .gddr _ => (unitSpan 65536 a n).foldl (fun m g => m.markGranule g true) m
  | _ => m

/-- Clear the mark of every unit a write covers whole (R153). -/
def MemSys.clearCovered (m : MemSys) (a n : Nat) : MemSys :=
  match regionOf a with
  | .facet _ => { m with lines := (wholeSpan 128 a n).foldl serase m.lines }
  | .gddr _ => (wholeSpan 65536 a n).foldl (fun m g => m.markGranule g false) m
  | _ => m

/-- Whole words written are no longer POISON (R64) and carry no flipped bits (R454). -/
def MemSys.freshWords (m : MemSys) (a n : Nat) : MemSys :=
  { m with
    live := if a < facetTop then (wholeSpan 8 a n).foldl sinsert m.live else m.live
    flips := (wholeSpan 8 a n).foldl terase m.flips }

/-- A plain write of bytes (R64, R153). -/
def MemSys.write (m : MemSys) (a : Nat) (bs : List Byte) : MemSys :=
  ((m.setBytes a bs).freshWords a bs.length).clearCovered a bs.length

/-- A write of weight data: the units it touches are marked (R153). -/
def MemSys.writeMarked (m : MemSys) (a : Nat) (bs : List Byte) : MemSys :=
  ((m.setBytes a bs).freshWords a bs.length).markTouched a bs.length

/-- Keep only the cells of which p holds. -/
def MemSys.keep (m : MemSys) (p : Nat → Bool) : MemSys := { m with cells := m.cells.filter fun c => p c.1 }

/-- Facet n's memory: every word POISON, no mark (R64, R153). -/
def MemSys.poisonFacet (m : MemSys) (n : Nat) : MemSys :=
  let lo := n * 0x80000
  { m with
    cells := m.cells.filter fun c => !(decide (lo ≤ c.1) && decide (c.1 < lo + 0x80000))
    live := m.live.filter fun w => !(decide (lo ≤ 8 * w) && decide (8 * w < lo + 0x80000))
    lines := m.lines.filter fun l => !(decide (lo ≤ 128 * l) && decide (128 * l < lo + 0x80000))
    flips := m.flips.filter fun f => !(decide (lo ≤ 8 * f.1) && decide (8 * f.1 < lo + 0x80000)) }

/-- Every facet's words POISON and unmarked (R64). -/
def MemSys.poisonAll (m : MemSys) : MemSys :=
  { m with
    cells := m.cells.filter fun c => decide (facetTop ≤ c.1)
    live := []
    lines := []
    flips := m.flips.filter fun f => decide (facetTop ≤ 8 * f.1) }

/-- Secure memory wiped (R355, R356). -/
def MemSys.wipeSecure (m : MemSys) : MemSys := m.keep fun a => decide (regionOf a ≠ .secure)

/-- The tiers lose their contents (R142, R401). -/
def MemSys.loseTiers (m : MemSys) : MemSys :=
  { m with
    cells := m.cells.filter fun c => decide (c.1 < workBase)
    flips := m.flips.filter fun f => decide (8 * f.1 < workBase)
    granBase := false
    granules := []
    scrubbed := [] }

/-- Every granule becomes a weight granule (Table 14.1, SYSRST_N). -/
def MemSys.markAllGranules (m : MemSys) : MemSys := { m with granBase := true, granules := [] }

/-- Scrub leaves draw n's pattern in a tier unit and clears its granules' marks (R374). -/
def MemSys.scrub (m : MemSys) (u n : Nat) : MemSys :=
  let m' : MemSys := { m with
    cells := m.cells.filter fun c => decide (unitOf c.1 ≠ some u)
    flips := m.flips.filter fun f => decide (unitOf (8 * f.1) ≠ some u)
    scrubbed := tset m.scrubbed u n }
  if u < 16 then
    (List.range 65536).foldl (fun m i => m.markGranule ((workBase + u * 0x100000000) / 65536 + i) false) m'
  else m'

/-- Flip k stored bits of the word at an address (R454). -/
def MemSys.flip (m : MemSys) (a k : Nat) : MemSys := { m with flips := tset m.flips (a / 8) k }

/-- The word at an address holds its right code again (R63). -/
def MemSys.correct (m : MemSys) (a : Nat) : MemSys := { m with flips := terase m.flips (a / 8) }

/-- Poison one word (R128: scan-in writes poison bits). -/
def MemSys.poisonWord (m : MemSys) (w : Nat) : MemSys := { m with live := serase m.live w }

/-- The canonical form: addresses strictly rising, no cell that equals what an unlisted address reads as, mark and poison sets
rising. -/
def MemSys.wf (m : MemSys) : Bool :=
  twf m.cells && m.cells.all (fun c => decide (c.2 ≠ m.background c.1)) && rising m.live && rising m.lines &&
  rising m.granules && twf m.flips && twf m.scrubbed

/-- What a command asks of the memories. -/
inductive MemOp where
  | write (addr : Nat) (data : List Byte)
  | writeMarked (addr : Nat) (data : List Byte)
  | unmark (addr bytes : Nat)
  | poisonFacet (n : Nat)
  | poisonAll
  | poisonWord (w : Nat)
  | wipeSecure
  | loseTiers
  | markAllGranules
  | scrub (unit draw : Nat)
  | flip (addr bits : Nat)
  | correct (addr : Nat)
  deriving DecidableEq, Repr

/-- Do what a command asks. -/
def MemSys.run (m : MemSys) : MemOp → MemSys
  | .write a bs => m.write a bs
  | .writeMarked a bs => m.writeMarked a bs
  | .unmark a n => m.clearCovered a n
  | .poisonFacet n => m.poisonFacet n
  | .poisonAll => m.poisonAll
  | .poisonWord w => m.poisonWord w
  | .wipeSecure => m.wipeSecure
  | .loseTiers => m.loseTiers
  | .markAllGranules => m.markAllGranules
  | .scrub u n => m.scrub u n
  | .flip a k => m.flip a k
  | .correct a => m.correct a

end Sys2Proof.Machine
end

