-- ==== Sys2Proof/Machine/StateFacet.lean ====
section
/-!
DEFINITION. The state of a facet, its switch and its two configuration copies, and of a compartment's canopy configuration
(chapters 2 and 3).
-/

namespace Sys2Proof.Machine

/-- V of a flit's sideband (Table 2.9). -/
def flitV (f : Flit) : Bool := f.sb.testBit 15
/-- E of a flit's sideband (Table 2.9). -/
def flitE (f : Flit) : Bool := f.sb.testBit 14
/-- L of a flit's sideband (Table 2.9). -/
def flitL (f : Flit) : Bool := f.sb.testBit 13
/-- STREAM of a flit's sideband (Table 2.9). -/
def flitStream (f : Flit) : Nat := bits f.sb 12 0

/-- Build a sideband (Table 2.9). -/
def mkSb (v e l : Bool) (stream : Nat) : Nat :=
  (if v then 2 ^ 15 else 0) + (if e then 2 ^ 14 else 0) + (if l then 2 ^ 13 else 0) + stream % 8192

/-- A row of 64 lanes with its lane-valid mask (R50, R52). -/
structure Row where
  lanes : List Lane
  mask : Nat
  deriving DecidableEq, Repr

/-- The row of +0 lanes, every lane valid. -/
def zeroRow : Row := ⟨List.replicate 64 0, 2 ^ 64 - 1⟩

/-- A facet program section after relocation (Table 2.10), its records as packed words. -/
structure Prog where
  static : Nat
  portMap : List Nat
  masks : List Nat
  scales : List Lane
  windows : List Nat
  tiles : List Nat
  bundles : List Nat
  deriving DecidableEq, Repr

/-- What the circuit of an output queue holds (R90, R91). -/
structure OqBind where
  circ : Nat
  credits : Nat
  oqlim : Nat
  stream : Nat
  deriving DecidableEq, Repr

/-- Who feeds an input queue: the sending facet and its queue, or a gateway and its port (R90). -/
structure IqBind where
  circ : Nat
  gateway : Bool
  src : Nat
  srcq : Nat
  deriving DecidableEq, Repr

/-- One of a facet's two configuration copies (R117): program, slot table of 64 packed entries, circuit ends. -/
structure Copy where
  valid : Bool
  prog : Prog
  slots : List Nat
  oq : Tab OqBind
  iq : Tab IqBind
  deriving DecidableEq, Repr

/-- The empty program. -/
def Prog.none : Prog := ⟨0, [], [], [], [], [], []⟩

/-- A copy that holds nothing. -/
def Copy.none : Copy := ⟨false, Prog.none, [], [], []⟩

/-- What a facet program is doing (STATE[1:0], Table 2.15). -/
inductive FacetRun where
  | idle
  | running
  | halted
  deriving DecidableEq, Repr

/-- Why a bundle is stalled (R21, R47, R77, R80). -/
inductive Stall where
  | none
  | iqEmpty (q : Nat)
  | oqFull (q : Nat)
  | bank (b : Nat)
  | accEmpty
  | sync
  | waitl
  | waitw
  deriving DecidableEq, Repr

/-- The state of an accumulator bank: free to compute, or complete and waiting to be drained (R46, R47). -/
inductive BankState where
  | free
  | ready
  deriving DecidableEq, Repr

/-- An accumulator bank: 16 rows of 64 FP32 and what its drain needs (R34, R43, R50). -/
structure Bank where
  st : BankState
  acc : List (List Lane)
  rowMask : Nat
  colMask : Nat
  fp8 : Bool
  sa : Lane
  sb : Lane
  nextRow : Nat
  deriving DecidableEq, Repr

/-- A bank of +0. -/
def Bank.zero : Bank := ⟨.free, List.replicate 16 (List.replicate 64 0), 0, 0, false, 0, 0, 0⟩

/-- One operand of a pass: the bytes that have entered, how many it takes in all, the input queue that feeds it, whether its
flits stay in the queue for a later pass of the tile (R102), whether the next pass of the tile goes on in the same stream. -/
structure Feed where
  have_ : List Byte
  need : Nat
  queue : Option Nat
  keep : Bool
  more : Bool
  deriving DecidableEq, Repr

/-- A pass that has issued and is not complete (R44): its bank, its tile command and its two operands. -/
structure Pass where
  bank : Nat
  cmd : Nat
  a : Feed
  b : Feed
  rowMask : Nat
  colMask : Nat
  deriving DecidableEq, Repr

/-- A window's registers in the control block (Table 2.15). -/
structure WinReg where
  serial : Nat
  expect : Nat
  arrivals : Nat
  flags : Nat
  deriving DecidableEq, Repr

/-- A facet (chapter 2) with its switch (chapter 3). issued says that the bundle has issued, counted that its stall on an output queue
is in CSTALL. vrow counts the rows of the current vector operation that are done, vout holds the flits of a row that still wait for room
in the output queue, sIssue the scalar registers as the bundle found them at issue, grps the exact-add groups that are partly applied, by
input queue, with the header and the addends applied. -/
structure Facet where
  powered : Bool
  epoch : Bool
  copy0 : Copy
  copy1 : Copy
  run : FacetRun
  started : Bool
  held : Bool
  frozen : Bool
  poisonSeen : Bool
  startExec : Nat
  iter : Nat
  pc : Nat
  doneA : Bool
  doneV : Bool
  doneC : Bool
  issued : Bool
  counted : Bool
  next : Nat
  ended : Bool
  vrow : Nat
  vout : List Flit
  stall : Stall
  tregs : Tab Row
  vflags : Nat
  s : List Word64
  sIssue : List Word64
  valid : List Nat
  wins : Tab WinReg
  iq : Tab (List Flit)
  oq : Tab (List Flit)
  arriving : List (Nat × Flit)
  bufs : Tab (List (Nat × Flit))
  credits : Tab Nat
  creditFly : Tab Nat
  cstall : Tab Nat
  curBank : Nat
  bank0 : Bank
  bank1 : Bank
  drainQ : List Nat
  passes : List Pass
  grps : Tab (Nat × Nat)
  tileIssues : Tab Nat
  eccCe : Nat
  epochDisc : Nat
  staleGrp : Nat
  discGrp : Nat
  deriving DecidableEq, Repr

/-- A facet right after PORST_N: nothing loaded, every register 0. -/
def Facet.reset : Facet where
  powered := true
  epoch := false
  copy0 := Copy.none
  copy1 := Copy.none
  run := .idle
  started := false
  held := false
  frozen := false
  poisonSeen := false
  startExec := 0
  iter := 0
  pc := 0
  doneA := false
  doneV := false
  doneC := false
  issued := false
  counted := false
  next := 0
  ended := false
  vrow := 0
  vout := []
  stall := .none
  tregs := []
  vflags := 0
  s := List.replicate 16 0
  sIssue := List.replicate 16 0
  valid := List.replicate 16 0
  wins := []
  iq := []
  oq := []
  arriving := []
  bufs := []
  credits := []
  creditFly := []
  cstall := []
  curBank := 0
  bank0 := Bank.zero
  bank1 := Bank.zero
  drainQ := []
  passes := []
  grps := []
  tileIssues := []
  eccCe := 0
  epochDisc := 0
  staleGrp := 0
  discGrp := 0

/-- The stages of a reconfiguration (Table 3.12, 0x2310 + c:02). -/
inductive Reconf where
  | idle
  | loading
  | shadowValid
  | fenced
  | flipping
  deriving DecidableEq, Repr

/-- The code of a stage (0x2310 + c:02). -/
def Reconf.code : Reconf → Nat
  | .idle => 0
  | .loading => 1
  | .shadowValid => 2
  | .fenced => 3
  | .flipping => 4

/-- What a loaded or active image leaves with its compartment: the packed words the step controller uses later. -/
structure ImageInfo where
  digest : List Byte
  header : Nat
  group0 : Nat
  circuits : List Nat
  descs : List Nat
  templates : List Nat
  windows : List Nat
  routing : List Nat
  bridle : List Nat
  bridleLanes : Nat
  statics : List Nat
  deriving DecidableEq, Repr

/-- No image. -/
def ImageInfo.none : ImageInfo := ⟨[], 0, 0, [], [], [], [], [], [], 0, []⟩

/-- The reconfiguration of the facets a job holds, or of a compartment's (R117 to R123, Table 3.14). -/
structure Canopy where
  st : Reconf
  active : ImageInfo
  shadow : ImageInfo
  epoch : Bool
  group : Option Nat
  job : Option Nat
  fence : Nat
  drain : Option Nat
  drains : Tab Nat
  deriving DecidableEq, Repr

/-- A compartment's configuration right after PORST_N. -/
def Canopy.reset : Canopy := ⟨.idle, ImageInfo.none, ImageInfo.none, false, none, none, 0, none, []⟩

/-- A SCAN_OUT in progress (R124, R127): which facets, where to, when held, which records are still to be written. -/
structure Scan where
  ring : Nat
  tag : Nat
  facets : List Nat
  withMem : Bool
  keepHeld : Bool
  dest : Nat
  accepted : Nat
  heldAt : Option Nat
  todo : List Nat
  deriving DecidableEq, Repr

end Sys2Proof.Machine
end

