-- ==== Sys2Proof/Machine/StateServe.lean ====
section
/-!
DEFINITION. The state of the serving loop: jobs, catalogs, requests, pages, steps, plans, digests (chapters 5, 6, 7) and of
a job's recovery (chapter 13).
-/

namespace Sys2Proof.Machine

/-- Job states (Table 0.5). -/
inductive JobState where
  | forming
  | loading
  | running
  | draining
  | ended
  | faulted
  deriving DecidableEq, Repr

/-- The code of a job state (Table 0.5). -/
def JobState.code : JobState → Nat
  | .forming => 0
  | .loading => 1
  | .running => 2
  | .draining => 3
  | .ended => 4
  | .faulted => 5

/-- Request states (Table 0.5). -/
inductive ReqState where
  | admitted
  | prefill
  | decode
  | retiring
  | free
  deriving DecidableEq, Repr

/-- The code of a request state (Table 0.5). -/
def ReqState.code : ReqState → Nat
  | .admitted => 0
  | .prefill => 1
  | .decode => 2
  | .retiring => 3
  | .free => 4

/-- A host command that has been accepted and not completed: which ring, which TAG (R302). -/
structure Origin where
  ring : Nat
  tag : Nat
  deriving DecidableEq, Repr

/-- A request's mask (R208): an automaton in a state, with the start state it was set with and the history length at which the
mask took effect; empty where the automaton leaves no token (R209). -/
inductive Mask where
  | none
  | allow (toks : List Nat)
  | auto (n state start from_ : Nat)
  | empty
  deriving DecidableEq, Repr

/-- Where a page's data lies (R202 to R207): no frame yet, a working-tier frame, a spilled frame, a move under way. -/
inductive PagePlace where
  | reserved
  | working (frame : Nat)
  | spilling (frame dest tries : Nat)
  | resting (addr : Nat)
  | lifting (addr frame : Nat)
  | shared (owner page : Nat)
  deriving DecidableEq, Repr

/-- A page of a request's page table (R203, Table 4.6). -/
structure Page where
  place : PagePlace
  fill : Nat
  refs : Nat
  dirty : Bool
  deriving DecidableEq, Repr

/-- What a command accepted for a request and not yet committed will do at a step boundary (R196, order 4). -/
inductive ReqChange where
  | append (toks : List Nat) (verify : Bool) (pages : Nat)
  | trim (n : Nat)
  | mask (m : Mask)
  deriving DecidableEq, Repr

/-- A request-table slot in use (R188 to R212). reserved counts the tokens its pages are reserved for, made the positions of its
generated tokens, cancel the CANCELs that marked it; verifyFrom and verifyUpTo bound the appended positions reported under R199, replayTo the
positions whose entries are written again after a loss (R198, R421), verified the tokens that were sampled at appended positions and did not join
the history (R199).
history is every token committed for it (R196), kv how many of its positions have
key-value entries, input the tokens still to be processed from position kv on: history.take kv ++ input is all it has to run. -/
structure Req where
  job : Nat
  serial : Nat
  st : ReqState
  committed : Bool
  origin : Origin
  wset : Nat
  gen : Nat
  recB : Bool
  promptLen : Nat
  history : List Nat
  kv : Nat
  input : List Nat
  maxNew : Nat
  made : List Nat
  stops : List Nat
  seed : Nat
  temp : Lane
  topk : Nat
  topp : Lane
  chunk : Nat
  ttft : Nat
  tbt : Nat
  hard : Bool
  prio : Bool
  reuse : Bool
  deadline : Option Nat
  mask : Mask
  cancel : List Origin
  retire : Option Nat
  verifyFrom : Nat
  verifyUpTo : Nat
  pages : List Page
  reserved : Nat
  sharedToks : Nat
  lastStep : Nat
  genChanged : Bool
  replayed : Bool
  replayTo : Nat
  verified : List (Nat × Nat)
  deriving DecidableEq, Repr

/-- A staged step or the step in progress (R191 to R195). -/
structure StepRec where
  serial : Nat
  groups : List GroupEntry
  rows : List BatchRow
  start : Nat
  null : Bool
  extra : Bool
  restore : Bool
  origin : Option Origin
  deriving DecidableEq, Repr

/-- The state of one group's plan at one routed layer (Table 6.5). -/
inductive PlanState where
  | pending
  | released
  | complete
  deriving DecidableEq, Repr

/-- A plan (R227 to R230): the count record's fields, the rounds planned, the RETCTR value at which it completes, the beat since when it
waits, the command that planned it and the members whose release is not reported. -/
structure Plan where
  layer : Nat
  group : Nat
  serial : Nat
  need : Nat
  maxc : Nat
  rounds : Nat
  st : PlanState
  target : Nat
  begun : Nat
  origin : Option Origin
  waiting : List Nat
  deriving DecidableEq, Repr

/-- A prefix entry (R207): hash, tokens, the page that holds the block, its users, when it was last matched,
whether it was ever reused, whether the table has dropped it, and whether its bytes lie outside the guarantee (R240). -/
structure PrefixEntry where
  hash : List Byte
  toks : List Nat
  place : PagePlace
  users : Nat
  matchedAt : Nat
  shared : Bool
  gone : Bool
  foul : Bool
  deriving DecidableEq, Repr

/-- The phases of a job's recovery (Table 13.6, 0x5340 + j:02). -/
inductive RecovPhase where
  | none
  | frozen
  | rejoining
  | restoring
  deriving DecidableEq, Repr

/-- The code of a recovery phase (0x5340 + j:02). -/
def RecovPhase.code : RecovPhase → Nat
  | .none => 0
  | .frozen => 1
  | .rejoining => 2
  | .restoring => 3

/-- A job record (R175 to R180, Table 5.13). held says that the boundary of the step in progress waits for room (R300), applied what the
lead applied at the last two step boundaries (R411), undone the discarded step that runs again after a recovery (R405, R406), aborts the STEPs
that complete ABORTED when the job resumes (R424). parity holds where shadow mode's parity frames lie, by request key × 32,768 + page (R148,
R422). retBase and cntBase are RETCTR and CNTCTR of a routed layer as the step found them (R226, R229), by layer; early keeps forwarded plans
whose count record this member has not seen (R230), as layer, group, serial and rounds; reruns the plans of an aborted run of the step, against
which a ROUND_PLAN may still come (R234). -/
structure Job where
  st : JobState
  comp : Nat
  spar : Bool
  rank : Nat
  members : List Nat
  slice : Nat
  origin : Origin
  endOrigin : List Origin
  digest : List Byte
  peerImage : Bool
  header : Nat
  info : ImageInfo
  hostImage : Nat
  groups : List Nat
  released : Bool
  regionHeld : Bool
  tiered : Bool
  pageSize : Nat
  wbase : Nat
  wlen : Nat
  kvBase : Nat
  kvLen : Nat
  countBuf : Nat
  maxStep : Nat
  lastStep : Nat
  agree : Nat
  confirmed : List Nat
  formedAt : Nat
  serial : Nat
  nextAdm : Nat
  staged : Option StepRec
  step : Option StepRec
  doneBeats : Tab Nat
  doneFlags : Tab Nat
  results : List RowResult
  shares : List Nat
  flights : Tab Nat
  freeFrames : List Nat
  prefixes : List PrefixEntry
  automata : Tab Automaton
  plans : List Plan
  inj : Bool
  phase : RecovPhase
  frozenAt : Nat
  iced : Bool
  before : JobState
  failed : List Nat
  linkSlot : Option Nat
  imageRank : Nat
  passed : Bool
  endStatus : Nat
  faultStatus : Nat
  held : Bool
  applied : List (List CmdOutcome)
  undone : Option StepRec
  aborts : List Origin
  parity : Tab Nat
  retBase : Tab Nat
  cntBase : Tab Nat
  early : List (Nat × Nat × Nat × Nat)
  reruns : List Plan
  deriving DecidableEq, Repr

/-- A generation record (Table 5.3), with the clock of its last step, the job that lifted it, the members that have not reported it
resident, those whose report came before this lead lifted it (job × 65,536 + rank), and the descriptors of its lift that wait for a free record of
the engine (R161, R184). -/
structure GenRec where
  wsid : Nat
  gen : Nat
  dir : Nat
  tiles : Nat
  hold : Nat
  keyslot : Nat
  role : Nat
  res : Nat
  rbase : Nat
  badst : Nat
  stepped : Nat
  liftJob : Nat
  away : List Nat
  ahead : List Nat
  rest : List Nat
  deriving DecidableEq, Repr

/-- The empty record. -/
def GenRec.none : GenRec := ⟨0, 0, 0, 0, 0, 0, 0, 0, 0, 0, 0, 0, [], [], []⟩

/-- A catalog entry: records A and B, and the command or group whose swap is pending (R182, R185). -/
structure CatEntry where
  a : GenRec
  b : GenRec
  swap : Option Nat
  deriving DecidableEq, Repr

/-- An entry with nothing in it. -/
def CatEntry.none : CatEntry := ⟨GenRec.none, GenRec.none, Option.none⟩

/-- A compartment's catalog (R181). -/
structure Catalog where
  arch : List Byte
  entries : Tab CatEntry
  deriving DecidableEq, Repr

/-- A digest-table entry (Table 7.3), with the job it belongs to and the first position that KVDIG does not cover yet (R252). -/
structure DigEntry where
  kv : List Byte
  log : List Byte
  tok : List Byte
  reqser : Nat
  img : List Byte
  kvpos : Nat
  sampled : Nat
  mode : Nat
  flags : Nat
  job : Nat
  next : Nat
  deriving DecidableEq, Repr

/-- What a change with commit timing S does when its step boundary comes (R31, R33), besides commit groups. rebind and unbind are the parts of an
immediate swap and of a forced eviction that reach the requests of a further Running job at its own boundary. -/
inductive SEffect where
  | admitted (slot : Nat)
  | request (slot : Nat) (change : ReqChange) (origin : Origin)
  | load (wset : Nat) (rec : GenRec) (arch : List Byte) (origin : Origin)
  | swapCmd (wset : Nat) (immediate : Bool) (origin : Origin)
  | evict (wset gen : Nat) (force : Bool) (origin : Origin)
  | endJob (cancel : Bool) (origin : Origin)
  | window (facet w serial : Nat)
  | vcount (facet v value : Nat)
  | wexpect (facet w value : Nat)
  | stepser (value : Nat)
  | rebind (wset gen recB : Nat)
  | unbind (wset gen : Nat)
  deriving DecidableEq, Repr

/-- A pending change with commit timing S (R30, R31): its compartment, the job that owns it if one does, the beat of its
acceptance, its place in the order of acceptance (R32). -/
structure SChange where
  comp : Nat
  job : Option Nat
  accepted : Nat
  order : Nat
  effect : SEffect
  deriving DecidableEq, Repr

end Sys2Proof.Machine
end

