-- ==== Sys2Proof/Machine/StateLink.lean ====
section
/-!
DEFINITION. The state of the Bridle ports, legs and tables (chapter 8) and of Tether and its rings (chapter 9).
-/

namespace Sys2Proof.Machine

/-- An IDLE frame with nothing to say. -/
def idleFrame : Frame := ⟨1, 0, 0, false, false, 0, 0, 0, 0, 0, 0, [], [], 1, 0⟩

/-- Link states (Table 8.5, 0x2200 + p:01). -/
inductive LinkState where
  | idle
  | training
  | identifying
  | conforming
  | inService
  | held
  | down
  | disabled
  deriving DecidableEq, Repr

/-- The code of a link state (0x2200 + p:01). -/
def LinkState.code : LinkState → Nat
  | .idle => 0
  | .training => 1
  | .identifying => 2
  | .conforming => 3
  | .inService => 4
  | .held => 5
  | .down => 6
  | .disabled => 7

/-- A control message that waits on a port for a job's control slot (R275): the number of the first slot in which it may leave, its kind, its words.
The manual gives no layout of control messages. -/
structure CtlMsg where
  job : Nat
  slot : Nat
  ready : Nat
  kind : Nat
  words : List Nat
  deriving DecidableEq, Repr

/-- A frame that waits for an out slot of a port: the slot, and the number of the first slot in which it may leave (R272). -/
structure PassFrame where
  slot : Nat
  ready : Nat
  frame : Frame
  deriving DecidableEq, Repr

/-- A frame in a receive FIFO (R259): whether its tag verified, and the beat from which it may leave. -/
structure RxFrame where
  ok : Bool
  due : Nat
  frame : Frame
  deriving DecidableEq, Repr

/-- A Bridle port (R253 to R263, Table 8.11). owed holds the credits to send on this link by CRSLOT; pass the frames that wait for an out slot of
this port, ctl the control messages that do; heard counts the DATA frames that have arrived in beat heardBeat (R456). Tether's link is one of
the same kind, of which it uses what acknowledgement and retry need (R288). -/
structure Port where
  st : LinkState
  since : Nat
  plan : Nat
  farNum : Nat
  farPlace : Nat
  lanes : Nat
  farLanes : Nat
  changing : Bool
  flight : Nat
  residual : Int
  offset : Int
  rtt : Nat
  usable : Nat
  slots : Tab Nat
  nextSeq : Nat
  expected : Nat
  acked : Nat
  unacked : List Frame
  fifo : List RxFrame
  owed : Tab Nat
  retryOut : Bool
  resend : List Nat
  resends : Tab Nat
  pass : List PassFrame
  ctl : List CtlMsg
  lastMarker : Nat
  lastHeart : Nat
  skewRun : Nat
  farBeat : Option Nat
  farState : Nat
  farProfile : Nat
  heardBeat : Nat
  heard : Nat
  deriving DecidableEq, Repr

/-- A port right after reset (Table 8.11). -/
def Port.reset : Port where
  st := .idle
  since := 0
  plan := 4
  farNum := 0
  farPlace := 0
  lanes := 0
  farLanes := 0
  changing := false
  flight := 0
  residual := 0
  offset := 0
  rtt := 0
  usable := 0
  slots := []
  nextSeq := 0
  expected := 0
  acked := 65535
  unacked := []
  fifo := []
  owed := []
  retryOut := false
  resend := []
  resends := []
  pass := []
  ctl := []
  lastMarker := 0
  lastHeart := 0
  skewRun := 0
  farBeat := none
  farState := 0
  farProfile := 0
  heardBeat := 0
  heard := 0

/-- A hop of a leg's route on a member that is neither its source nor its destination (R271): the port and slot advance of arrival, and of leaving. -/
structure Through where
  inPort : Nat
  inAdv : Nat
  outPort : Nat
  outAdv : Nat
  deriving DecidableEq, Repr

/-- A leg of a local job as this member holds it (R267, R268, Table 8.8, R271). credits counts the flits it may send, by out port; at a multicast
member that forwards, the credits each neighbour below has given that are not passed on yet, this member's own gateway being port 16. backlog
holds the flits of messages that find no room in the transmit buffer. -/
structure Leg where
  kind : Nat
  srcRank : Nat
  dstRank : Nat
  srcPort : Nat
  dstPort : Nat
  nslot : Nat
  txb : Nat
  rxb : Nat
  srcCirc : Nat
  dstCirc : Nat
  mask : Nat
  hops : List Nat
  through : List Through
  tx : List Flit
  backlog : List Flit
  rx : List Flit
  credits : Tab Nat
  lctr : Nat
  lastProbe : Nat
  lastSent : Nat
  probed : Bool
  broken : Bool
  enc : Bool
  deriving DecidableEq, Repr

/-- A member's place in a job's control tree (R271): parent, ports and slots. -/
structure TreeEntry where
  rank : Nat
  parent : Nat
  upPort : Nat
  downPort : Nat
  upSlot : Nat
  downSlot : Nat
  deriving DecidableEq, Repr

/-- A job's route table and Bridle counts (R271, Table 8.13), and the flits of the image that have left in the formation slots, by port (R279). -/
structure Routes where
  tag : Nat
  mask : Nat
  tree : List TreeEntry
  entries : List Nat
  broken : Nat
  pathTime : Nat
  imageSent : Tab Nat
  deriving DecidableEq, Repr

/-- What a device read serves (R290, R295). -/
inductive ReadUse where
  | entries (ring first count : Nat)
  | operands (ring tag : Nat)
  deriving DecidableEq, Repr

/-- An outstanding device read (R290). -/
structure DevRead where
  use : ReadUse
  express : Bool
  beat : Nat
  deriving DecidableEq, Repr

/-- A ring (R293 to R298, Table 9.15): state (0 disabled, 1 enabled, 2 Error), submission head and tail, completion tail, entries the host has not freed, PHASE,
the TAGs accepted since it was enabled with their opcodes, the beat of its last interrupt message and whether one is due. -/
structure Ring where
  st : Nat
  head : Nat
  tail : Nat
  cqTail : Nat
  cqUsed : Nat
  phase : Bool
  seen : Tab Nat
  intBeat : Option Nat
  intDue : Bool
  deriving DecidableEq, Repr

/-- A ring that is disabled. -/
def Ring.reset : Ring := ⟨0, 0, 0, 0, 0, true, [], none, false⟩

/-- An accepted command that has not completed (R295, R302): its entry, how it came, whether its own checks have passed,
whether its commit point has passed and its place in the order of acceptance (R32). -/
structure Cmd where
  entry : Nat
  express : Bool
  beat : Nat
  started : Bool
  committed : Bool
  order : Nat
  deriving DecidableEq, Repr

/-- A completion entry (Table 9.9) before PHASE is added, and whether writing it frees its TAG (R302). -/
structure Compl where
  tag : Nat
  serial : Nat
  beat : Nat
  var : Nat
  job : Nat
  kind : Nat
  opcode : Nat
  ring : Nat
  flags : Nat
  status : Nat
  detail : Nat
  frees : Bool
  deriving DecidableEq, Repr

/-- Tether link states (Table 9.1). -/
inductive TetherState where
  | idle
  | training
  | inService
  | down
  | moored
  deriving DecidableEq, Repr

/-- The code of a Tether link state (0x2400:01). -/
def TetherState.code : TetherState → Nat
  | .idle => 0
  | .training => 1
  | .inService => 2
  | .down => 3
  | .moored => 4

/-- A fetch whose entries are not accepted yet (R295): the tag of its read, its ring, how many entries it brings, and their bytes once they came. -/
structure Fetched where
  tag : Nat
  ring : Nat
  count : Nat
  data : Option (List Byte)
  deriving DecidableEq, Repr

/-- Tether (chapter 9): link, outstanding reads, the fetches in their order, rings, accepted commands by ring × 2^32 + TAG, waiting completions, commands
whose operand read was lost with the link, whether fetch is paused at the bound of R295, whether completions that waited for the
link are still to be written first (R301); the link (R288), the bytes of packets that wait to be sent, and those received of a packet that is not
whole yet (R290). -/
structure Tether where
  st : TetherState
  since : Nat
  lanes : Nat
  lastRing : Nat
  reads : Tab DevRead
  nextTag : Nat
  fetched : List Fetched
  rings : Tab Ring
  cmds : Tab Cmd
  pend : List Compl
  lost : List Nat
  paused : Bool
  back : Bool
  link : Port
  tx : List Byte
  rx : List Byte
  deriving DecidableEq, Repr

/-- Tether right after reset. -/
def Tether.reset : Tether := ⟨.idle, 0, 0, 0, [], 0, [], [], [], [], [], false, false, Port.reset, [], []⟩

end Sys2Proof.Machine
end

