-- ==== Sys2Proof/Machine/StateSys.lean ====
section
/-!
DEFINITION. The state of the object dictionary and its sessions and groups (chapter 10), of keys and compartments (chapter 11),
of the ballast and Moored (chapter 12), of boot, firmware and journal (chapter 14), of gust, sampling and JTAG (chapter 15), and
what the device sends out.
-/

namespace Sys2Proof.Machine

/-- Device states (Table 0.5). -/
inductive DevState where
  | off
  | grounded
  | booting
  | placed
  | training
  | ready
  | serving
  | moored
  | stopped
  deriving DecidableEq, Repr

/-- The code of a device state (Table 0.5). -/
def DevState.code : DevState → Nat
  | .off => 0
  | .grounded => 1
  | .booting => 2
  | .placed => 3
  | .training => 4
  | .ready => 5
  | .serving => 6
  | .moored => 7
  | .stopped => 8

/-- An object's value (Table 10.1): a number, as its bits, or a byte string. -/
inductive Val where
  | num (n : Nat)
  | bytes (bs : List Byte)
  deriving DecidableEq, Repr

/-- An entry of a commit group (Table 10.2). A write carries the value as bytes; total is the declared length of a BLOB staged by
pieces. -/
structure Entry where
  kind : Nat
  index : Nat
  sub : Nat
  value : List Byte
  guard : List Byte
  total : Option Nat
  pieces : List (Nat × List Byte)
  keyOk : Bool
  valueSig : Bool
  deriving DecidableEq, Repr

/-- Commit-group states (Table 10.4). -/
inductive GroupState where
  | opened
  | granted
  | committed
  | failed
  | aborted
  deriving DecidableEq, Repr

/-- A reply that waits for a journal record (R325). -/
structure Waiter where
  via : Via
  session : Nat
  seq : Nat
  op : Nat
  deriving DecidableEq, Repr

/-- A commit group (R319 to R327). cls is 0 I, 1 B, 2 S, 3 D. -/
structure Group where
  st : GroupState
  session : Nat
  role : Nat
  port : Bool
  entries : List Entry
  cls : Nat
  lastRound : Nat
  grantBeat : Nat
  order : Nat
  commitBeat : Nat
  status : Nat
  detail : Nat
  asker : Option Waiter
  deriving DecidableEq, Repr

/-- A reply of the Object Access Protocol (Table 10.5). -/
structure Reply where
  via : Via
  session : Nat
  seq : Nat
  op : Nat
  group : Nat
  status : Nat
  detail : Nat
  ndur : Bool
  tagged : Bool
  body : List Byte
  deriving DecidableEq, Repr

/-- A session (R330 to R335). replies holds the answers of the 16 most recent requests, none while one is pending. -/
structure Session where
  role : Nat
  mask : Nat
  via : Via
  opened : Nat
  last : Nat
  high : Nat
  seen : List Nat
  replies : List (Nat × Option Reply)
  nonce : Option (List Byte)
  permit : Option Nat
  deriving DecidableEq, Repr

/-- A permit in force (R349, R350). -/
structure Permit where
  kind : Nat
  endRound : Nat
  subject : List Byte
  deriving DecidableEq, Repr

/-- A key-store entry: a key's identity, or a tombstone (R368, R371). -/
structure StoreKey where
  key : Nat
  tomb : Bool
  deriving DecidableEq, Repr

/-- A key slot (R365): kind and bound WSID. -/
structure KeySlot where
  kind : Nat
  wsid : Nat
  key : Nat
  deriving DecidableEq, Repr

/-- What a compartment holds besides its objects (chapter 11): keys, link secret, teardown progress. Keys are identities
drawn from the random source. -/
structure Comp where
  kw : Option Nat
  priv : Nat
  sealedKw : Bool
  sealEpoch : Nat
  store : Tab StoreKey
  linkSecret : Option Nat
  tearStep : Nat
  tearBeat : Nat
  tearDraw : Nat
  deriving DecidableEq, Repr

/-- A compartment that was never created. -/
def Comp.reset : Comp := ⟨none, 0, false, 0, [], none, 0, 0, 0⟩

/-- A profile change in progress (R380): the new profile, whether VDD_CORE and the clock are done, whether memory and lanes are. -/
structure ProfChange where
  profile : Nat
  raise : Bool
  vddDone : Bool
  clockDone : Bool
  held : Bool
  gddr : Bool
  lanes : List Nat
  deriving DecidableEq, Repr

/-- Moored states (0x3400:02). -/
inductive MooredState where
  | awake
  | entering
  | moored
  | exiting
  deriving DecidableEq, Repr

/-- The code of a Moored state (0x3400:02). -/
def MooredState.code : MooredState → Nat
  | .awake => 0
  | .entering => 1
  | .moored => 2
  | .exiting => 3

/-- The ballast unit (chapter 12). -/
structure Ballast where
  skip : Nat
  nextSkip : Option Nat
  pOth : Nat
  pCan : Nat
  profChange : Option ProfChange
  brakeLow : Bool
  brakeOn : Bool
  brakeCanopy : Bool
  brakeFrom : Nat
  highSince : Nat
  delayDone : Bool
  moored : MooredState
  mooredFrom : DevState
  mooredBeat : Nat
  emptied : Bool
  emptyBeat : Nat
  mooredHold : Bool
  exitAsked : Bool
  leaseOut : Bool
  renewNow : Bool
  capUnmet : Bool
  deriving DecidableEq, Repr

/-- The ballast right after PORST_N. -/
def Ballast.reset : Ballast :=
  ⟨0, none, 0, 0, none, false, false, false, 0, 0, false, .awake, .ready, 0, false, 0, false, false, false, false, false⟩

/-- Journal payloads (Table 14.9). -/
inductive JPay where
  | grant (cls : Nat) (entries : List (Nat × Val))
  | marker (beat status : Nat)
  | outcome (status : Nat)
  | audit (record : Nat)
  | checkpoint (comp stripe pass kind : Nat)
  | failStop (record : Nat)
  | sealed (comp kw priv epoch : Nat)
  | teardown (comp step unit : Nat)
  | firmware (st : Nat) (digest : List Byte)
  | device (entries : List (Nat × Val))
  deriving DecidableEq, Repr

/-- A journal record (Table 14.8). -/
structure JRec where
  seq : Nat
  round : Nat
  group : Nat
  pay : JPay
  deriving DecidableEq, Repr

/-- The journal (R444 to R449): durable records since the snapshot, records still being programmed, the snapshot of J objects, the
audit log, pointer and areas, compaction. -/
structure Journal where
  recs : List JRec
  queue : List JRec
  next : Nat
  gen : Nat
  area : Bool
  appendB : Bool
  used : Nat
  snapSeq : Nat
  snap : Tab Val
  snapSealed : Tab (Nat × Nat × Nat)
  snapTear : Tab Nat
  audit : List Nat
  auditNext : Nat
  compact : Nat
  cutSeq : Nat
  compactFrom : Nat
  deriving DecidableEq, Repr

/-- An empty journal. -/
def Journal.reset : Journal := ⟨[], [], 1, 0, false, false, 0, 0, [], [], [], [], 0, 0, 0, 0⟩

/-- How far a boot has come (Table 14.3). -/
inductive BootStage where
  | inReset
  | rom
  | verify
  | replay
  | done
  | grounded
  deriving DecidableEq, Repr

/-- Boot, firmware and the recovery exchange (chapter 14). phyDue: the PHY is to be written once the reply to the committing message has left
(R338). lateRecord is a pilot watchdog's fail-stop record that waits for the next
restart to be journalled (Table 13.2). -/
structure Boot where
  stage : BootStage
  porstLow : Bool
  sysrstLow : Bool
  slot : List Byte
  slotSigOk : Bool
  running : List Byte
  staged : Option (List Byte)
  install : Nat
  installFrom : Nat
  claim : Option Nat
  recvTotal : Nat
  recv : List (Nat × List Byte)
  bpb0 : List Byte
  bpb1 : List Byte
  phyDue : Bool
  releasedAt : Nat
  replayAt : Nat
  memDone : Bool
  trainFrom : Nat
  memFrom : Option Nat
  thermtrip : Bool
  lpResetLow : Bool
  stopCause : Nat
  fuseTarget : Option Nat
  tamperDue : Bool
  lateRecord : Option Nat
  deriving DecidableEq, Repr

/-- Boot state right after PORST_N is asserted, with an empty boot flash. -/
def Boot.reset : Boot where
  stage := .inReset
  porstLow := true
  sysrstLow := false
  slot := []
  slotSigOk := false
  running := []
  staged := none
  install := 0
  installFrom := 0
  claim := none
  recvTotal := 0
  recv := []
  bpb0 := []
  bpb1 := []
  phyDue := false
  releasedAt := 0
  replayAt := 0
  memDone := false
  trainFrom := 0
  memFrom := none
  thermtrip := false
  lpResetLow := true
  stopCause := 0
  fuseTarget := none
  tamperDue := false
  lateRecord := none

/-- Gust (chapter 15). -/
structure Gust where
  armed : Bool
  beat : Nat
  permit : Option Nat
  disarmDue : Bool
  deriving DecidableEq, Repr

/-- A compartment's queue-depth sampling (R459): on, since when, samples, bins by facet × 272 + queue × 17 + bin. -/
structure Samp where
  on : Bool
  from_ : Nat
  samples : Nat
  bins : Tab Nat
  deriving DecidableEq, Repr

/-- JTAG instructions in force (R458). -/
inductive Tap where
  | bypass
  | idcode
  | samplePreload
  | extest
  | clamp
  | extestPulse
  | extestTrain
  deriving DecidableEq, Repr

/-- What the device puts out: packets to the host, frames, replies and messages to the management port, values on pins, results
returned to a gondola, and data read by a tool. -/
inductive Out where
  | mrd (tag addr len : Nat) (express : Bool)
  | completion (ring index : Nat) (phase : Bool) (c : Compl)
  | hostWrite (addr : Nat) (data : List Byte)
  | interrupt (addr data : Nat)
  | frame (port : Nat) (f : Frame)
  | reply (r : Reply)
  | notify (client session causes beat : Nat)
  | announce (causes : Nat)
  | recoveryAnnounce (reason received : Nat)
  | recoveryReply (client op status : Nat)
  | advertise (client : Nat)
  | echo (client : Nat) (data : List Byte)
  | board (slot op : Nat) (m : BoardMsg)
  | gondola (g status : Nat) (data : List Byte)
  | gondolaIrq (comp engine record status : Nat)
  | control (port job kind : Nat) (words : List Nat)
  | pin (name : String) (low : Bool)
  | avs (rail mv : Nat)
  | tdo (value : Nat)
  | mdio (phy reg value : Nat)
  deriving DecidableEq, Repr

/-- A write of fuses (R354 to R361). -/
inductive FuseOp where
  | lifecycle (code : Nat)
  | tamper
  | uds (draw : Nat)
  | signer (digest : List Byte)
  | revoke (i : Nat)
  deriving DecidableEq, Repr

/-- A change of the time base (R14 to R18). -/
inductive TimeOp where
  | first
  | tick
  | holdover
  | lock
  | adopt (beat port : Nat)
  | mismatch
  | clear
  deriving DecidableEq, Repr

/-- What a command asks of the memories, the fuses and the time base; done at the end of the command, in order. -/
inductive Eff where
  | mem (op : MemOp)
  | fuse (op : FuseOp)
  | time (op : TimeOp)
  deriving DecidableEq, Repr

end Sys2Proof.Machine
end

