-- ==== Sys2Proof/Machine/ObjectTable.lean ====
section
/-!
DEFINITION. The object dictionary's tables (R5, R345 and the object tables of every chapter), row by row.
-/

namespace Sys2Proof.Machine

/-- The Range column of an object table. -/
inductive Rng where
  | span (lo hi : Nat)
  | spanOr (lo hi other : Nat)
  | oneOf (vs : List Nat)
  | multiple (k lo hi : Nat)
  | pow2 (lo hi : Nat)
  | aperture
  | len (lo hi : Nat)
  deriving DecidableEq, Repr

/-- A row of an object table (R5): first index, instances, subindex, type code (Table 10.1), access bits as in R331, default,
range, J persistence, commit class (0 I, 1 B, 2 S, 3 D). -/
structure ObjRow where
  base : Nat
  count : Nat
  sub : Nat
  ty : Nat
  access : Nat
  dflt : Val
  rng : Rng
  persist : Bool
  cls : Nat
  deriving DecidableEq, Repr

/-- Table 1.2, Time-base objects. -/
def objTab1_2 : List ObjRow := [
  ⟨0x2010, 1, 0x00, 2, 0x2A, .num 7, .span 7 7, false, 0⟩,
  ⟨0x2010, 1, 0x01, 8, 0x2A, .num 0, .span 0 18446744073709551615, false, 0⟩,
  ⟨0x2010, 1, 0x02, 5, 0x2A, .num 0, .span 0 17592186044415, false, 0⟩,
  ⟨0x2010, 1, 0x03, 2, 0x2A, .num 2, .span 0 2, false, 0⟩,
  ⟨0x2010, 1, 0x04, 4, 0x2A, .num 0, .span 0 4294967295, false, 0⟩,
  ⟨0x2010, 1, 0x05, 3, 0x2F, .num 16, .span 4 64, true, 1⟩,
  ⟨0x2010, 1, 0x06, 2, 0x2A, .num 255, .spanOr 0 15 255, false, 0⟩,
  ⟨0x2010, 1, 0x07, 4, 0x2A, .num 0, .span 0 4294967295, false, 0⟩]

/-- Table 3.14, Canopy configuration objects (c = compartment 0 to 7). -/
def objTab3_14 : List ObjRow := [
  ⟨0x2300, 1, 0x00, 2, 0x2A, .num 2, .span 2 2, false, 0⟩,
  ⟨0x2300, 1, 0x01, 8, 0x2F, .num 4096, .span 64 131072, true, 1⟩,
  ⟨0x2300, 1, 0x02, 4, 0x2A, .num 0, .span 0 4294967295, false, 0⟩,
  ⟨0x2310, 8, 0x00, 2, 0x2A, .num 10, .span 10 10, false, 0⟩,
  ⟨0x2310, 8, 0x01, 10, 0x2A, .bytes [], .len 32 32, false, 0⟩,
  ⟨0x2310, 8, 0x02, 2, 0x2A, .num 0, .span 0 4, false, 0⟩,
  ⟨0x2310, 8, 0x03, 1, 0x2A, .num 0, .oneOf [0, 1], false, 0⟩,
  ⟨0x2310, 8, 0x04, 4, 0x2A, .num 0, .span 0 4294967295, false, 0⟩,
  ⟨0x2310, 8, 0x05, 4, 0x2A, .num 0, .span 0 4294967295, false, 0⟩,
  ⟨0x2310, 8, 0x06, 5, 0x2A, .num 0, .span 0 18446744073709551615, false, 0⟩,
  ⟨0x2310, 8, 0x07, 5, 0x3F, .num 0, .span 0 18446744073709551615, false, 0⟩,
  ⟨0x2310, 8, 0x08, 4, 0x2A, .num 0, .span 0 4294967295, false, 0⟩,
  ⟨0x2310, 8, 0x09, 4, 0x2A, .num 0, .span 0 4294967295, false, 0⟩,
  ⟨0x2310, 8, 0x0A, 5, 0x3F, .num 0, .span 0 18446744073709551615, false, 0⟩]

/-- Table 4.13, Tier and winch objects (d = 0 to 15, p = 0 to 7, e = 0 to 31, c = 0 to 7). -/
def objTab4_13 : List ObjRow := [
  ⟨0x4000, 1, 0x00, 2, 0x2A, .num 6, .span 6 6, false, 0⟩,
  ⟨0x4000, 1, 0x01, 5, 0x2A, .num 68719476736, .span 0 18446744073709551615, false, 0⟩,
  ⟨0x4000, 1, 0x02, 5, 0x2A, .num 824633720832, .span 0 824633720832, false, 0⟩,
  ⟨0x4000, 1, 0x03, 2, 0x2A, .num 40, .oneOf [32, 40, 48], false, 0⟩,
  ⟨0x4000, 1, 0x04, 3, 0x2F, .num 9600, .oneOf [6400, 7500, 8533, 9600], true, 0⟩,
  ⟨0x4000, 1, 0x05, 3, 0x2A, .num 0, .span 0 9600, false, 0⟩,
  ⟨0x4000, 1, 0x06, 2, 0x2F, .num 16, .span 1 64, true, 3⟩,
  ⟨0x4010, 16, 0x00, 2, 0x2A, .num 5, .span 5 5, false, 0⟩,
  ⟨0x4010, 16, 0x01, 2, 0x2A, .num 255, .spanOr 0 7 255, false, 0⟩,
  ⟨0x4010, 16, 0x02, 4, 0x3F, .num 0, .span 0 4294967295, false, 0⟩,
  ⟨0x4010, 16, 0x03, 4, 0x3F, .num 0, .span 0 4294967295, false, 0⟩,
  ⟨0x4010, 16, 0x04, 2, 0x2A, .num 1, .oneOf [1, 2, 4], false, 0⟩,
  ⟨0x4010, 16, 0x05, 2, 0x2A, .num 0, .span 0 3, false, 0⟩,
  ⟨0x4020, 8, 0x00, 2, 0x2A, .num 5, .span 5 5, false, 0⟩,
  ⟨0x4020, 8, 0x01, 2, 0x2A, .num 255, .spanOr 0 7 255, false, 0⟩,
  ⟨0x4020, 8, 0x02, 4, 0x3F, .num 0, .span 0 4294967295, false, 0⟩,
  ⟨0x4020, 8, 0x03, 4, 0x3F, .num 0, .span 0 4294967295, false, 0⟩,
  ⟨0x4020, 8, 0x04, 2, 0x2A, .num 1, .oneOf [1, 2, 4], false, 0⟩,
  ⟨0x4020, 8, 0x05, 2, 0x2A, .num 0, .span 0 4, false, 0⟩,
  ⟨0x4030, 32, 0x00, 2, 0x2A, .num 7, .span 7 7, false, 0⟩,
  ⟨0x4030, 32, 0x01, 2, 0x2A, .num 255, .spanOr 0 7 255, false, 0⟩,
  ⟨0x4030, 32, 0x02, 3, 0x2A, .num 0, .span 0 256, false, 0⟩,
  ⟨0x4030, 32, 0x03, 5, 0x3F, .num 0, .span 0 18446744073709551615, false, 0⟩,
  ⟨0x4030, 32, 0x04, 5, 0x3F, .num 0, .span 0 18446744073709551615, false, 0⟩,
  ⟨0x4030, 32, 0x05, 4, 0x3F, .num 0, .span 0 4294967295, false, 0⟩,
  ⟨0x4030, 32, 0x06, 5, 0x2A, .num 0, .span 0 18446744073709551615, false, 0⟩,
  ⟨0x4030, 32, 0x07, 4, 0x3F, .num 0, .span 0 4294967295, false, 0⟩,
  ⟨0x4060, 8, 0x00, 2, 0x2A, .num 6, .span 6 6, false, 0⟩,
  ⟨0x4060, 8, 0x01, 2, 0x3E, .num 16, .span 1 30, true, 0⟩,
  ⟨0x4060, 8, 0x02, 2, 0x3E, .num 8, .span 1 30, true, 0⟩,
  ⟨0x4060, 8, 0x03, 2, 0x3E, .num 8, .span 1 30, true, 0⟩,
  ⟨0x4060, 8, 0x04, 2, 0x2A, .num 0, .span 0 30, false, 0⟩,
  ⟨0x4060, 8, 0x05, 2, 0x2A, .num 0, .span 0 30, false, 0⟩,
  ⟨0x4060, 8, 0x06, 2, 0x2A, .num 0, .span 0 30, false, 0⟩,
  ⟨0x4070, 1, 0x00, 2, 0x2A, .num 5, .span 5 5, false, 0⟩,
  ⟨0x4070, 1, 0x01, 3, 0x2A, .num 0, .span 0 4096, false, 0⟩,
  ⟨0x4070, 1, 0x02, 4, 0x3F, .num 0, .span 0 4294967295, false, 0⟩,
  ⟨0x4070, 1, 0x03, 4, 0x3F, .num 0, .span 0 4294967295, false, 0⟩,
  ⟨0x4070, 1, 0x04, 4, 0x3F, .num 0, .span 0 4294967295, false, 0⟩,
  ⟨0x4070, 1, 0x05, 4, 0x3F, .num 0, .span 0 4294967295, false, 0⟩]

/-- Table 4.13, Tier and winch objects (d = 0 to 15, p = 0 to 7, e = 0 to 31, c = 0 to 7). -/
def objTab4_13x1 : List ObjRow := [
  ⟨0x4080, 1, 0x00, 2, 0x2A, .num 8, .span 8 8, false, 0⟩,
  ⟨0x4080, 1, 0x01, 5, 0x2A, .num 0, .span 0 18446744073709551615, false, 0⟩,
  ⟨0x4080, 1, 0x02, 5, 0x2A, .num 0, .span 0 18446744073709551615, false, 0⟩,
  ⟨0x4080, 1, 0x03, 5, 0x2A, .num 0, .span 0 18446744073709551615, false, 0⟩,
  ⟨0x4080, 1, 0x04, 5, 0x2A, .num 0, .span 0 18446744073709551615, false, 0⟩,
  ⟨0x4080, 1, 0x05, 5, 0x2A, .num 0, .span 0 18446744073709551615, false, 0⟩,
  ⟨0x4080, 1, 0x06, 5, 0x2A, .num 0, .span 0 18446744073709551615, false, 0⟩,
  ⟨0x4080, 1, 0x07, 5, 0x2A, .num 0, .span 0 18446744073709551615, false, 0⟩,
  ⟨0x4080, 1, 0x08, 5, 0x2A, .num 0, .span 0 18446744073709551615, false, 0⟩]

/-- Table 5.13, Job objects. -/
def objTab5_13 : List ObjRow := [
  ⟨0x5000, 64, 0x00, 2, 0x2A, .num 18, .span 18 18, false, 0⟩,
  ⟨0x5000, 64, 0x01, 2, 0x2A, .num 4, .span 0 5, false, 0⟩,
  ⟨0x5000, 64, 0x02, 2, 0x2A, .num 255, .spanOr 0 7 255, false, 0⟩,
  ⟨0x5000, 64, 0x03, 2, 0x2A, .num 0, .oneOf [0, 1], false, 0⟩,
  ⟨0x5000, 64, 0x04, 3, 0x2A, .num 0, .span 0 32767, false, 0⟩,
  ⟨0x5000, 64, 0x05, 3, 0x2A, .num 0, .span 0 32768, false, 0⟩,
  ⟨0x5000, 64, 0x06, 10, 0x2A, .bytes [], .len 32 32, false, 0⟩,
  ⟨0x5000, 64, 0x07, 3, 0x2A, .num 0, .span 0 65535, false, 0⟩,
  ⟨0x5000, 64, 0x08, 5, 0x2A, .num 0, .span 0 18446744073709551615, false, 0⟩,
  ⟨0x5000, 64, 0x09, 5, 0x2A, .num 0, .span 0 18446744073709551615, false, 0⟩,
  ⟨0x5000, 64, 0x0A, 8, 0x2A, .num 0, .span 1 65535, false, 0⟩,
  ⟨0x5000, 64, 0x0B, 8, 0x2A, .num 0, .span 0 65535, false, 0⟩,
  ⟨0x5000, 64, 0x0C, 2, 0x2A, .num 0, .span 1 255, false, 0⟩,
  ⟨0x5000, 64, 0x0D, 2, 0x2A, .num 0, .oneOf [0, 1], false, 0⟩,
  ⟨0x5000, 64, 0x0E, 4, 0x2A, .num 0, .span 4096 4194304, false, 0⟩,
  ⟨0x5000, 64, 0x0F, 5, 0x2A, .num 0, .span 0 68719476736, false, 0⟩,
  ⟨0x5000, 64, 0x10, 3, 0x2A, .num 0, .span 0 8192, false, 0⟩,
  ⟨0x5000, 64, 0x11, 3, 0x2A, .num 0, .span 0 16384, false, 0⟩,
  ⟨0x5000, 64, 0x12, 3, 0x2A, .num 0, .span 0 65535, false, 0⟩]

/-- Table 5.14, Catalog objects. -/
def objTab5_14 : List ObjRow := [
  ⟨0x5100, 8, 0x00, 2, 0x2A, .num 7, .span 7 7, false, 0⟩,
  ⟨0x5100, 8, 0x01, 10, 0x2A, .bytes [], .len 32 32, false, 0⟩,
  ⟨0x5100, 8, 0x02, 3, 0x2A, .num 0, .span 0 8192, false, 0⟩,
  ⟨0x5100, 8, 0x03, 10, 0x2A, .bytes [], .len 524288 524288, false, 0⟩,
  ⟨0x5100, 8, 0x04, 3, 0x2A, .num 0, .span 0 8192, false, 0⟩,
  ⟨0x5100, 8, 0x05, 5, 0x3F, .num 0, .span 0 18446744073709551615, false, 0⟩,
  ⟨0x5100, 8, 0x06, 4, 0x3F, .num 0, .span 0 4294967295, false, 0⟩,
  ⟨0x5100, 8, 0x07, 5, 0x3F, .num 0, .span 0 18446744073709551615, false, 0⟩]

/-- Table 5.15, Request policy objects. -/
def objTab5_15 : List ObjRow := [
  ⟨0x5200, 64, 0x00, 2, 0x2A, .num 3, .span 3 3, false, 0⟩,
  ⟨0x5200, 64, 0x01, 4, 0x3E, .num 0, .span 0 67108864, true, 2⟩,
  ⟨0x5200, 64, 0x02, 4, 0x3E, .num 0, .span 0 67108864, true, 2⟩,
  ⟨0x5200, 64, 0x03, 3, 0x3E, .num 16, .span 1 8192, true, 2⟩]

/-- Table 5.16, Serving counters (all rw rw rw; write 0 clears). -/
def objTab5_16 : List ObjRow := [
  ⟨0x5300, 64, 0x00, 2, 0x2A, .num 15, .span 15 15, false, 0⟩,
  ⟨0x5300, 64, 0x01, 5, 0x3F, .num 0, .span 0 18446744073709551615, false, 0⟩,
  ⟨0x5300, 64, 0x02, 5, 0x3F, .num 0, .span 0 18446744073709551615, false, 0⟩,
  ⟨0x5300, 64, 0x03, 4, 0x3F, .num 0, .span 0 4294967295, false, 0⟩,
  ⟨0x5300, 64, 0x04, 4, 0x3F, .num 0, .span 0 4294967295, false, 0⟩,
  ⟨0x5300, 64, 0x05, 4, 0x3F, .num 0, .span 0 4294967295, false, 0⟩,
  ⟨0x5300, 64, 0x06, 4, 0x3F, .num 0, .span 0 4294967295, false, 0⟩,
  ⟨0x5300, 64, 0x07, 4, 0x3F, .num 0, .span 0 4294967295, false, 0⟩,
  ⟨0x5300, 64, 0x08, 5, 0x3F, .num 0, .span 0 18446744073709551615, false, 0⟩,
  ⟨0x5300, 64, 0x09, 5, 0x3F, .num 0, .span 0 18446744073709551615, false, 0⟩,
  ⟨0x5300, 64, 0x0A, 5, 0x3F, .num 0, .span 0 18446744073709551615, false, 0⟩,
  ⟨0x5300, 64, 0x0B, 5, 0x3F, .num 0, .span 0 18446744073709551615, false, 0⟩,
  ⟨0x5300, 64, 0x0C, 4, 0x3F, .num 0, .span 0 4294967295, false, 0⟩,
  ⟨0x5300, 64, 0x0D, 5, 0x3F, .num 0, .span 0 18446744073709551615, false, 0⟩,
  ⟨0x5300, 64, 0x0E, 4, 0x3F, .num 0, .span 0 4294967295, false, 0⟩,
  ⟨0x5300, 64, 0x0F, 4, 0x3F, .num 0, .span 0 4294967295, false, 0⟩]

/-- Table 5.17, Spar and paging objects. -/
def objTab5_17 : List ObjRow := [
  ⟨0x5400, 64, 0x00, 2, 0x2A, .num 3, .span 3 3, false, 0⟩,
  ⟨0x5400, 64, 0x01, 5, 0x2A, .num 0, .span 0 18446744073709551615, false, 0⟩,
  ⟨0x5400, 64, 0x02, 4, 0x3F, .num 0, .span 0 4294967295, false, 0⟩,
  ⟨0x5400, 64, 0x03, 3, 0x2A, .num 0, .span 0 65535, false, 0⟩,
  ⟨0x5480, 1, 0x00, 2, 0x2A, .num 2, .span 2 2, false, 0⟩,
  ⟨0x5480, 1, 0x01, 4, 0x2A, .num 0, .span 0 1048576, false, 0⟩,
  ⟨0x5480, 1, 0x02, 4, 0x2A, .num 0, .span 0 1048576, false, 0⟩]

/-- Table 6.6, Expert-routing objects. -/
def objTab6_6 : List ObjRow := [
  ⟨0x5440, 64, 0x00, 2, 0x2A, .num 12, .span 12 12, false, 0⟩,
  ⟨0x5440, 64, 0x01, 5, 0x3F, .num 0, .span 0 18446744073709551615, false, 0⟩,
  ⟨0x5440, 64, 0x02, 5, 0x3F, .num 0, .span 0 18446744073709551615, false, 0⟩,
  ⟨0x5440, 64, 0x03, 3, 0x3F, .num 0, .span 0 8192, false, 0⟩,
  ⟨0x5440, 64, 0x04, 8, 0x3F, .num 0, .span 0 18446744073709551615, false, 0⟩,
  ⟨0x5440, 64, 0x05, 2, 0x2A, .num 0, .span 0 64, false, 0⟩,
  ⟨0x5440, 64, 0x06, 5, 0x3F, .num 0, .span 0 18446744073709551615, false, 0⟩,
  ⟨0x5440, 64, 0x07, 4, 0x3F, .num 0, .span 0 4294967295, false, 0⟩,
  ⟨0x5440, 64, 0x08, 4, 0x3F, .num 0, .span 0 4294967295, false, 0⟩,
  ⟨0x5440, 64, 0x09, 4, 0x3F, .num 0, .span 0 4294967295, false, 0⟩,
  ⟨0x5440, 64, 0x0A, 4, 0x3F, .num 0, .span 0 4294967295, false, 0⟩,
  ⟨0x5440, 64, 0x0B, 4, 0x3F, .num 0, .span 0 4294967295, false, 0⟩,
  ⟨0x5440, 64, 0x0C, 5, 0x2A, .num 0, .span 0 18446744073709551615, false, 0⟩]

/-- Table 7.4, Guarantee objects (j = job 0 to 63). -/
def objTab7_4 : List ObjRow := [
  ⟨0x54C0, 64, 0x00, 2, 0x2A, .num 5, .span 5 5, false, 0⟩,
  ⟨0x54C0, 64, 0x01, 2, 0x3E, .num 0, .span 0 3, false, 2⟩,
  ⟨0x54C0, 64, 0x02, 10, 0x2A, .bytes [], .len 1048576 1048576, false, 0⟩,
  ⟨0x54C0, 64, 0x03, 4, 0x3F, .num 0, .span 0 4294967295, false, 0⟩,
  ⟨0x54C0, 64, 0x04, 4, 0x3F, .num 0, .span 0 4294967295, false, 0⟩,
  ⟨0x54C0, 64, 0x05, 8, 0x3F, .num 0, .span 0 65535, false, 0⟩]

/-- Table 8.10, Placement objects. -/
def objTab8_10 : List ObjRow := [
  ⟨0x2000, 1, 0x00, 2, 0x2A, .num 8, .span 8 8, false, 0⟩,
  ⟨0x2000, 1, 0x01, 2, 0x2F, .num 255, .spanOr 0 31 255, false, 0⟩,
  ⟨0x2000, 1, 0x02, 2, 0x2F, .num 255, .spanOr 0 31 255, false, 0⟩,
  ⟨0x2000, 1, 0x03, 2, 0x2F, .num 255, .spanOr 0 31 255, false, 0⟩,
  ⟨0x2000, 1, 0x04, 3, 0x2F, .num 65535, .spanOr 0 4095 65535, false, 0⟩,
  ⟨0x2000, 1, 0x05, 2, 0x2F, .num 255, .spanOr 0 7 255, false, 0⟩,
  ⟨0x2000, 1, 0x06, 10, 0x2F, .bytes [], .len 512 512, false, 0⟩,
  ⟨0x2000, 1, 0x07, 3, 0x2A, .num 66, .oneOf [0, 66], false, 0⟩,
  ⟨0x2000, 1, 0x08, 3, 0x2A, .num 0, .span 0 65535, false, 0⟩]

/-- Table 8.11, Port objects (0x2200 + p). -/
def objTab8_11 : List ObjRow := [
  ⟨0x2200, 16, 0x00, 2, 0x2A, .num 21, .span 21 21, false, 0⟩,
  ⟨0x2200, 16, 0x01, 2, 0x2A, .num 0, .span 0 7, false, 0⟩,
  ⟨0x2200, 16, 0x02, 2, 0x2A, .num 4, .span 0 4, false, 0⟩,
  ⟨0x2200, 16, 0x03, 5, 0x2A, .num 0, .span 0 18446744073709551615, false, 0⟩,
  ⟨0x2200, 16, 0x04, 5, 0x2A, .num 0, .span 0 18446744073709551615, false, 0⟩,
  ⟨0x2200, 16, 0x05, 2, 0x2A, .num 0, .oneOf [0, 1, 4, 8, 16], false, 0⟩,
  ⟨0x2200, 16, 0x06, 4, 0x3F, .num 0, .span 0 4294967295, false, 0⟩,
  ⟨0x2200, 16, 0x07, 2, 0x2A, .num 0, .span 0 255, false, 0⟩,
  ⟨0x2200, 16, 0x08, 6, 0x2A, .num 0, .span 0 4294967295, false, 0⟩,
  ⟨0x2200, 16, 0x09, 4, 0x3F, .num 0, .span 0 4294967295, false, 0⟩,
  ⟨0x2200, 16, 0x0A, 6, 0x2A, .num 0, .span 0 4294967295, false, 0⟩,
  ⟨0x2200, 16, 0x0B, 5, 0x3F, .num 0, .span 0 18446744073709551615, false, 0⟩,
  ⟨0x2200, 16, 0x0C, 5, 0x3F, .num 0, .span 0 18446744073709551615, false, 0⟩,
  ⟨0x2200, 16, 0x0D, 5, 0x3F, .num 0, .span 0 18446744073709551615, false, 0⟩,
  ⟨0x2200, 16, 0x0E, 5, 0x3F, .num 0, .span 0 18446744073709551615, false, 0⟩,
  ⟨0x2200, 16, 0x0F, 4, 0x3F, .num 0, .span 0 4294967295, false, 0⟩,
  ⟨0x2200, 16, 0x10, 4, 0x3F, .num 0, .span 0 4294967295, false, 0⟩,
  ⟨0x2200, 16, 0x11, 4, 0x3F, .num 0, .span 0 4294967295, false, 0⟩,
  ⟨0x2200, 16, 0x12, 4, 0x2A, .num 0, .span 0 4294967295, false, 0⟩,
  ⟨0x2200, 16, 0x13, 2, 0x2A, .num 0, .span 0 15, false, 0⟩,
  ⟨0x2200, 16, 0x14, 10, 0x2A, .bytes [], .len 512 512, false, 0⟩,
  ⟨0x2200, 16, 0x15, 1, 0x2F, .num 1, .oneOf [0, 1], true, 0⟩]

/-- Table 8.12, Confidentiality and pass objects. -/
def objTab8_12 : List ObjRow := [
  ⟨0x2030, 8, 0x00, 2, 0x2A, .num 2, .span 2 2, false, 0⟩,
  ⟨0x2030, 8, 0x01, 1, 0x2F, .num 0, .oneOf [0, 1], true, 0⟩,
  ⟨0x2030, 8, 0x02, 4, 0x3F, .num 0, .span 0 4294967295, false, 0⟩,
  ⟨0x2100, 1, 0x00, 2, 0x2A, .num 4, .span 4 4, false, 0⟩,
  ⟨0x2100, 1, 0x01, 10, 0x3E, .bytes [], .len 0 16384, false, 1⟩,
  ⟨0x2100, 1, 0x02, 3, 0x2A, .num 0, .span 0 1024, false, 0⟩,
  ⟨0x2100, 1, 0x03, 3, 0x3F, .num 0, .span 0 1024, false, 0⟩,
  ⟨0x2100, 1, 0x04, 4, 0x3F, .num 0, .span 0 4294967295, false, 0⟩]

/-- Table 8.13, Job Bridle objects (0x2280 + j). -/
def objTab8_13 : List ObjRow := [
  ⟨0x2280, 64, 0x00, 2, 0x2A, .num 4, .span 4 4, false, 0⟩,
  ⟨0x2280, 64, 0x01, 3, 0x2A, .num 0, .span 0 1024, false, 0⟩,
  ⟨0x2280, 64, 0x02, 5, 0x2A, .num 0, .span 0 18446744073709551615, false, 0⟩,
  ⟨0x2280, 64, 0x03, 4, 0x2A, .num 0, .span 0 4294967295, false, 0⟩,
  ⟨0x2280, 64, 0x04, 4, 0x2A, .num 0, .span 0 4294967295, false, 0⟩]

/-- Table 9.14, Tether link objects. -/
def objTab9_14 : List ObjRow := [
  ⟨0x2400, 1, 0x00, 2, 0x2A, .num 14, .span 14 14, false, 0⟩,
  ⟨0x2400, 1, 0x01, 2, 0x2A, .num 0, .span 0 4, false, 0⟩,
  ⟨0x2400, 1, 0x02, 2, 0x2A, .num 0, .oneOf [0, 1, 4, 8], false, 0⟩,
  ⟨0x2400, 1, 0x03, 4, 0x3F, .num 0, .span 0 4294967295, false, 0⟩,
  ⟨0x2400, 1, 0x04, 5, 0x3F, .num 0, .span 0 18446744073709551615, false, 0⟩,
  ⟨0x2400, 1, 0x05, 5, 0x3F, .num 0, .span 0 18446744073709551615, false, 0⟩,
  ⟨0x2400, 1, 0x06, 5, 0x3F, .num 0, .span 0 18446744073709551615, false, 0⟩,
  ⟨0x2400, 1, 0x07, 5, 0x3F, .num 0, .span 0 18446744073709551615, false, 0⟩,
  ⟨0x2400, 1, 0x08, 4, 0x3F, .num 0, .span 0 4294967295, false, 0⟩,
  ⟨0x2400, 1, 0x09, 4, 0x3F, .num 0, .span 0 4294967295, false, 0⟩,
  ⟨0x2400, 1, 0x0A, 4, 0x2A, .num 0, .span 0 65536, false, 0⟩,
  ⟨0x2400, 1, 0x0B, 4, 0x3F, .num 0, .span 0 65536, false, 0⟩,
  ⟨0x2400, 1, 0x0C, 4, 0x3F, .num 0, .span 0 4294967295, false, 0⟩,
  ⟨0x2400, 1, 0x0D, 4, 0x3F, .num 0, .span 0 4294967295, false, 0⟩,
  ⟨0x2400, 1, 0x0E, 4, 0x3F, .num 0, .span 0 4294967295, false, 0⟩]

/-- Table 9.15, Ring objects (0x2410 + r). -/
def objTab9_15 : List ObjRow := [
  ⟨0x2410, 64, 0x00, 2, 0x2A, .num 14, .span 14 14, false, 0⟩,
  ⟨0x2410, 64, 0x01, 5, 0x3E, .num 0, .multiple 4096 0 18446744073709551615, false, 0⟩,
  ⟨0x2410, 64, 0x02, 3, 0x3E, .num 4096, .pow2 16 4096, false, 0⟩,
  ⟨0x2410, 64, 0x03, 5, 0x3E, .num 0, .multiple 4096 0 18446744073709551615, false, 0⟩,
  ⟨0x2410, 64, 0x04, 4, 0x3E, .num 4096, .pow2 64 65536, false, 0⟩,
  ⟨0x2410, 64, 0x05, 5, 0x3E, .num 0, .multiple 4 0 18446744073709551615, false, 0⟩,
  ⟨0x2410, 64, 0x06, 4, 0x3E, .num 0, .span 0 4294967295, false, 0⟩,
  ⟨0x2410, 64, 0x07, 1, 0x3E, .num 0, .oneOf [0, 1], false, 0⟩,
  ⟨0x2410, 64, 0x08, 2, 0x2F, .num 0, .span 0 7, true, 0⟩,
  ⟨0x2410, 64, 0x09, 1, 0x2F, .num 0, .oneOf [0, 1], true, 0⟩,
  ⟨0x2410, 64, 0x0A, 2, 0x2A, .num 0, .span 0 2, false, 0⟩,
  ⟨0x2410, 64, 0x0B, 3, 0x2A, .num 0, .span 0 4095, false, 0⟩,
  ⟨0x2410, 64, 0x0C, 4, 0x2A, .num 0, .span 0 65535, false, 0⟩,
  ⟨0x2410, 64, 0x0D, 5, 0x3F, .num 0, .span 0 18446744073709551615, false, 0⟩,
  ⟨0x2410, 64, 0x0E, 4, 0x2A, .num 0, .span 0 65536, false, 0⟩]

/-- Table 9.16, Aperture objects (0x2460 + c). -/
def objTab9_16 : List ObjRow := [
  ⟨0x2460, 8, 0x00, 2, 0x2A, .num 2, .span 2 2, false, 0⟩,
  ⟨0x2460, 8, 0x01, 5, 0x3E, .num 0, .aperture, false, 0⟩,
  ⟨0x2460, 8, 0x02, 4, 0x3F, .num 0, .span 0 4294967295, false, 0⟩]

/-- Table 10.9, Identity and alert objects. -/
def objTab10_9 : List ObjRow := [
  ⟨0x1000, 1, 0x00, 2, 0x2A, .num 12, .span 12 12, false, 0⟩,
  ⟨0x1000, 1, 0x01, 5, 0x2A, .num 0, .span 0 18446744073709551615, false, 0⟩,
  ⟨0x1000, 1, 0x02, 9, 0x2A, .bytes [67, 105, 117, 108, 117, 110, 101, 32, 77, 105, 99, 114, 111, 115, 121, 115, 116, 101, 109, 115], .len 0 64, false, 0⟩,
  ⟨0x1000, 1, 0x03, 9, 0x2A, .bytes [67, 70, 84, 55, 54, 50, 48], .len 0 64, false, 0⟩,
  ⟨0x1000, 1, 0x04, 9, 0x2A, .bytes [65, 49], .len 0 64, false, 0⟩,
  ⟨0x1000, 1, 0x05, 9, 0x2A, .bytes [], .len 0 64, false, 0⟩,
  ⟨0x1000, 1, 0x06, 2, 0x2A, .num 1, .span 1 1, false, 0⟩,
  ⟨0x1000, 1, 0x07, 2, 0x2A, .num 0, .span 1 8, false, 0⟩,
  ⟨0x1000, 1, 0x08, 5, 0x2A, .num 0, .span 0 18446744073709551615, false, 0⟩,
  ⟨0x1000, 1, 0x09, 4, 0x3F, .num 0, .span 0 4294967295, false, 0⟩,
  ⟨0x1000, 1, 0x0A, 4, 0x2F, .num 1023, .span 0 1023, true, 0⟩,
  ⟨0x1000, 1, 0x0B, 9, 0x2F, .bytes [], .len 0 64, true, 0⟩,
  ⟨0x1000, 1, 0x0C, 4, 0x3F, .num 0, .span 0 4294967295, false, 0⟩]

/-- Table 10.10, Commit-group objects. -/
def objTab10_10 : List ObjRow := [
  ⟨0x1100, 1, 0x00, 2, 0x2A, .num 8, .span 8 8, false, 0⟩,
  ⟨0x1100, 1, 0x01, 2, 0x2A, .num 0, .span 0 32, false, 0⟩,
  ⟨0x1100, 1, 0x02, 4, 0x2A, .num 0, .span 0 33554432, false, 0⟩,
  ⟨0x1100, 1, 0x03, 5, 0x3F, .num 0, .span 0 18446744073709551615, false, 0⟩,
  ⟨0x1100, 1, 0x04, 4, 0x3F, .num 0, .span 0 4294967295, false, 0⟩,
  ⟨0x1100, 1, 0x05, 4, 0x3F, .num 0, .span 0 4294967295, false, 0⟩,
  ⟨0x1100, 1, 0x06, 5, 0x2A, .num 0, .span 0 18446744073709551615, false, 0⟩,
  ⟨0x1100, 1, 0x07, 2, 0x2F, .num 8, .span 1 64, true, 0⟩,
  ⟨0x1100, 1, 0x08, 4, 0x2A, .num 0, .span 0 4294967295, false, 0⟩]

/-- Table 10.11, Management-port objects. -/
def objTab10_11 : List ObjRow := [
  ⟨0x1200, 1, 0x00, 2, 0x2A, .num 14, .span 14 14, false, 0⟩,
  ⟨0x1200, 1, 0x01, 1, 0x2F, .num 0, .oneOf [0, 1], true, 0⟩,
  ⟨0x1200, 1, 0x02, 2, 0x2F, .num 255, .span 0 255, true, 0⟩,
  ⟨0x1200, 1, 0x03, 2, 0x2F, .num 8, .span 1 255, true, 0⟩,
  ⟨0x1200, 1, 0x04, 2, 0x2F, .num 32, .span 1 255, true, 0⟩,
  ⟨0x1200, 1, 0x05, 2, 0x2F, .num 0, .span 0 255, true, 0⟩,
  ⟨0x1200, 1, 0x06, 2, 0x2F, .num 128, .span 0 255, true, 0⟩,
  ⟨0x1200, 1, 0x07, 10, 0x2A, .bytes [], .len 16 16, false, 0⟩,
  ⟨0x1200, 1, 0x08, 5, 0x3F, .num 0, .span 0 18446744073709551615, false, 0⟩,
  ⟨0x1200, 1, 0x09, 5, 0x3F, .num 0, .span 0 18446744073709551615, false, 0⟩,
  ⟨0x1200, 1, 0x0A, 2, 0x2A, .num 0, .span 0 4, false, 0⟩,
  ⟨0x1200, 1, 0x0B, 4, 0x3F, .num 0, .span 0 4294967295, false, 0⟩,
  ⟨0x1200, 1, 0x0C, 4, 0x3F, .num 0, .span 0 4294967295, false, 0⟩,
  ⟨0x1200, 1, 0x0D, 4, 0x3F, .num 0, .span 0 4294967295, false, 0⟩,
  ⟨0x1200, 1, 0x0E, 2, 0x2F, .num 0, .span 0 31, true, 0⟩]

/-- Table 10.12, Session objects. -/
def objTab10_12 : List ObjRow := [
  ⟨0x1210, 1, 0x00, 2, 0x2A, .num 7, .span 7 7, false, 0⟩,
  ⟨0x1210, 1, 0x01, 2, 0x2A, .num 0, .span 0 16, false, 0⟩,
  ⟨0x1210, 1, 0x02, 10, 0x2A, .bytes [], .len 512 512, false, 0⟩,
  ⟨0x1210, 1, 0x03, 2, 0x2F, .num 32, .span 2 255, true, 0⟩,
  ⟨0x1210, 1, 0x04, 4, 0x3F, .num 0, .span 0 4294967295, false, 0⟩,
  ⟨0x1210, 1, 0x05, 4, 0x3F, .num 0, .span 0 4294967295, false, 0⟩,
  ⟨0x1210, 1, 0x06, 4, 0x3F, .num 0, .span 0 4294967295, false, 0⟩,
  ⟨0x1210, 1, 0x07, 4, 0x2A, .num 0, .span 0 4294967295, false, 0⟩]

/-- Table 10.13, Rack-manager objects. -/
def objTab10_13 : List ObjRow := [
  ⟨0x1220, 1, 0x00, 2, 0x2A, .num 5, .span 5 5, false, 0⟩,
  ⟨0x1220, 1, 0x01, 2, 0x2F, .num 8, .span 1 255, true, 0⟩,
  ⟨0x1220, 1, 0x02, 2, 0x2A, .num 2, .span 0 2, false, 0⟩,
  ⟨0x1220, 1, 0x03, 5, 0x2A, .num 0, .span 0 18446744073709551615, false, 0⟩,
  ⟨0x1220, 1, 0x04, 5, 0x2A, .num 0, .span 0 18446744073709551615, false, 0⟩,
  ⟨0x1220, 1, 0x05, 4, 0x3F, .num 0, .span 0 4294967295, false, 0⟩]

/-- Table 11.12, Life-cycle, role, audit, attestation, permit and maker objects. -/
def objTab11_12 : List ObjRow := [
  ⟨0x1300, 1, 0x00, 2, 0x2A, .num 6, .span 6 6, false, 0⟩,
  ⟨0x1300, 1, 0x01, 2, 0x2A, .num 0, .span 0 4, false, 0⟩,
  ⟨0x1300, 1, 0x02, 2, 0x05, .num 0, .span 0 4, false, 0⟩,
  ⟨0x1300, 1, 0x03, 2, 0x2A, .num 0, .span 0 16, false, 0⟩,
  ⟨0x1300, 1, 0x04, 2, 0x2A, .num 0, .span 0 32, false, 0⟩,
  ⟨0x1300, 1, 0x05, 2, 0x2A, .num 0, .span 0 5, false, 0⟩,
  ⟨0x1300, 1, 0x06, 1, 0x2A, .num 0, .oneOf [0, 1], false, 0⟩,
  ⟨0x1310, 1, 0x00, 2, 0x2A, .num 8, .span 8 8, false, 0⟩,
  ⟨0x1310, 1, 0x01, 10, 0x0F, .bytes [], .len 128 128, true, 0⟩,
  ⟨0x1310, 1, 0x02, 10, 0x0E, .bytes [], .len 256 256, true, 0⟩,
  ⟨0x1310, 1, 0x03, 5, 0x0E, .num 0, .span 0 18446744073709551615, true, 0⟩,
  ⟨0x1310, 1, 0x04, 5, 0x0F, .num 0, .span 0 18446744073709551615, true, 0⟩,
  ⟨0x1310, 1, 0x05, 5, 0x0E, .num 0, .span 0 18446744073709551615, true, 0⟩,
  ⟨0x1310, 1, 0x06, 10, 0x2A, .bytes [], .len 160 160, false, 0⟩,
  ⟨0x1310, 1, 0x07, 10, 0x05, .bytes [], .len 32 32, false, 0⟩,
  ⟨0x1310, 1, 0x08, 2, 0x05, .num 0, .span 0 3, false, 0⟩,
  ⟨0x1320, 1, 0x00, 2, 0x2A, .num 2, .span 2 2, false, 0⟩,
  ⟨0x1320, 1, 0x01, 5, 0x0A, .num 0, .span 0 18446744073709551615, true, 0⟩,
  ⟨0x1320, 1, 0x02, 10, 0x0A, .bytes [], .len 0 262144, true, 0⟩,
  ⟨0x1330, 1, 0x00, 2, 0x2A, .num 5, .span 5 5, false, 0⟩,
  ⟨0x1330, 1, 0x01, 10, 0x3F, .bytes [], .len 32 32, false, 0⟩,
  ⟨0x1330, 1, 0x02, 10, 0x2A, .bytes [], .len 1298 1298, false, 0⟩,
  ⟨0x1330, 1, 0x03, 10, 0x2B, .bytes [], .len 258 258, true, 0⟩,
  ⟨0x1330, 1, 0x04, 10, 0x2A, .bytes [], .len 258 258, false, 0⟩,
  ⟨0x1330, 1, 0x05, 10, 0x2A, .bytes [], .len 32 32, false, 0⟩,
  ⟨0x1340, 1, 0x00, 2, 0x2A, .num 4, .span 4 4, false, 0⟩,
  ⟨0x1340, 1, 0x01, 10, 0x04, .bytes [], .len 242 242, false, 0⟩,
  ⟨0x1340, 1, 0x02, 10, 0x0A, .bytes [], .len 192 192, false, 0⟩,
  ⟨0x1340, 1, 0x03, 5, 0x2A, .num 0, .span 0 18446744073709551615, false, 0⟩,
  ⟨0x1340, 1, 0x04, 1, 0x04, .num 0, .span 1 1, false, 0⟩,
  ⟨0x8000, 1, 0x00, 2, 0x2A, .num 4, .span 4 4, false, 0⟩,
  ⟨0x8000, 1, 0x01, 10, 0x03, .bytes [], .len 0 65536, true, 3⟩,
  ⟨0x8000, 1, 0x02, 10, 0x02, .bytes [], .len 4096 4096, false, 0⟩,
  ⟨0x8000, 1, 0x03, 1, 0x01, .num 0, .span 1 1, false, 0⟩,
  ⟨0x8000, 1, 0x04, 10, 0x02, .bytes [], .len 0 16777216, false, 0⟩]

/-- Table 11.13, Compartment, key-slot and scrub objects. -/
def objTab11_13 : List ObjRow := [
  ⟨0x4100, 8, 0x00, 2, 0x2A, .num 20, .span 20 20, false, 0⟩,
  ⟨0x4100, 8, 0x01, 2, 0x2A, .num 0, .span 0 3, true, 0⟩,
  ⟨0x4100, 8, 0x02, 2, 0x2E, .num 0, .span 0 255, true, 0⟩,
  ⟨0x4100, 8, 0x03, 3, 0x2E, .num 0, .span 0 65535, true, 0⟩,
  ⟨0x4100, 8, 0x04, 2, 0x2E, .num 0, .span 0 255, true, 0⟩,
  ⟨0x4100, 8, 0x05, 4, 0x2E, .num 0, .span 0 4294967295, true, 0⟩,
  ⟨0x4100, 8, 0x06, 5, 0x2E, .num 0, .span 0 18446744073709551615, true, 0⟩,
  ⟨0x4100, 8, 0x07, 1, 0x2E, .num 0, .span 1 1, true, 0⟩,
  ⟨0x4100, 8, 0x08, 2, 0x2A, .num 0, .span 0 255, true, 0⟩,
  ⟨0x4100, 8, 0x09, 10, 0x2A, .bytes [], .len 56 56, true, 0⟩,
  ⟨0x4100, 8, 0x0A, 10, 0x2E, .bytes [], .len 56 56, true, 0⟩,
  ⟨0x4100, 8, 0x0B, 5, 0x2A, .num 0, .span 0 18446744073709551615, false, 0⟩,
  ⟨0x4100, 8, 0x0C, 2, 0x2A, .num 0, .span 0 3, false, 0⟩,
  ⟨0x4100, 8, 0x0D, 10, 0x2E, .bytes [], .len 0 640, true, 0⟩,
  ⟨0x4100, 8, 0x0E, 11, 0x14, .bytes [], .len 72 72, false, 0⟩,
  ⟨0x4100, 8, 0x0F, 11, 0x14, .bytes [], .len 72 72, false, 0⟩,
  ⟨0x4100, 8, 0x10, 3, 0x2A, .num 0, .span 0 16384, false, 0⟩,
  ⟨0x4100, 8, 0x11, 3, 0x2A, .num 0, .span 0 32767, true, 0⟩,
  ⟨0x4100, 8, 0x12, 10, 0x2A, .bytes [], .len 32 32, true, 0⟩,
  ⟨0x4100, 8, 0x13, 10, 0x0E, .bytes [], .len 0 262136, false, 0⟩,
  ⟨0x4100, 8, 0x14, 3, 0x2A, .num 0, .span 0 65535, true, 0⟩,
  ⟨0x4140, 64, 0x00, 2, 0x2A, .num 3, .span 3 3, false, 0⟩,
  ⟨0x4140, 64, 0x01, 2, 0x2A, .num 255, .spanOr 0 7 255, false, 0⟩,
  ⟨0x4140, 64, 0x02, 2, 0x2A, .num 0, .span 0 5, false, 0⟩,
  ⟨0x4140, 64, 0x03, 5, 0x2A, .num 0, .span 0 18446744073709551615, false, 0⟩,
  ⟨0x4180, 1, 0x00, 2, 0x2A, .num 4, .span 4 4, false, 0⟩,
  ⟨0x4180, 1, 0x01, 4, 0x3F, .num 0, .span 0 4294967295, true, 0⟩,
  ⟨0x4180, 1, 0x02, 4, 0x3F, .num 0, .span 0 4294967295, true, 0⟩,
  ⟨0x4180, 1, 0x03, 4, 0x2A, .num 0, .span 0 4294967295, true, 0⟩,
  ⟨0x4180, 1, 0x04, 4, 0x3F, .num 0, .span 0 4294967295, false, 0⟩]

/-- Table 12.4, Profile objects. -/
def objTab12_4 : List ObjRow := [
  ⟨0x3000, 1, 0x00, 2, 0x2A, .num 4, .span 4 4, false, 0⟩,
  ⟨0x3000, 1, 0x01, 2, 0x2F, .num 0, .span 0 3, true, 3⟩,
  ⟨0x3000, 1, 0x02, 2, 0x2A, .num 0, .span 0 3, false, 0⟩,
  ⟨0x3000, 1, 0x03, 4, 0x3F, .num 0, .span 0 4294967295, false, 0⟩,
  ⟨0x3000, 1, 0x04, 4, 0x2A, .num 0, .span 0 4294967295, false, 0⟩]

/-- Table 12.5, Regulator objects. -/
def objTab12_5 : List ObjRow := [
  ⟨0x3500, 1, 0x00, 2, 0x2A, .num 13, .span 13 13, false, 0⟩,
  ⟨0x3500, 1, 0x01, 2, 0x2F, .num 20, .oneOf [5, 10, 20], true, 3⟩,
  ⟨0x3500, 1, 0x02, 3, 0x2A, .num 0, .span 450 800, false, 0⟩,
  ⟨0x3500, 1, 0x03, 3, 0x2A, .num 0, .span 550 800, false, 0⟩,
  ⟨0x3500, 1, 0x04, 3, 0x2A, .num 0, .span 0 65535, false, 0⟩,
  ⟨0x3500, 1, 0x05, 3, 0x2A, .num 0, .span 0 65535, false, 0⟩,
  ⟨0x3500, 1, 0x06, 3, 0x2A, .num 0, .span 0 65535, false, 0⟩,
  ⟨0x3500, 1, 0x07, 3, 0x2A, .num 0, .span 0 65535, false, 0⟩,
  ⟨0x3500, 1, 0x08, 3, 0x2A, .num 0, .span 0 65535, false, 0⟩,
  ⟨0x3500, 1, 0x09, 2, 0x2F, .num 64, .span 8 119, true, 3⟩,
  ⟨0x3500, 1, 0x0A, 2, 0x2F, .num 65, .span 8 119, true, 3⟩,
  ⟨0x3500, 1, 0x0B, 4, 0x2A, .num 0, .span 0 4294967295, false, 0⟩,
  ⟨0x3500, 1, 0x0C, 4, 0x2F, .num 0, .span 0 4294967295, false, 0⟩,
  ⟨0x3500, 1, 0x0D, 6, 0x2A, .num 0, .span 0 4294967295, false, 0⟩]

/-- Table 12.6, Cap objects. -/
def objTab12_6 : List ObjRow := [
  ⟨0x3100, 1, 0x00, 2, 0x2A, .num 14, .span 14 14, false, 0⟩,
  ⟨0x3100, 1, 0x01, 3, 0x3E, .num 450, .span 150 450, true, 0⟩,
  ⟨0x3100, 1, 0x02, 3, 0x2A, .num 450, .span 150 450, false, 0⟩,
  ⟨0x3100, 1, 0x03, 3, 0x2F, .num 30, .span 1 1024, true, 0⟩,
  ⟨0x3100, 1, 0x04, 1, 0x14, .num 0, .span 1 1, false, 3⟩,
  ⟨0x3100, 1, 0x05, 3, 0x2A, .num 30, .span 0 1024, false, 0⟩,
  ⟨0x3100, 1, 0x06, 3, 0x2F, .num 300, .span 150 450, true, 0⟩,
  ⟨0x3100, 1, 0x07, 3, 0x2F, .num 450, .span 150 450, true, 0⟩,
  ⟨0x3100, 1, 0x08, 2, 0x2A, .num 0, .span 0 15, false, 0⟩,
  ⟨0x3100, 1, 0x09, 2, 0x2A, .num 0, .span 0 15, false, 0⟩,
  ⟨0x3100, 1, 0x0A, 2, 0x2A, .num 0, .span 0 15, false, 0⟩,
  ⟨0x3100, 1, 0x0B, 3, 0x2A, .num 0, .span 0 65535, false, 0⟩,
  ⟨0x3100, 1, 0x0C, 4, 0x3F, .num 0, .span 0 4294967295, false, 0⟩,
  ⟨0x3100, 1, 0x0D, 4, 0x3F, .num 0, .span 0 4294967295, false, 0⟩,
  ⟨0x3100, 1, 0x0E, 5, 0x3F, .num 0, .span 0 18446744073709551615, false, 0⟩]

/-- Table 12.9, Brake and thermal objects. -/
def objTab12_9 : List ObjRow := [
  ⟨0x3200, 1, 0x00, 2, 0x2A, .num 5, .span 5 5, false, 0⟩,
  ⟨0x3200, 1, 0x01, 2, 0x2A, .num 0, .span 0 2, false, 0⟩,
  ⟨0x3200, 1, 0x02, 4, 0x3F, .num 0, .span 0 4294967295, false, 0⟩,
  ⟨0x3200, 1, 0x03, 8, 0x2A, .num 0, .span 0 18446744073709551615, false, 0⟩,
  ⟨0x3200, 1, 0x04, 8, 0x2F, .num 64, .span 16 4096, true, 0⟩,
  ⟨0x3200, 1, 0x05, 8, 0x3F, .num 0, .span 0 18446744073709551615, false, 0⟩,
  ⟨0x3300, 1, 0x00, 2, 0x2A, .num 6, .span 6 6, false, 0⟩,
  ⟨0x3300, 1, 0x01, 2, 0x2F, .num 100, .span 80 100, true, 0⟩,
  ⟨0x3300, 1, 0x02, 7, 0x2A, .num 0, .span 0 4294967295, false, 0⟩,
  ⟨0x3300, 1, 0x03, 2, 0x2A, .num 0, .span 0 79, false, 0⟩,
  ⟨0x3300, 1, 0x04, 10, 0x2A, .bytes [], .len 320 320, false, 0⟩,
  ⟨0x3300, 1, 0x05, 2, 0x2A, .num 115, .span 115 115, false, 0⟩,
  ⟨0x3300, 1, 0x06, 4, 0x3F, .num 0, .span 0 4294967295, false, 0⟩]

/-- Table 12.12, Moored objects (j = job 0 to 63). -/
def objTab12_12 : List ObjRow := [
  ⟨0x3400, 1, 0x00, 2, 0x2A, .num 7, .span 7 7, false, 0⟩,
  ⟨0x3400, 1, 0x01, 1, 0x3E, .num 0, .oneOf [0, 1], false, 1⟩,
  ⟨0x3400, 1, 0x02, 2, 0x2A, .num 0, .span 0 3, false, 0⟩,
  ⟨0x3400, 1, 0x03, 3, 0x2A, .num 0, .oneOf [0, 32], false, 0⟩,
  ⟨0x3400, 1, 0x04, 4, 0x2A, .num 0, .span 0 4000, false, 0⟩,
  ⟨0x3400, 1, 0x05, 4, 0x2A, .num 0, .span 0 12000, false, 0⟩,
  ⟨0x3400, 1, 0x06, 4, 0x3F, .num 0, .span 0 4294967295, false, 0⟩,
  ⟨0x3400, 1, 0x07, 3, 0x2A, .num 0, .span 0 1024, false, 0⟩,
  ⟨0x3440, 64, 0x00, 2, 0x2A, .num 1, .span 1 1, false, 0⟩,
  ⟨0x3440, 64, 0x01, 10, 0x3E, .bytes [], .len 128 128, false, 2⟩]

/-- Table 13.7, Fail-stop objects. -/
def objTab13_7 : List ObjRow := [
  ⟨0x1020, 1, 0x00, 2, 0x2A, .num 4, .span 4 4, false, 0⟩,
  ⟨0x1020, 1, 0x01, 4, 0x2F, .num 0, .span 0 4294967295, true, 0⟩,
  ⟨0x1020, 1, 0x02, 10, 0x2A, .bytes [], .len 64 64, true, 0⟩,
  ⟨0x1020, 1, 0x03, 10, 0x2A, .bytes [], .len 0 512, true, 0⟩,
  ⟨0x1020, 1, 0x04, 5, 0x3F, .num 0, .span 0 18446744073709551615, false, 0⟩]

/-- Table 13.8, Protection-group objects (c = compartment 0 to 7). -/
def objTab13_8 : List ObjRow := [
  ⟨0x4200, 8, 0x00, 2, 0x2A, .num 12, .span 12 12, false, 0⟩,
  ⟨0x4200, 8, 0x01, 10, 0x2F, .bytes [], .len 128 128, true, 0⟩,
  ⟨0x4200, 8, 0x02, 2, 0x2F, .num 0, .spanOr 2 16 0, true, 0⟩,
  ⟨0x4200, 8, 0x03, 2, 0x2F, .num 1, .oneOf [1, 2], true, 0⟩,
  ⟨0x4200, 8, 0x04, 2, 0x2F, .num 0, .span 0 15, true, 0⟩,
  ⟨0x4200, 8, 0x05, 5, 0x2F, .num 0, .multiple 4194304 0 18446744073709551615, true, 0⟩,
  ⟨0x4200, 8, 0x06, 5, 0x2F, .num 0, .multiple 4194304 0 18446744073709551615, true, 0⟩,
  ⟨0x4200, 8, 0x07, 2, 0x2A, .num 0, .span 0 3, false, 0⟩,
  ⟨0x4200, 8, 0x08, 3, 0x3F, .num 700, .span 100 16000, true, 0⟩,
  ⟨0x4200, 8, 0x09, 4, 0x2A, .num 0, .span 0 4294967295, true, 0⟩,
  ⟨0x4200, 8, 0x0A, 4, 0x2A, .num 0, .span 0 4294967295, false, 0⟩,
  ⟨0x4200, 8, 0x0B, 4, 0x3F, .num 0, .span 0 4294967295, true, 0⟩,
  ⟨0x4200, 8, 0x0C, 5, 0x3F, .num 0, .span 0 18446744073709551615, false, 0⟩]

/-- Table 13.9, Ripcord job objects (j = job 0 to 63). -/
def objTab13_9 : List ObjRow := [
  ⟨0x5340, 64, 0x00, 2, 0x2A, .num 13, .span 13 13, false, 0⟩,
  ⟨0x5340, 64, 0x01, 2, 0x3E, .num 0, .oneOf [0, 1], true, 2⟩,
  ⟨0x5340, 64, 0x02, 2, 0x2A, .num 0, .span 0 3, false, 0⟩,
  ⟨0x5340, 64, 0x03, 10, 0x3E, .bytes [], .len 0 16777216, false, 0⟩,
  ⟨0x5340, 64, 0x04, 3, 0x3E, .num 32, .span 1 1024, true, 0⟩,
  ⟨0x5340, 64, 0x05, 4, 0x3F, .num 0, .span 0 4294967295, false, 0⟩,
  ⟨0x5340, 64, 0x06, 4, 0x2A, .num 0, .span 0 4294967295, false, 0⟩,
  ⟨0x5340, 64, 0x07, 8, 0x2A, .num 0, .span 0 18446744073709551615, false, 0⟩,
  ⟨0x5340, 64, 0x08, 3, 0x2A, .num 0, .span 0 16, false, 0⟩,
  ⟨0x5340, 64, 0x09, 5, 0x3F, .num 0, .span 0 18446744073709551615, false, 0⟩,
  ⟨0x5340, 64, 0x0A, 5, 0x3F, .num 0, .span 0 18446744073709551615, false, 0⟩,
  ⟨0x5340, 64, 0x0B, 5, 0x3F, .num 0, .span 0 18446744073709551615, false, 0⟩,
  ⟨0x5340, 64, 0x0C, 5, 0x2A, .num 0, .span 0 18446744073709551615, false, 0⟩,
  ⟨0x5340, 64, 0x0D, 5, 0x2A, .num 0, .span 0 18446744073709551615, false, 0⟩]

/-- Table 14.10, Firmware, journal and reset objects. -/
def objTab14_10 : List ObjRow := [
  ⟨0x1400, 1, 0x00, 2, 0x2A, .num 8, .span 8 8, false, 0⟩,
  ⟨0x1400, 1, 0x01, 10, 0x05, .bytes [], .len 4096 12582912, false, 0⟩,
  ⟨0x1400, 1, 0x02, 1, 0x05, .num 0, .span 1 1, false, 0⟩,
  ⟨0x1400, 1, 0x03, 2, 0x2A, .num 0, .span 0 6, false, 0⟩,
  ⟨0x1400, 1, 0x04, 9, 0x2A, .bytes [], .len 0 16, false, 0⟩,
  ⟨0x1400, 1, 0x05, 10, 0x2A, .bytes [], .len 32 32, false, 0⟩,
  ⟨0x1400, 1, 0x06, 2, 0x2A, .num 0, .span 0 6, false, 0⟩,
  ⟨0x1400, 1, 0x07, 4, 0x2A, .num 0, .span 0 90000, false, 0⟩,
  ⟨0x1400, 1, 0x08, 10, 0x2A, .bytes [], .len 32 32, false, 0⟩,
  ⟨0x1410, 1, 0x00, 2, 0x2A, .num 12, .span 12 12, false, 0⟩,
  ⟨0x1410, 1, 0x01, 4, 0x2A, .num 0, .span 0 3145728, false, 0⟩,
  ⟨0x1410, 1, 0x02, 5, 0x2A, .num 1, .span 0 18446744073709551615, false, 0⟩,
  ⟨0x1410, 1, 0x03, 5, 0x2A, .num 0, .span 0 18446744073709551615, false, 0⟩,
  ⟨0x1410, 1, 0x04, 4, 0x3F, .num 0, .span 0 4294967295, false, 0⟩,
  ⟨0x1410, 1, 0x05, 1, 0x05, .num 0, .span 1 1, false, 0⟩,
  ⟨0x1410, 1, 0x06, 4, 0x2A, .num 0, .span 0 200, false, 0⟩,
  ⟨0x1410, 1, 0x07, 4, 0x2A, .num 0, .span 0 4294967295, false, 0⟩,
  ⟨0x1410, 1, 0x08, 4, 0x2A, .num 0, .span 0 4294967295, false, 0⟩,
  ⟨0x1410, 1, 0x09, 4, 0x3F, .num 0, .span 0 4294967295, false, 0⟩,
  ⟨0x1410, 1, 0x0A, 4, 0x2A, .num 0, .span 0 30000, false, 0⟩,
  ⟨0x1410, 1, 0x0B, 5, 0x2A, .num 0, .span 0 18446744073709551615, false, 0⟩,
  ⟨0x1410, 1, 0x0C, 1, 0x05, .num 0, .span 1 1, false, 0⟩,
  ⟨0x1420, 1, 0x00, 2, 0x2A, .num 4, .span 4 4, false, 0⟩,
  ⟨0x1420, 1, 0x01, 2, 0x2A, .num 0, .span 0 2, false, 0⟩,
  ⟨0x1420, 1, 0x02, 4, 0x3F, .num 0, .span 0 4294967295, false, 0⟩,
  ⟨0x1420, 1, 0x03, 4, 0x2A, .num 0, .span 0 4294967295, false, 0⟩,
  ⟨0x1420, 1, 0x04, 4, 0x2A, .num 0, .span 0 4294967295, false, 0⟩]

/-- Table 15.3, Gust objects. -/
def objTab15_3 : List ObjRow := [
  ⟨0x6000, 1, 0x00, 2, 0x2A, .num 28, .span 28 28, false, 0⟩,
  ⟨0x6000, 1, 0x01, 5, 0x0F, .num 1, .span 1 18446744073709551615, false, 0⟩,
  ⟨0x6000, 1, 0x02, 1, 0x0F, .num 0, .oneOf [0, 1], false, 1⟩,
  ⟨0x6000, 1, 0x03, 2, 0x2A, .num 0, .oneOf [0, 1], false, 0⟩,
  ⟨0x6000, 1, 0x04, 8, 0x2A, .num 0, .span 0 18446744073709551615, false, 0⟩,
  ⟨0x6000, 1, 0x05, 8, 0x0F, .num 0, .span 0 4294967296, false, 0⟩,
  ⟨0x6000, 1, 0x06, 5, 0x2F, .num 0, .span 0 18446744073709551615, false, 0⟩,
  ⟨0x6000, 1, 0x07, 3, 0x0F, .num 0, .span 0 65535, false, 0⟩,
  ⟨0x6000, 1, 0x08, 3, 0x0F, .num 0, .span 0 65535, false, 0⟩,
  ⟨0x6000, 1, 0x09, 10, 0x0F, .bytes [], .len 128 128, false, 0⟩,
  ⟨0x6000, 1, 0x0A, 3, 0x0F, .num 64, .span 1 4096, false, 0⟩,
  ⟨0x6000, 1, 0x0B, 3, 0x0F, .num 0, .span 0 65535, false, 0⟩,
  ⟨0x6000, 1, 0x0C, 3, 0x0F, .num 0, .span 0 65535, false, 0⟩,
  ⟨0x6000, 1, 0x0D, 4, 0x0F, .num 0, .span 0 4294967295, false, 0⟩,
  ⟨0x6000, 1, 0x0E, 3, 0x0F, .num 0, .span 0 65535, false, 0⟩,
  ⟨0x6000, 1, 0x0F, 2, 0x0F, .num 0, .span 0 255, false, 0⟩,
  ⟨0x6000, 1, 0x10, 3, 0x0F, .num 0, .span 0 65535, false, 0⟩,
  ⟨0x6000, 1, 0x11, 3, 0x0F, .num 0, .span 0 65535, false, 0⟩,
  ⟨0x6000, 1, 0x12, 2, 0x0F, .num 1, .span 1 8, false, 0⟩,
  ⟨0x6000, 1, 0x13, 3, 0x0F, .num 0, .span 0 65535, false, 0⟩,
  ⟨0x6000, 1, 0x14, 3, 0x0F, .num 0, .span 0 16000, false, 0⟩,
  ⟨0x6000, 1, 0x15, 2, 0x0F, .num 0, .span 0 16, false, 0⟩,
  ⟨0x6000, 1, 0x16, 2, 0x0F, .num 0, .span 0 3, false, 0⟩,
  ⟨0x6000, 1, 0x17, 5, 0x0F, .num 0, .multiple 8 0 562949953421304, false, 0⟩,
  ⟨0x6000, 1, 0x18, 2, 0x0F, .num 1, .oneOf [1, 2], false, 0⟩,
  ⟨0x6000, 1, 0x19, 3, 0x0F, .num 0, .span 0 1024, false, 0⟩,
  ⟨0x6000, 1, 0x1A, 8, 0x0F, .num 0, .span 0 4294967296, false, 0⟩,
  ⟨0x6000, 1, 0x1B, 10, 0x03, .bytes [], .len 128 128, false, 0⟩,
  ⟨0x6000, 1, 0x1C, 1, 0x01, .num 0, .span 1 1, false, 0⟩]

/-- Table 15.4, Sampling and telemetry objects (c = compartment 0 to 7). -/
def objTab15_4 : List ObjRow := [
  ⟨0x7000, 1, 0x00, 2, 0x2A, .num 3, .span 3 3, false, 0⟩,
  ⟨0x7000, 1, 0x01, 5, 0x2A, .num 0, .span 0 18446744073709551615, false, 0⟩,
  ⟨0x7000, 1, 0x02, 5, 0x2A, .num 0, .span 0 18446744073709551615, false, 0⟩,
  ⟨0x7000, 1, 0x03, 5, 0x2A, .num 0, .span 0 18446744073709551615, false, 0⟩,
  ⟨0x7010, 8, 0x00, 2, 0x2A, .num 5, .span 5 5, false, 0⟩,
  ⟨0x7010, 8, 0x01, 8, 0x3F, .num 1024, .span 1 65535, false, 0⟩,
  ⟨0x7010, 8, 0x02, 1, 0x3F, .num 0, .oneOf [0, 1], false, 1⟩,
  ⟨0x7010, 8, 0x03, 4, 0x2A, .num 0, .span 0 4294967295, false, 0⟩,
  ⟨0x7010, 8, 0x04, 10, 0x2A, .bytes [], .len 0 1114112, false, 0⟩,
  ⟨0x7010, 8, 0x05, 1, 0x15, .num 0, .span 1 1, false, 1⟩]

/-- Every object table. -/
def objTables : List (List ObjRow) := [
  objTab1_2, objTab3_14, objTab4_13, objTab4_13x1, objTab5_13, objTab5_14, objTab5_15, objTab5_16, objTab5_17, objTab6_6, objTab7_4, objTab8_10, objTab8_11, objTab8_12, objTab8_13, objTab9_14, objTab9_15, objTab9_16, objTab10_9, objTab10_10, objTab10_11, objTab10_12, objTab10_13, objTab11_12, objTab11_13, objTab12_4, objTab12_5, objTab12_6, objTab12_9, objTab12_12, objTab13_7, objTab13_8, objTab13_9, objTab14_10, objTab15_3, objTab15_4]

end Sys2Proof.Machine
end

