-- ==== Sys2Proof/Machine/State.lean ====
section
/-!
DEFINITION. The whole state of the CFT7620 block as plain data, what stops a step, and the state right after PORST_N.
-/

namespace Sys2Proof.Machine

/-- The fuses (R354 to R361): they survive every reset and every power loss, and none is ever unset. lifecycle is the code of
Table 11.5, transitions the transition fuses used (at most 16), tamper the tamper fuses used (at most 32). -/
structure Fuses where
  lifecycle : Nat
  transitions : Nat
  tamper : Nat
  uds : Option Nat
  number : Nat
  makerRoot : List Byte
  signers : List (List Byte × Nat)
  deriving DecidableEq, Repr

/-- The time base of the always-on domain (R14 to R18, Table 1.2). ref is 0x2010:03: 0 locked, 1 holdover, 2 never locked. -/
structure TimeBase where
  beat : Nat
  ref : Nat
  losses : Nat
  source : Nat
  mismatches : Nat
  deriving DecidableEq, Repr

/-- Everything but the queue, the fuses, the time base and the memories. effs, draws, out, order counters and the stamps of
events are the model's own; slotAt numbers the slot that runs, 64 to a beat; effs is empty between commands. dirtySet and unprot hold c × 2^24 + stripe (R414, R415); heldReplies lists the
replies that wait for a journal record to be durable, by its SEQ; resume lists the facets whose hold for a scan ends at the next beat boundary (R127,
R128), scanned the scan records written, by DIGEST, with the parts whose layout the manual does not give (R125); outUnits the tier
units that a scrub took out of service until PORST_N (R374); sweep holds a compartment's next stripe at c and its pass at 8 + c. -/
structure Dev where
  state : DevState
  objs : Tab Val
  chg : Tab Nat
  facets : Tab Facet
  canopy : Tab Canopy
  scans : Tab Scan
  resume : List Nat
  scanned : List (Nat × Facet)
  sync : Tab Nat
  engines : Tab Engine
  stepser : Tab Nat
  board : Tab BoardReq
  boardTag : Nat
  spill : Tab Nat
  jobs : Tab Job
  images : Tab (List Byte)
  catalogs : Tab Catalog
  reqs : Tab Req
  digests : Tab DigEntry
  schanges : List SChange
  stepDue : List Nat
  bWaiting : Bool
  ports : Tab Port
  legs : Tab Leg
  routes : Tab Routes
  passRecs : List Nat
  gwCredits : Tab Nat
  tether : Tether
  groups : Tab Group
  finished : List Nat
  heldReplies : List (Nat × Reply)
  nextGroup : Nat
  nextOrder : Nat
  sessions : Tab Session
  nonces : List (Via × Nat × Nat)
  mgr : Option (Nat × Nat)
  mgrRound : Nat
  mgrBase : Nat
  authFails : Nat
  authRound : Nat
  notified : Nat
  notifyDue : Bool
  alerts : Nat
  portState : Nat
  permits : Tab Permit
  nextPermit : Nat
  comps : Tab Comp
  keys : Tab KeySlot
  ballast : Ballast
  journal : Journal
  boot : Boot
  gust : Gust
  samp : Tab Samp
  dirtySet : List Nat
  unprot : List Nat
  outUnits : List Nat
  sweep : Tab Nat
  tap : Tap
  unlocked : Bool
  switched : Nat
  busy : Nat
  execBeats : Nat
  slotAt : Nat
  draws : Nat
  out : List Out
  effs : List Eff
  deriving DecidableEq, Repr

/-- The machine: the commands that wait, first in first out, and the four parts of the device. -/
structure State where
  pending : List Instr
  fuse : Fuses
  time : TimeBase
  mem : MemSys
  dev : Dev
  deriving DecidableEq, Repr

/-- Why the machine stops with a fault. No command raises one: the device's own faults (fail-stop, job faults) are next states
(R400). Safe: a run never ends in it. -/
inductive Fault where
  /-- Raised by no command. Safe. -/
  | never
  deriving DecidableEq, Repr

/-- Why a command has no meaning. -/
inductive Refusal where
  /-- Raised by an arm of Dispatch whose command has no meaning yet. Safe: the machine stops. -/
  | notModelled (mnemonic : String)
  deriving DecidableEq, Repr

/-- The fuses of a device as it leaves the fab: Blank, nothing programmed (Table 11.5; assumption 3). -/
def Fuses.reset : Fuses := ⟨0, 0, 0, none, 0, (List.range 32).map Config.makerRoot, List.replicate 4 ([], 0)⟩

/-- The time base while PORST_N is asserted (R15, Table 1.2). -/
def TimeBase.reset : TimeBase := ⟨0, 2, 0, 0xFF, 0⟩

/-- The device while PORST_N is asserted (Table 14.1). -/
def Dev.reset : Dev where
  state := .off
  objs := []
  chg := []
  facets := []
  canopy := []
  scans := []
  resume := []
  scanned := []
  sync := []
  engines := []
  stepser := []
  board := []
  boardTag := 0
  spill := []
  jobs := []
  images := []
  catalogs := []
  reqs := []
  digests := []
  schanges := []
  stepDue := []
  bWaiting := false
  ports := []
  legs := []
  routes := []
  passRecs := []
  gwCredits := []
  tether := Tether.reset
  groups := []
  finished := []
  heldReplies := []
  nextGroup := 1
  nextOrder := 0
  sessions := []
  nonces := []
  mgr := none
  mgrRound := 0
  mgrBase := 0
  authFails := 0
  authRound := 0
  notified := 0
  notifyDue := false
  alerts := 0
  portState := 0
  permits := []
  nextPermit := 1
  comps := []
  keys := []
  ballast := Ballast.reset
  journal := Journal.reset
  boot := Boot.reset
  gust := ⟨false, 0, none, false⟩
  samp := []
  dirtySet := []
  unprot := []
  outUnits := []
  sweep := []
  tap := .bypass
  unlocked := false
  switched := 0
  busy := 0
  execBeats := 0
  slotAt := 0
  draws := 0
  out := []
  effs := []

/-- The machine right after reset: PORST_N asserted on a Blank device, no command waiting. -/
def State.reset : State := ⟨[], Fuses.reset, TimeBase.reset, MemSys.reset, Dev.reset⟩

end Sys2Proof.Machine
end

