-- ==== Sys2Proof/Machine/Ops.lean ====
section
/-!
DEFINITION. The shared operations of the block: how a command acts on the state, the effects on memories, fuses and time base,
objects and counters, ownership, completions, alerts, and the ends that many commands share (job fault, fail-stop).
-/

namespace Sys2Proof.Machine

/-- What a command may read besides the device: fuses, time base, memories. -/
structure Ctx where
  fuse : Fuses
  time : TimeBase
  mem : MemSys

/-- A write of fuses: a transition fuse is used by every transition but one to Scrapped (R354), and Scrapped
has its own fuse, which nothing unsets; 16 transition and 32 tamper fuses exist (R354, R356); the device number follows the UDS (R343, assumption 12). -/
def Fuses.run (f : Fuses) : FuseOp → Fuses
  | .lifecycle c =>
    if f.lifecycle = 4 then f
    else if c = 4 then { f with lifecycle := 4 }
    else if f.transitions < 16 ∧ c < 4 then { f with lifecycle := c, transitions := f.transitions + 1 } else f
  | .tamper => if f.tamper < 32 then { f with tamper := f.tamper + 1 } else f
  | .uds n =>
    match f.uds with
    | none => { f with uds := some n, number := Config.random n % (2 ^ 64 - 1) + 1 }
    | some _ => f
  | .signer g =>
    match f.signers.findIdx? fun p => p.2 = 0 with
    | some i => { f with signers := lset f.signers i (g, 1) }
    | none => f
  | .revoke i =>
    match f.signers[i]? with
    | some (g, 1) => { f with signers := lset f.signers i (g, 2) }
    | _ => f

/-- A change of the time base: the 64-bit number only grows, but for PORST_N, and stops at its top (R15, R17, R477). -/
def TimeBase.run (t : TimeBase) : TimeOp → TimeBase
  | .first => { t with ref := 0 }
  | .tick => { t with beat := if t.beat < 2 ^ 64 - 1 then t.beat + 1 else t.beat }
  | .holdover => { t with ref := 1, losses := satAdd (2 ^ 32 - 1) t.losses 1 }
  | .lock => { t with ref := 0 }
  | .adopt n p => { t with beat := max t.beat (min n (2 ^ 64 - 1)), source := p }
  | .mismatch => { t with mismatches := satAdd (2 ^ 32 - 1) t.mismatches 1 }
  | .clear => TimeBase.reset

/-- Do one effect. -/
def applyEff (s : State) : Eff → State
  | .mem op => { s with mem := s.mem.run op }
  | .fuse op => { s with fuse := s.fuse.run op }
  | .time op => { s with time := s.time.run op }

/-- Do what the device asked, in order. -/
def settle (s : State) : State := s.dev.effs.foldl applyEff { s with dev := { s.dev with effs := [] } }

/-- A command acts on the device and asks for effects; the state after it. -/
def onDev (s : State) (f : Ctx → Dev → Dev) : Host.Outcome State Fault Refusal :=
  .next (settle { s with dev := f ⟨s.fuse, s.time, s.mem⟩ s.dev })

/-- Ask for an effect. -/
def Dev.eff (d : Dev) (e : Eff) : Dev := { d with effs := d.effs ++ [e] }
/-- Ask for a memory effect. -/
def Dev.memOp (d : Dev) (op : MemOp) : Dev := d.eff (.mem op)
/-- Put something out. -/
def Dev.emit (d : Dev) (o : Out) : Dev := { d with out := d.out ++ [o] }
/-- The number of the next random draw, and the device after it. -/
def Dev.draw (d : Dev) : Nat × Dev := (d.draws, { d with draws := d.draws + 1 })
/-- The Round number (R16). -/
def Ctx.round (x : Ctx) : Nat := x.time.beat / Config.round

/-! Objects (chapter 10). -/

/-- The key of an object. -/
def okey (i s : Nat) : Nat := i * 256 + s

/-- The table row of an index:sub, if it is in use (R317). -/
def objRow (i s : Nat) : Option ObjRow :=
  objTables.findSome? fun t => t.find? fun r => decide (r.sub = s) && decide (r.base ≤ i) && decide (i < r.base + r.count)

/-- The default of an object. -/
def objDefault (i s : Nat) : Val := match objRow i s with | some r => r.dflt | none => .num 0

/-- The stored value of an object. -/
def Dev.obj (d : Dev) (i s : Nat) : Val := (tget d.objs (okey i s)).getD (objDefault i s)

/-- A stored number; a byte string reads as 0. -/
def Dev.num (d : Dev) (i s : Nat) : Nat := match d.obj i s with | .num n => n | .bytes _ => 0

/-- A stored byte string; a number reads as empty. -/
def Dev.blob (d : Dev) (i s : Nat) : List Byte := match d.obj i s with | .bytes b => b | .num _ => []

/-- Store a value; a default is not listed. -/
def Dev.setObj (d : Dev) (i s : Nat) (v : Val) : Dev :=
  { d with objs := if v = objDefault i s then terase d.objs (okey i s) else tset d.objs (okey i s) v }

/-- Store a number. -/
def Dev.setNum (d : Dev) (i s n : Nat) : Dev := d.setObj i s (.num n)

/-- Largest number of a type code (Table 10.1). -/
def typeTop (ty : Nat) : Nat :=
  match ty with
  | 1 => 1
  | 2 => 255
  | 3 => 65535
  | 4 | 6 | 7 => 2 ^ 32 - 1
  | _ => 2 ^ 64 - 1

/-- A counter object grows and stops at the top of its type (R477). -/
def Dev.count (d : Dev) (i s n : Nat) : Dev :=
  d.setNum i s (satAdd (typeTop (match objRow i s with | some r => r.ty | none => 5)) (d.num i s) n)

/-- A peak object keeps the largest value seen. -/
def Dev.peak (d : Dev) (i s n : Nat) : Dev := if d.num i s < n then d.setNum i s n else d

/-! The journal, as other chapters use it (R444, R445). -/

/-- Bytes a record takes in the log: header, payload, padding to 32 bytes (R444). -/
def jbytes : JPay → Nat
  | .grant _ es => 64 + es.foldl (fun a e => a + 8 + match e.2 with | .num _ => 8 | .bytes b => (b.length + 7) / 8 * 8) 0
  | .marker .. => 64
  | .outcome _ => 64
  | .audit _ => 96
  | .checkpoint .. => 64
  | .failStop _ => 96
  | .sealed .. => 160
  | .teardown .. => 64
  | .firmware .. => 96
  | .device es => 64 + es.foldl (fun a e => a + 8 + match e.2 with | .num _ => 8 | .bytes b => (b.length + 7) / 8 * 8) 0

/-- Append a record (R445): it is durable once RECORD_DURABLE says so. -/
def Dev.journal' (d : Dev) (x : Ctx) (g : Nat) (p : JPay) : Dev :=
  let j := d.journal
  { d with journal := { j with queue := j.queue ++ [⟨j.next, x.round, g, p⟩], next := j.next + 1, used := j.used + jbytes p } }

/-- A commit point changed an object's value: its change count rises, modulo 2^32 (R318). -/
def Dev.bump (d : Dev) (i s : Nat) (v : Val) : Dev :=
  if d.obj i s = v then d else { d with chg := tset d.chg (okey i s) ((tgetD d.chg (okey i s) 0 + 1) % 2 ^ 32) }

/-- A J object that the device itself commits (Table 14.9, DEVICE). -/
def Dev.setJ (d : Dev) (x : Ctx) (i s : Nat) (v : Val) : Dev := ((d.bump i s v).setObj i s v).journal' x 0 (.device [(okey i s, v)])

/-- An audit record (Table 11.4) as one number. -/
def auditRec (seq rnd session role kind status index sub transport group data : Nat) : Nat :=
  data % 2 ^ 256 + 2 ^ 256 * (group % 2 ^ 32) + 2 ^ 288 * (transport % 256) + 2 ^ 296 * (sub % 256) +
  2 ^ 304 * (index % 65536) + 2 ^ 320 * (status % 65536) + 2 ^ 336 * (kind % 256) + 2 ^ 344 * (role % 256) +
  2 ^ 352 * (session % 2 ^ 32) + 2 ^ 384 * (rnd % 2 ^ 64) + 2 ^ 448 * (seq % 2 ^ 64)

/-- Write an audit record (R352, R353): the 4,096 most recent are kept. -/
def Dev.audit (d : Dev) (x : Ctx) (session role kind status index sub transport group data : Nat) : Dev :=
  let j := d.journal
  let r := auditRec j.auditNext x.round session role kind status index sub transport group data
  let log := j.audit ++ [r]
  { d with journal := { j with audit := log.drop (log.length - 4096), auditNext := j.auditNext + 1 } }.journal' x 0 (.audit r)

/-! Alerts (R342, R344). -/

/-- ALERT_N is low while a cause is set that the mask lets through (R344). -/
def Dev.alertLow (d : Dev) : Bool := decide (Nat.land d.alerts (d.num 0x1000 0x0A) ≠ 0)

/-- The device after its causes or its mask changed: ALERT_N follows (R344). -/
def Dev.movePin (old d : Dev) : Dev := if d.alertLow = old.alertLow then d else d.emit (.pin "ALERT_N" d.alertLow)

/-- Set alert causes; a new one sends NOTIFY. -/
def Dev.alert (d : Dev) (bit : Nat) : Dev :=
  if d.alerts.testBit bit then d
  else d.movePin ({ d with alerts := d.alerts + 2 ^ bit, notifyDue := true }.setNum 0x1000 0x0C (Nat.lor (d.num 0x1000 0x0C) (2 ^ bit)))

/-- The condition of a cause has ended: a condition cause goes only when 1 is written to it (R344), but for those whose rule
clears them. -/
def Dev.unalert (d : Dev) (bit : Nat) : Dev := if d.alerts.testBit bit then d.movePin { d with alerts := d.alerts - 2 ^ bit } else d

/-! Facets, jobs, ports and the other keyed parts. -/

def Dev.facet (d : Dev) (n : Nat) : Facet := (tget d.facets n).getD Facet.reset
def Dev.setFacet (d : Dev) (n : Nat) (f : Facet) : Dev := { d with facets := tset d.facets n f }
def Dev.canopyOf (d : Dev) (c : Nat) : Canopy := (tget d.canopy c).getD Canopy.reset
/-- A reconfiguration is staged (Table 3.12): a fence is up for a commit group or a job that starts. A fence of neither is lifted at the next beat
boundary. -/
def Canopy.staged (k : Canopy) : Bool := (decide (k.st = .fenced) || decide (k.st = .flipping)) && (k.group.isSome || k.job.isSome)
def Dev.setCanopy (d : Dev) (c : Nat) (k : Canopy) : Dev := { d with canopy := tset d.canopy c k }
def Dev.engine (d : Dev) (e : Nat) : Engine := (tget d.engines e).getD Engine.reset
def Dev.setEngine (d : Dev) (e : Nat) (g : Engine) : Dev := { d with engines := tset d.engines e g }
def Dev.port (d : Dev) (p : Nat) : Port := (tget d.ports p).getD Port.reset
def Dev.setPort (d : Dev) (p : Nat) (q : Port) : Dev := { d with ports := tset d.ports p q }
def Dev.ring (d : Dev) (r : Nat) : Ring := (tget d.tether.rings r).getD Ring.reset
def Dev.setRing (d : Dev) (r : Nat) (g : Ring) : Dev := { d with tether := { d.tether with rings := tset d.tether.rings r g } }
def Dev.comp (d : Dev) (c : Nat) : Comp := (tget d.comps c).getD Comp.reset
def Dev.setComp (d : Dev) (c : Nat) (k : Comp) : Dev := { d with comps := tset d.comps c k }
def Dev.catalog (d : Dev) (c : Nat) : Catalog := (tget d.catalogs c).getD ⟨[], []⟩
def Dev.setCatalog (d : Dev) (c : Nat) (k : Catalog) : Dev := { d with catalogs := tset d.catalogs c k }
def Dev.setJob (d : Dev) (j : Nat) (b : Job) : Dev := { d with jobs := tset d.jobs j b }
def Dev.syncCtr (d : Dev) (k : Nat) : Nat := tgetD d.sync k 0
def Dev.addSync (d : Dev) (k n : Nat) : Dev := { d with sync := tset d.sync k (d.syncCtr k + n) }

/-- The copy of a facet that runs (R117): the epoch bit is its index. -/
def Facet.active (f : Facet) : Copy := if f.epoch then f.copy1 else f.copy0
/-- The copy of a facet that does not run (R117). -/
def Facet.shadow (f : Facet) : Copy := if f.epoch then f.copy0 else f.copy1
/-- Write the shadow copy. -/
def Facet.setShadow (f : Facet) (c : Copy) : Facet := if f.epoch then { f with copy0 := c } else { f with copy1 := c }

/-! Ownership (R133, R362). -/

/-- The state of a compartment (Table 11.11): 0 Free, 1 Active, 2 Tearing down, 3 Quarantined. -/
def Dev.compState (d : Dev) (c : Nat) : Nat := d.num (0x4100 + c) 1
/-- A compartment holds its units while it is Active or Tearing down (R375). -/
def Dev.compHolds (d : Dev) (c : Nat) : Bool := decide (d.compState c = 1) || decide (d.compState c = 2)
/-- Which compartment holds bit i of the mask in subindex sub. -/
def Dev.ownerBit (d : Dev) (sub i : Nat) : Option Nat :=
  (List.range 8).find? fun c => d.compHolds c && (d.num (0x4100 + c) sub).testBit i
/-- The column group of a facet (Table 11.8). -/
def groupOf (n : Nat) : Nat := n % 32 / 4
/-- The compartment of a facet. -/
def Dev.facetComp (d : Dev) (n : Nat) : Option Nat := d.ownerBit 2 (groupOf n)
/-- The compartment of a gondola: gondolas 2g and 2g + 1 go with column group g. -/
def Dev.gondolaComp (d : Dev) (g : Nat) : Option Nat := d.ownerBit 2 (g / 2)
/-- The compartment of a winch engine. -/
def Dev.engineComp (d : Dev) (e : Nat) : Option Nat := d.ownerBit 5 e

/-- Does compartment c own the whole run of n bytes at a local address (R133)? -/
def Dev.owns (d : Dev) (c a n : Nat) : Bool :=
  let one (a : Nat) : Bool :=
    match regionOf a with
    | .facet k => decide (d.facetComp k = some c)
    | .gddr k => decide (d.ownerBit 3 k = some c)
    | .lp k => decide (d.ownerBit 4 k = some c)
    | _ => false
  one a && one (a + (n - 1))

/-- Is the LPDDR5X package of an address out of service (R139)? -/
def Dev.lpOut (d : Dev) (a : Nat) : Bool :=
  match regionOf a with
  | .lp p => decide (d.num (0x4020 + p) 5 = 3) || decide (d.num (0x4020 + p) 5 = 4)
  | _ => false

/-- The status of an access by a requester of compartment c to n bytes at a local address: RANGE outside the map (R130),
ACCESS_DENIED for secure memory and control space and for a unit c does not own (R130, R133), NO_TARGET for a package out of
service (R139). -/
def Dev.accessStatus (d : Dev) (c a n : Nat) : Nat :=
  let r := regionOf a
  let r' := regionOf (a + (n - 1))
  if r = .hole ∨ r' = .hole then Config.range
  else if r = .secure ∨ r = .control ∨ r' = .secure ∨ r' = .control then Config.accessDenied
  else if d.lpOut a || d.lpOut (a + (n - 1)) then Config.noTarget
  else if d.owns c a n then Config.ok else Config.accessDenied

/-- This device's board slot; 0xFF where unset (R134). -/
def Dev.ownSlot (d : Dev) : Nat := d.num 0x2000 5
/-- Bits [51:49] of a board address (R134). -/
def slotOf (a : Nat) : Nat := bits a 51 49
/-- Bits [48:0] of a board address (R134). -/
def localOf (a : Nat) : Nat := bits a 48 0

/-- The active profile (0x3000:02). -/
def Dev.profile (d : Dev) : Nat := d.num 0x3000 2

/-! Beats (R26 to R29). -/

/-- Is beat number b skipped at skip count s (R26)? -/
def skippedAt (s b : Nat) : Bool := decide ((b % 16 + 1) * s / 16 > (b % 16) * s / 16)

/-- Is the canopy held (R29): by the brake, a profile change or Moored? -/
def Dev.held (d : Dev) : Bool :=
  d.ballast.brakeCanopy || d.ballast.mooredHold || (match d.ballast.profChange with | some p => p.held | none => false)

/-- The device is neither in reset nor Off, Grounded or Stopped. -/
def Dev.alive (d : Dev) : Bool :=
  !d.boot.porstLow && !d.boot.sysrstLow &&
  (match d.state with | .off => false | .stopped => false | .grounded => false | _ => true)

/-- Does the canopy advance in this beat (R27, R29)? -/
def Dev.executes (d : Dev) (x : Ctx) : Bool := d.alive && !d.held && !skippedAt d.ballast.skip x.time.beat

/-! Completions (R298 to R308). -/

/-- The key of an accepted command. -/
def cmdKey (r tag : Nat) : Nat := r * 2 ^ 32 + tag

/-- The accepted command of a ring and TAG. -/
def Dev.cmd (d : Dev) (r tag : Nat) : Option Cmd := tget d.tether.cmds (cmdKey r tag)

/-- Queue a completion; it is written by COMPLETION_WRITE (R298, R300). -/
def Dev.post (d : Dev) (c : Compl) : Dev :=
  { d with tether := { d.tether with pend := d.tether.pend ++ [c] } }.peak 0x2400 0x0B (d.tether.pend.length + 1)

/-- Byte b of a command entry. -/
def ebyte (e b : Nat) : Nat := bits e (8 * b + 7) (8 * b)
/-- Field of n bytes at byte b of a command entry (R303). -/
def efield (e b n : Nat) : Nat := (e >>> (8 * b)) % 2 ^ (8 * n)
/-- OPCODE (Table 9.4). -/
def eOpcode (e : Nat) : Nat := ebyte e 0
/-- JOB (Table 9.4). -/
def eJob (e : Nat) : Nat := ebyte e 2
/-- PROXY (Table 9.4). -/
def eProxy (e : Nat) : Nat := ebyte e 3
/-- TAG (Table 9.4). -/
def eTag (e : Nat) : Nat := efield e 4 4

/-- A command's own completion (KIND 0), with VAR, SERIAL and DETAIL; the command is done unless it is an ADMIT accepted OK. -/
def Dev.answerV (d : Dev) (x : Ctx) (r tag status detail serial var : Nat) : Dev :=
  match d.cmd r tag with
  | none => d
  | some c =>
    let keep := decide (eOpcode c.entry = 1) && decide (status = Config.ok)
    d.post ⟨tag, serial, x.time.beat, var, eJob c.entry, 0, eOpcode c.entry, r, 0, status, detail, !keep⟩

/-- A command's own completion with nothing but a status. -/
def Dev.answer (d : Dev) (x : Ctx) (r tag status : Nat) : Dev := d.answerV x r tag status 0 0 0

/-- The completion of a command that came by an origin. -/
def Dev.answerO (d : Dev) (x : Ctx) (o : Origin) (status : Nat) : Dev := d.answer x o.ring o.tag status

/-- Change an accepted command's record. -/
def Dev.adjCmd (d : Dev) (r tag : Nat) (f : Cmd → Cmd) : Dev :=
  { d with tether := { d.tether with cmds := tadj d.tether.cmds (cmdKey r tag) f } }

/-- An accepted command's place in the order of acceptance (R32, R295). -/
def Dev.cmdOrder (d : Dev) (r tag : Nat) : Nat := match d.cmd r tag with | some c => c.order | none => d.nextOrder

/-- A change that waits for a step boundary of a job, or of a compartment's jobs (R31), with its place in the order of acceptance. -/
def Dev.waitS (d : Dev) (x : Ctx) (c : Nat) (job : Option Nat) (order : Nat) (e : SEffect) : Dev :=
  { d with schanges := d.schanges ++ [⟨c, job, x.time.beat, order, e⟩] }

/-- The same for a command of a ring and TAG. -/
def Dev.waitCmd (d : Dev) (x : Ctx) (c : Nat) (job : Option Nat) (r tag : Nat) (e : SEffect) : Dev := d.waitS x c job (d.cmdOrder r tag) e

/-! Requests as lists by job. -/

/-- The slots of a job's requests. -/
def Dev.reqsOf (d : Dev) (j : Nat) : List Nat := (d.reqs.filter fun p => decide (p.2.job = j)).map Prod.fst

/-- The numbers of the jobs that satisfy p, ascending. -/
def Dev.jobsWhere (d : Dev) (p : Job → Bool) : List Nat := (d.jobs.filter fun q => p q.2).map Prod.fst

/-- A request-end completion with FINAL (KIND 4, R309), and with the generation-change flag where it is the next one after a rebind (R186). -/
def Dev.endReq (d : Dev) (x : Ctx) (slot : Nat) (status : Nat) : Dev :=
  match tget d.reqs slot with
  | none => d
  | some q =>
    d.post ⟨q.origin.tag, q.serial, x.time.beat, slot * 2 ^ 46 + q.history.length * 2 ^ 24, q.job, 4, 1, q.origin.ring,
      1 + (if q.genChanged then 2 else 0),
      status, 0, true⟩

/-- A request whose positions were being written again stands where it stood before (Table 13.6: restore work is discarded). -/
def Req.unreplay (q : Req) : Req :=
  if q.kv < q.replayTo then
    { q with kv := q.replayTo, input := (q.history.take q.kv ++ q.input).drop q.replayTo, replayTo := 0 }
  else { q with replayTo := 0 }

/-- A job enters Faulted (R403, Table 5.2): alert cause 9; the freeze follows at the next beat boundary. A job in recovery is Frozen again,
its restore work discarded (Table 13.6). -/
def Dev.jobFault (d : Dev) (x : Ctx) (j status : Nat) : Dev :=
  match tget d.jobs j with
  | none => d
  | some b =>
    if b.st = .running ∨ b.st = .draining then
      (d.setJob j { b with st := .faulted, before := b.st, phase := .frozen, frozenAt := x.time.beat, iced := false,
                           faultStatus := status }).alert 9
    else if b.st = .faulted ∧ (b.phase = .rejoining ∨ b.phase = .restoring) then
      let back := decide (b.phase = .restoring)
      let d : Dev := if back then { d with reqs := tmap d.reqs fun _ (q : Req) => if q.job = j then q.unreplay else q } else d
      (d.setJob j { b with phase := .frozen, frozenAt := x.time.beat, iced := false, staged := none, plans := []
                           step := if back then none else b.step, doneBeats := if back then [] else b.doneBeats }).alert 9
    else d

/-- The job that holds a facet. -/
def Dev.facetJob (d : Dev) (n : Nat) : Option Nat :=
  ((d.jobs.filter fun p => decide (p.2.st ≠ .ended) && decide (d.facetComp n = some p.2.comp) &&
    p.2.groups.contains (groupOf n)).map Prod.fst).head?

/-- A reply that waits until every record written so far is durable (R325, R352). -/
def Dev.replyAfter (d : Dev) (r : Reply) : Dev := { d with heldReplies := d.heldReplies ++ [(d.journal.next - 1, r)] }

/-! Commit groups (R319 to R327). -/

/-- Transport byte of an audit record. -/
def viaCode : Via → Nat
  | .port _ => 0
  | .ring .. => 1

/-- Staged bytes of a group (0x1100:02). -/
def Entry.size (e : Entry) : Nat := match e.total with | some _ => e.pieces.foldl (fun n p => n + p.2.length) 0 | none => e.value.length + e.guard.length
def Group.size (g : Group) : Nat := g.entries.foldl (fun n e => n + e.size) 0
/-- Is a group Open or Granted? -/
def Group.live (g : Group) : Bool := decide (g.st = .opened) || decide (g.st = .granted)

/-- The body of a COMMIT reply (Table 10.6). -/
def Group.commitBody (g : Group) : List Byte :=
  if g.st = .committed then leBytes 8 g.grantBeat ++ leBytes 8 g.commitBeat ++ leBytes 1 g.cls ++ leBytes 7 0 else []

/-- A group ends (R325 to R327, R352): its outcome is counted, audited and journalled, its staged values go, the reply to its COMMIT
or WRITE waits for the records. -/
def Dev.finishGroup (d : Dev) (x : Ctx) (n : Nat) (st : GroupState) (status detail : Nat) : Dev :=
  match tget d.groups n with
  | none => d
  | some g =>
    if !g.live then d
    else
      let was := g.st
      let g := { g with st := st, status := status, detail := detail, commitBeat := if st = GroupState.committed then x.time.beat else 0 }
      let fin := d.finished ++ [n]
      let old := fin.take (fin.length - 64)
      let d := { d with groups := tset (old.foldl terase d.groups) n { g with entries := [], asker := none },
                        finished := fin.drop (fin.length - 64) }
      let d := match st with
        | .committed => d.count 0x1100 3 1
        | .failed => (d.count 0x1100 4 1).setNum 0x1100 6 (n % 2 ^ 32 * 2 ^ 32 + status % 65536 * 65536 + detail % 65536)
        | _ => d.count 0x1100 5 1
      let d := d.audit x g.session g.role 5 status 0 0 (if g.port then 0 else 1) n 0
      let d := if was ≠ GroupState.granted then d
        else if st = GroupState.committed then d.journal' x n (.marker x.time.beat status)
        else d.journal' x n (.outcome status)
      match g.asker with
      | some w => d.replyAfter ⟨w.via, w.session, w.seq, w.op, n, status, detail, false, true, g.commitBody⟩
      | none => d

/-! Loss at SYSRST_N and at a fail-stop (Table 14.1, R401). -/

/-- Jobs, requests, catalogs, plans, digests, reconfigurations and scans are lost without a completion; resident-facet bits return
to 0 with the job (R396). -/
def Dev.loseJobs (d : Dev) : Dev :=
  let d := d.jobs.foldl (fun d p => d.setObj (0x3440 + p.1) 1 (.bytes [])) d
  { d with
    jobs := d.jobs.map fun p =>
      (p.1, { p.2 with st := .ended, step := none, staged := none, plans := [], phase := .none, released := true,
                       regionHeld := false, results := [], doneBeats := [] })
    images := [], reqs := [], catalogs := [], digests := [], schanges := [], scans := [], legs := [], routes := [],
    stepDue := [], gwCredits := [], stepser := [] }

/-- Every ring is disabled and keeps its configuration; accepted commands get no completion (R301). -/
def Dev.dropRings (d : Dev) : Dev :=
  let d := d.tether.rings.foldl (fun d p => d.setNum (0x2410 + p.1) 7 0) d
  { d with tether := Tether.reset }

/-- Key slots, key stores and secure memory are wiped (R355, R356, R401). A retired slot holds nothing and stays retired until teardown (Table 11.9). -/
def Dev.wipe (d : Dev) (fz : Fuses) : Dev :=
  { d with
    keys := tmap (tfilter d.keys fun _ k => decide (k.kind = 5)) fun _ _ => ⟨5, 0, 0⟩
    comps := tmap d.comps fun _ c =>
      { c with store := [], linkSecret := none, kw := if fz.tamper ≥ 32 && !c.sealedKw then c.kw else none } }.memOp .wipeSecure

/-- Gust is disarmed (R452) and its parameters return to their defaults at a reset that loses them. -/
def Dev.disarm (d : Dev) : Dev := { d with gust := { d.gust with armed := false, disarmDue := false, permit := none } }.setNum 0x6000 2 0

/-- Every Bridle lane and Tether lane goes to electrical idle; each port starts in Idle again (R285, Table 8.5, Table 9.1). -/
def Dev.idleLanes (d : Dev) : Dev :=
  { d with ports := tmap d.ports fun _ p => { Port.reset with plan := p.plan }, passRecs := d.passRecs }

/-- Commit groups that hold an action and are Granted fail with COMMIT_FAILED (R327). -/
def Dev.failActionGroups (d : Dev) (x : Ctx) : Dev :=
  (d.groups.filter fun p => decide (p.2.st = .granted) && p.2.entries.any fun e => decide (e.kind = 2)).foldl
    (fun d p => d.finishGroup x p.1 .failed Config.commitFailed 0) d

/-- The winch engines, board requests and sync counters at SYSRST_N: no record is left, the counters restart from 0. -/
def Dev.dropEngines (d : Dev) : Dev := { d with engines := [], board := [], sync := [], spill := [] }

/-- The fail-stop record (Table 13.3) as one number. -/
def failRecord (beat addr jobs detail unit cause prev : Nat) : Nat :=
  2 ^ 240 * 0xF0 + 2 ^ 256 * (prev % 256) + 2 ^ 264 * (cause % 256) + 2 ^ 272 * (unit % 65536) +
  2 ^ 288 * (detail % 2 ^ 32) + 2 ^ 320 * (jobs % 2 ^ 64) + 2 ^ 384 * (addr % 2 ^ 64) + 2 ^ 448 * (beat % 2 ^ 64)

/-- A fail-stop (R401, R402): everything stops, lanes idle, LP_RESET_N low, tiers lost, jobs ended without a completion, the rest
of the SYSRST_N column, Stopped, the record kept and journalled, alert cause 9 if a job was not Ended. -/
def Dev.stop (d : Dev) (x : Ctx) (cause unit addr detail : Nat) : Dev :=
  if !d.alive then d else
  let jobs := d.jobsWhere fun b => decide (b.st ≠ .ended)
  let mask := jobs.foldl (fun m j => m + 2 ^ j) 0
  let r := failRecord x.time.beat addr mask detail unit cause d.state.code
  let d := if jobs.isEmpty then d else d.alert 9
  let d := ((((d.loseJobs.dropRings).wipe x.fuse).disarm).idleLanes).failActionGroups x
  let d := { d with state := .stopped, engines := [], board := [],
                    ballast := { d.ballast with moored := .awake, mooredHold := false, profChange := none },
                    boot := { d.boot with lpResetLow := true, stopCause := cause, memDone := false } }
  let d := (d.memOp .loseTiers).count 0x1020 1 1
  let hist := d.blob 0x1020 3 ++ leBytes 64 r
  let d := (d.setObj 0x1020 2 (.bytes (leBytes 64 r))).setObj 0x1020 3 (.bytes (hist.drop (hist.length - 512)))
  (d.journal' x 0 (.failStop r)).emit (.pin "LP_RESET_N" true)

end Sys2Proof.Machine
end

