-- ==== Sys2Proof/Machine/Operands.lean ====
section
/-!
DEFINITION. Every operand form of a facet program (chapter 2): bundles and their fields, the units of a bundle and its stall, tile
rows, queues and credits, accumulator rows, reads of facet memory with SECDED and POISON.
-/

namespace Sys2Proof.Machine

/-- The bundle at a facet's place in its program; a program that runs past its last bundle meets NOPs (assumption 24). -/
def Facet.bundle (f : Facet) : Nat := f.active.prog.bundles.getD f.pc 0
/-- AOP (Table 2.13). -/
def Facet.aop (f : Facet) : Nat := bits f.bundle 119 88
/-- VOP (Table 2.13). -/
def Facet.vop (f : Facet) : Nat := bits f.bundle 87 40
/-- COP (Table 2.13). -/
def Facet.cop (f : Facet) : Nat := bits f.bundle 39 8

/-- Fields of a vector operation (Table 2.13). -/
def vOpc (w : Nat) : Nat := bits w 47 42
def vD (w : Nat) : Nat := bits w 41 37
def vA (w : Nat) : Nat := bits w 36 32
def vB (w : Nat) : Nat := bits w 31 27
def vC (w : Nat) : Nat := bits w 26 22
def vRows (w : Nat) : Nat := bits w 21 18 + 1
def vFn (w : Nat) : Nat := bits w 17 12
def vImm (w : Nat) : Nat := bits w 11 0
/-- Fields of a control operation (Table 2.13). -/
def cOpc (w : Nat) : Nat := bits w 31 26
def cD (w : Nat) : Nat := bits w 25 22
def cA (w : Nat) : Nat := bits w 21 18
def cB (w : Nat) : Nat := bits w 17 14
def cImm (w : Nat) : Nat := bits w 13 0

/-- Scalar register i as a number (R81). -/
def Facet.sreg (f : Facet) (i : Nat) : Nat := (f.s.getD i 0).toNat
/-- Write scalar register i, 64 bits. -/
def Facet.setSreg (f : Facet) (i v : Nat) : Facet := { f with s := lset f.s i (BitVec.ofNat 64 v) }
/-- A window's registers. -/
def Facet.win (f : Facet) (w : Nat) : WinReg := tgetD f.wins w ⟨0, 0, 0, 0⟩
/-- Write a window's registers. -/
def Facet.setWin (f : Facet) (w : Nat) (r : WinReg) : Facet := { f with wins := tset f.wins w r }
/-- The flits of an input queue, first in first. -/
def Facet.iqOf (f : Facet) (q : Nat) : List Flit := tgetD f.iq q []
/-- The flits of an output queue. -/
def Facet.oqOf (f : Facet) (q : Nat) : List Flit := tgetD f.oq q []
/-- The credit counter of an output queue's circuit (R91). -/
def Facet.credit (f : Facet) (q : Nat) : Nat := tgetD f.credits q 0
/-- An accumulator bank. -/
def Facet.bank (f : Facet) (b : Nat) : Bank := if b = 0 then f.bank0 else f.bank1
/-- Write an accumulator bank. -/
def Facet.setBank (f : Facet) (b : Nat) (k : Bank) : Facet := if b = 0 then { f with bank0 := k } else { f with bank1 := k }

/-- Does facet n's program advance now (R27, R29, R79, R83)? It is powered, running, neither held for a scan nor frozen. -/
def Dev.runs (d : Dev) (x : Ctx) (n : Nat) : Bool :=
  let f := d.facet n
  d.executes x && f.powered && decide (f.run = .running) && !f.held && !f.frozen && decide (n < 1024)

/-- When all three operations of the bundle are done, the program goes on: to the next bundle, to a LOOP's target, or after END
to the end of the iteration, where a facet that read POISON halts (R65, R79, R80). -/
def Facet.advance (f : Facet) : Facet :=
  if f.doneA && f.doneV && f.doneC then
    let f := { f with doneA := false, doneV := false, doneC := false, issued := false, counted := false, vrow := 0, sIssue := f.s }
    if f.ended then
      { f with ended := false, pc := 0, next := 1, iter := f.iter + 1, run := if f.poisonSeen then .halted else .idle }
    else { f with pc := f.next, next := f.next + 1 }
  else f

/-- The array operation of the bundle is done. -/
def Facet.endA (f : Facet) : Facet := { f with doneA := true }.advance
/-- The vector operation of the bundle is done. -/
def Facet.endV (f : Facet) : Facet := { f with doneV := true }.advance
/-- The control operation of the bundle is done. -/
def Facet.endC (f : Facet) : Facet := { f with doneC := true }.advance

/-- Change one facet. -/
def Dev.adjFacet (d : Dev) (n : Nat) (g : Facet → Facet) : Dev := d.setFacet n (g (d.facet n))

/-- The bundle stalls (R21, R80). A bundle that stalls on an output queue counts once in CSTALL of that queue and in the compartment's
sum (R93, R101, 0x2310 + c:0A), however often it stalls there. -/
def Dev.stallOn (d : Dev) (n : Nat) (w : Stall) : Dev :=
  let again := (d.facet n).counted
  let d := d.adjFacet n fun f => { f with stall := w }
  match w with
  | .oqFull q =>
    if again then d
    else
      let d := d.adjFacet n fun f => { f with counted := true, cstall := tmod f.cstall q 0 fun c => satAdd (2 ^ 32 - 1) c 1 }
      match d.facetComp n with
      | some c => d.count (0x2310 + c) 0x0A 1
      | none => d
  | _ => d

/-! Facet memory as the program reads it. -/

/-- Local address of offset a of facet n; an offset beyond 512 KiB wraps (assumption 25). -/
def facetAddr (n a : Nat) : Nat := n * 0x80000 + a % 0x80000

/-- The program read a POISON word (R65): the status bit is set, the job enters Faulted. -/
def Dev.poisonRead (d : Dev) (x : Ctx) (n : Nat) : Dev :=
  let d := d.adjFacet n fun f => { f with poisonSeen := true }
  match d.facetJob n with
  | some j => d.jobFault x j Config.poison
  | none => d

/-- SECDED on the read of one facet word (R63): one flipped bit is corrected, counted and written back, two stop the device. Only a flip
that was put into a stored word is in the model (R454, assumption 171). A reader of words asks afterwards whether the device is alive: what
read an uncorrectable word has no effect. -/
def Dev.eccWord (d : Dev) (x : Ctx) (w : Nat) : Dev :=
  if !d.alive then d
  else match tget x.mem.flips w with
  | none => d
  | some k =>
    if k % 256 ≤ 1 then
      (d.adjFacet (w / 65536) fun f => { f with eccCe := satAdd (2 ^ 32 - 1) f.eccCe 1 }).memOp (.correct (8 * w))
    else d.stop x 1 (w / 65536) (8 * w) 0

/-- SECDED on the read of n bytes at a local address of facet memory (R63). -/
def Dev.eccBytes (d : Dev) (x : Ctx) (a n : Nat) : Dev :=
  (List.range ((a + n + 7) / 8 - a / 8)).foldl (fun d i => d.eccWord x (a / 8 + i)) d

/-- The facet words that n bytes at offset a of facet k touch. -/
def facetWords (k a n : Nat) : List Nat :=
  (List.range ((a + n + 7) / 8 - a / 8)).map fun i => k * 65536 + (a / 8 + i) % 65536

/-- The program of facet n reads len bytes at offset a: SECDED first, then POISON. A POISON word's bytes are free. -/
def Dev.progRead (d : Dev) (x : Ctx) (n a len : Nat) : List Byte × Dev :=
  let ws := facetWords n a len
  let d := ws.foldl (fun d w => d.eccWord x w) d
  let bad := d.alive && ws.any fun w => x.mem.poisoned (8 * w)
  let (k, d) := if bad then d.draw else (0, d)
  let bs := (List.range len).map fun i =>
    let p := facetAddr n (a + i)
    if x.mem.poisoned p then BitVec.ofNat 8 (Config.unstated (k * 2 ^ 32 + i)) else x.mem.byte p
  (bs, if bad then d.poisonRead x n else d)

/-! Queues. -/

/-- The program of facet n dequeues k flits from input queue q: a credit goes back for each (R91). -/
def Dev.popIq (d : Dev) (n q k : Nat) : List Flit × Dev :=
  let f := d.facet n
  let got := (f.iqOf q).take k
  let d := d.setFacet n { f with iq := tset f.iq q ((f.iqOf q).drop k) }
  match tget f.active.iq q with
  | none => (got, d)
  | some b =>
    if b.gateway then (got, { d with gwCredits := tmod d.gwCredits (n * 8 + q) 0 (· + got.length) })
    else (got, d.adjFacet b.src fun g => { g with creditFly := tmod g.creditFly b.srcq 0 (· + got.length) })

/-- Can one flit enter output queue q of a facet: the queue holds fewer than OQLIM flits and its circuit has a credit (R21, R77,
R91)? A queue without a circuit has no credit: a write to it stalls at once (assumption 39). -/
def Facet.oqRoom (f : Facet) (q : Nat) : Bool :=
  match tget f.active.oq q with
  | some b => decide ((f.oqOf q).length < min b.oqlim 64) && decide (0 < f.credit q)
  | none => false

/-- Move waiting flits of the current row into output queue q while there is room. A facet that has read POISON emits none: its rows
leave no flits, so that its iteration can end (R65, assumption 172). -/
def Facet.pushOut (q : Nat) : Nat → Facet → Facet
  | 0, f => f
  | k + 1, f =>
    if f.poisonSeen then { f with vout := [] }
    else match f.vout with
    | [] => f
    | t :: rest =>
      if f.oqRoom q then Facet.pushOut q k { f with vout := rest, oq := tset f.oq q (f.oqOf q ++ [t]) } else f

/-- The physical facet of logical facet l for a job that holds column groups gs (R110). -/
def physFacet (gs : List Nat) (l : Nat) : Nat := l / (4 * gs.length) * 32 + 4 * (gs.head?).getD 0 + l % (4 * gs.length)

/-- The job for which facet n stands in bits [hi:lo] of a routing record of its active image (Table 6.1). -/
def Dev.routedJob (d : Dev) (n hi lo : Nat) : Option Nat :=
  match d.facetJob n with
  | none => none
  | some j =>
    match tget d.jobs j with
    | none => none
    | some b =>
      if b.info.routing.any fun r => decide (physFacet b.groups (bits r hi lo) = n) then some j else none

/-! Rows. -/

/-- A flit's payload as 16 lanes. -/
def flitLanes (t : Flit) : List Lane := (List.range 16).map fun i => BitVec.ofNat 32 (t.pay >>> (32 * i))

/-- 16 lanes as a payload. -/
def lanesPay (ls : List Lane) : Nat :=
  (List.range 16).foldl (fun p i => p + (ls.getD i 0).toNat * 2 ^ (32 * i)) 0

/-- Lane i of a row. -/
def Row.lane (r : Row) (i : Nat) : Lane := r.lanes.getD i 0
/-- Is lane i valid? -/
def Row.ok (r : Row) (i : Nat) : Bool := r.mask.testBit i
/-- Lane i, or a value where it is masked. -/
def Row.laneOr (r : Row) (i : Nat) (v : Lane) : Lane := if r.ok i then r.lane i else v

/-- Row r of tile register t (R52). -/
def Facet.trow (f : Facet) (t r : Nat) : Row := tgetD f.tregs (t * 16 + r) zeroRow
/-- Write row r of tile register t. -/
def Facet.setTrow (f : Facet) (t r : Nat) (v : Row) : Facet := { f with tregs := tset f.tregs (t * 16 + r) v }

/-- The input queue an operand code names (R56). -/
def srcQueue (c : Nat) : Option Nat := if 8 ≤ c ∧ c < 16 then some (c - 8) else none

/-! The issue of a bundle (R80). -/

/-- Fields of a tile command that its issue asks for (Table 2.12). -/
def tcShape (w : Nat) : Nat := bits w 127 125
def tcDrn (w : Nat) : Bool := w.testBit 117

/-- Row groups of a shape: M / 16 (Table 3.5). -/
def rowGroups (sh : Nat) : Nat := match sh with | 2 => 2 | 4 => 4 | _ => 1
/-- Column groups of a shape: N / 64 (Table 3.5). -/
def colGroups (sh : Nat) : Nat := if sh = 3 then 2 else 1
/-- Passes of a shape (R44); a reserved shape has none. -/
def passes (sh : Nat) : Nat := if sh ≤ 5 then rowGroups sh * colGroups sh else 0

/-- The bank that pass p of a tile uses (R47). -/
def passBank (f : Facet) (w p : Nat) : Nat := if passes (tcShape w) = 1 then f.curBank else p % 2

/-- Is bank b waiting to be drained, or a pass under way that will hand it to the vector engine (R46, R47)? -/
def Facet.bankBusy (f : Facet) (b : Nat) : Bool :=
  decide ((f.bank b).st = .ready) || f.passes.any fun p => decide (p.bank = b) && tcDrn p.cmd

/-- The tile command of the bundle's ISSUE; an index at or above TILES names the empty command, one 16 × 64 × 64 pass of MXFP4 over
facet memory from address 0 into the current bank (assumption 173). -/
def Facet.tile (f : Facet) : Nat := f.active.prog.tiles.getD (bits f.aop 27 22) 0

/-- SWAIT holds until sync counter imm ≥ S[a]. -/
def swaitClear (d : Dev) (f : Facet) : Bool := decide (f.sreg (cA f.cop) ≤ d.syncCtr (bits (cImm f.cop) 12 0))

/-- WAITL holds until input queue imm[2:0] holds a flit with L = 1 and STREAM = S[a]. -/
def waitlClear (f : Facet) : Bool :=
  (f.iqOf (bits (cImm f.cop) 2 0)).any fun t => flitL t && decide (flitStream t = f.sreg (cA f.cop))

/-- WAITW holds until the arrivals of window imm[3:0] reach its expected count. -/
def waitwClear (f : Facet) : Bool := let r := f.win (bits (cImm f.cop) 3 0); decide (r.expect ≤ r.arrivals)

/-- The operand codes a vector operation reads, by opcode (Table 2.3). -/
def vSources (w : Nat) : List Nat :=
  match vOpc w with
  | 0x00 | 0x1D | 0x1E => []
  | 0x02 | 0x03 | 0x04 | 0x06 | 0x07 | 0x10 => [vA w, vB w]
  | 0x05 => [vA w, vB w, vC w]
  | _ => [vA w]

/-- Does a vector operation write rows to output queue d − 8? -/
def vToQueue (w : Nat) : Bool :=
  decide (vOpc w ≠ 0x00) && decide (vOpc w ≠ 0x1C) && decide (vOpc w ≠ 0x1E) && decide (8 ≤ vD w) && decide (vD w < 16)

/-- Why the row cannot be read: an input queue without four flits for every operand that reads it, or no drained row. -/
def Facet.rowStall (f : Facet) (cs : List Nat) : Option Stall :=
  let q := cs.findSome? fun c =>
    match srcQueue c with
    | some q => if (f.iqOf q).length < 4 * (cs.filter (· = c)).length then some (Stall.iqEmpty q) else none
    | none => none
  match q with
  | some w => some w
  | none => if cs.contains 16 && f.drainQ.isEmpty then some .accEmpty else none

/-- Why the array operation cannot issue: its first pass's bank waits to be drained (R46). -/
def Facet.arrayStall (f : Facet) : Option Stall :=
  if f.doneA || decide (bits f.aop 31 28 ≠ 1) then none
  else
    let b := passBank f f.tile 0
    if decide (0 < Machine.passes (tcShape f.tile)) && f.bankBusy b then some (.bank b) else none

/-- Why the vector operation's next row cannot be done: no room for flits (R77), or a source runs dry. -/
def Facet.vectorStall (f : Facet) : Option Stall :=
  let w := f.vop
  if f.doneV || (f.vout.isEmpty && decide (vRows w ≤ f.vrow)) then none
  else if !f.poisonSeen && vToQueue w && !f.oqRoom (vD w - 8) then some (.oqFull (vD w - 8))
  else if f.vout.isEmpty then f.rowStall (vSources w) else none

/-- Why the control operation cannot issue (Table 2.14). -/
def Dev.controlStall (d : Dev) (f : Facet) : Option Stall :=
  if f.doneC then none
  else match cOpc f.cop with
    | 0x06 => if swaitClear d f then none else some .sync
    | 0x0A => if waitlClear f then none else some .waitl
    | 0x0B => if waitwClear f then none else some .waitw
    | _ => none

/-- Why the bundle of a facet cannot issue: a bundle that stalls holds all three of its operations (R80). -/
def Dev.bundleStall (d : Dev) (n : Nat) : Option Stall :=
  let f := d.facet n
  match f.arrayStall, f.vectorStall, d.controlStall f with
  | some w, _, _ => some w
  | none, some w, _ => some w
  | none, none, c => c

/-- Has the bundle of facet n issued, or may it issue now? -/
def Dev.canIssue (d : Dev) (n : Nat) : Bool :=
  (d.facet n).issued || (decide ((d.facet n).stall = .none) && decide (d.bundleStall n = none))

/-- May an operation of a unit be done on facet n: the program runs, the bundle issues or has issued, the unit's operation is not done? A
vector operation also stalls between its rows. -/
def Dev.mayArray (d : Dev) (x : Ctx) (n : Nat) : Bool := d.runs x n && d.canIssue n && !(d.facet n).doneA
def Dev.mayVector (d : Dev) (x : Ctx) (n : Nat) : Bool :=
  d.runs x n && d.canIssue n && decide ((d.facet n).stall = .none) && !(d.facet n).doneV
def Dev.mayControl (d : Dev) (x : Ctx) (n : Nat) : Bool := d.runs x n && d.canIssue n && !(d.facet n).doneC

/-- The bundle issues with the first of its operations. -/
def Dev.issue (d : Dev) (n : Nat) : Dev := d.adjFacet n fun f => { f with issued := true }

/-- A bundle that cannot issue stalls, with all three of its operations. -/
def Dev.holdBundle (d : Dev) (x : Ctx) (n : Nat) : Dev :=
  if d.runs x n && !(d.facet n).issued && decide ((d.facet n).stall = .none) then
    match d.bundleStall n with
    | some w => d.stallOn n w
    | none => d
  else d

/-- An operation of the bundle of facet n: may says whether it may be done now. The bundle issues with it, or stalls. -/
def Dev.doOp (d : Dev) (x : Ctx) (n : Nat) (may : Bool) (g : Dev → Dev) : Dev :=
  if may then g (d.issue n) else d.holdBundle x n

/-- The next row of the drained bank (R43, R46, R50): FP8 takes its scales here; after the last row the bank is free. -/
def Facet.popAcc (f : Facet) : Row × Facet :=
  match f.drainQ with
  | [] => (zeroRow, f)
  | b :: rest =>
    let k := f.bank b
    let i := k.nextRow
    let ls := k.acc.getD i []
    let sc := f32Mul k.sa k.sb
    let ls := if k.fp8 then ls.map fun a => f32Mul a sc else ls
    let row : Row := ⟨ls, if k.rowMask.testBit i then k.colMask else 0⟩
    if i + 1 < 16 then (row, f.setBank b { k with nextRow := i + 1 })
    else (row, { f.setBank b { k with nextRow := 0, st := .free } with drainQ := rest })

/-- Read row r of one operand (R56). -/
def Dev.readRow (d : Dev) (n c r : Nat) : Row × Dev :=
  if c < 8 then ((d.facet n).trow c r, d)
  else match srcQueue c with
    | some q =>
      let (fs, d) := d.popIq n q 4
      (⟨fs.flatMap flitLanes, 2 ^ 64 - 1⟩, d)
    | none =>
      if c = 16 then
        let (row, f) := (d.facet n).popAcc
        (row, d.setFacet n f)
      else (zeroRow, d)

/-- Read one row of each operand in order. -/
def Dev.readRows (d : Dev) (n r : Nat) : List Nat → List Row × Dev
  | [] => ([], d)
  | c :: cs =>
    let (row, d) := d.readRow n c r
    let (rows, d) := d.readRows n r cs
    (row :: rows, d)

/-- The four flits of a row for output queue q (R51, R75, R76): a masked lane carries +0; V, the active epoch, L on the last
flit of the operation's last row (assumption 26), the circuit's stream. -/
def Facet.rowFlits (f : Facet) (q : Nat) (row : Row) (last : Bool) : List Flit :=
  let st := match tget f.active.oq q with | some b => b.stream | none => 0
  (List.range 4).map fun i =>
    ⟨lanesPay ((List.range 16).map fun j => row.laneOr (16 * i + j) 0), mkSb true f.epoch (last && decide (i = 3)) st⟩

/-- Write one row of the destination: a tile register, or flits towards an output queue; any other code takes nothing. -/
def Facet.writeRow (f : Facet) (c r : Nat) (row : Row) (last : Bool) : Facet :=
  if c < 8 then f.setTrow c r row
  else if c < 16 then { f with vout := f.rowFlits (c - 8) row last }
  else f

end Sys2Proof.Machine
end

