-- ==== Sys2Proof/Machine/Access.lean ====
section
/-!
DEFINITION. Accesses to the tiers and to the board (R129 to R134, R169 to R173, R282): memory errors, board-space requests, the
flits they travel as.
-/

namespace Sys2Proof.Machine

/-- An injected flip in a tier word that a read burst meets (R454, Table 4.12): one bit is corrected and counted, two stop the
device. In the resting tier a flip stays for two bursts, coded as bits + 256 while a second burst is to meet it. -/
def Dev.tierFlip (d : Dev) (x : Ctx) (w : Nat) : Dev :=
  match tget x.mem.flips w with
  | none => d
  | some k =>
    match regionOf (8 * w) with
    | .gddr g => if k % 256 ≤ 1 then (d.count (0x4010 + g) 2 1).memOp (.correct (8 * w)) else d.stop x 2 g (8 * w) 0
    | .lp p =>
      if k % 256 ≤ 1 then
        let d := d.count (0x4020 + p) 2 1
        if 256 ≤ k then d.memOp (.flip (8 * w) (k - 256)) else d.memOp (.correct (8 * w))
      else (d.count (0x4020 + p) 3 1).stop x 3 p (8 * w) 0
    | _ => d

/-- What the interface of an address reports with a burst, a read or a write (R173, Table 4.12). -/
def Dev.burstErrors (d : Dev) (x : Ctx) (a : Nat) (env : MemEnv) : Dev :=
  match regionOf a with
  | .gddr g =>
    let d := if env.gddrCe = 0 then d else d.count (0x4010 + g) 2 env.gddrCe
    let d := if env.edc = 0 then d else d.count (0x4010 + g) 3 (min env.edc 4)
    if env.dead || decide (4 < env.edc) then d.stop x 2 g a 0 else d
  | .lp p =>
    let d := if env.lpCe = 0 then d else d.count (0x4020 + p) 2 env.lpCe
    let d := if env.reread then d.count (0x4020 + p) 3 1 else d
    if env.dead then d.stop x 3 p a 0 else d
  | _ => d

/-- Memory errors of a read of n bytes at a local address (R63, R173, Table 4.12): what the interface reports, then injected
flips. -/
def Dev.memErrors (d : Dev) (x : Ctx) (a n : Nat) (env : MemEnv) : Dev :=
  match regionOf a with
  | .facet _ => d.eccBytes x a n
  | _ =>
    let d := d.burstErrors x a env
    if !d.alive then d
    else ((List.range ((a + n + 7) / 8 - a / 8)).map fun i => a / 8 + i).foldl (fun d w => d.tierFlip x w) d

/-- The wiring-plan entry of a port as 256 bits (R264). -/
def Dev.planEntry (d : Dev) (p : Nat) : Nat := leNat (((d.blob 0x2000 6).drop (32 * p)).take 32)
/-- REQ, PLANNED, BOARDSPACE, FSLOT of a plan entry (Table 8.6). -/
def peReq (e : Nat) : Bool := e.testBit 149
def pePlanned (e : Nat) : Bool := e.testBit 148
def peBoard (e : Nat) : Bool := e.testBit 147
def peSlot (e : Nat) : Nat := bits e 156 154

/-- The key of a job's leg. -/
def legKey (j leg : Nat) : Nat := j * 4096 + leg

/-! The control tree and the way of a leg (R271). -/

/-- Children of a rank. -/
def childrenOf (tree : List TreeEntry) (r : Nat) : List TreeEntry := tree.filter fun t => decide (t.parent = r)

/-- The tree links of a rank: port and control slot. -/
def treeLinks (tree : List TreeEntry) (r : Nat) : List (Nat × Nat) :=
  (match tree[r]? with
   | some t => if t.parent = 0xFFFF then [] else [(t.upPort, t.upSlot)]
   | none => []) ++ (childrenOf tree r).map fun t => (t.downPort, t.downSlot)

/-- The tree port of rank own toward another rank, with a bound on the climb. -/
def toward (tree : List TreeEntry) (own : Nat) : Nat → Nat → Option Nat
  | 0, _ => none
  | n + 1, r =>
    match tree[r]? with
    | none => none
    | some t =>
      if t.parent = own then some t.downPort
      else if t.parent = 0xFFFF then (tree[own]?).map fun t => t.upPort
      else toward tree own n t.parent

/-- Total slot advance of a leg's route (R271). -/
def Leg.advance (l : Leg) : Nat := l.hops.foldl (fun n h => n + bits h 9 4) 0 % 64

/-- Does a leg end at a rank, as its destination or a member of its multicast? -/
def Leg.endsAt (l : Leg) (own : Nat) : Bool := decide (l.srcRank ≠ own) && (decide (l.kind = 1) || decide (l.dstRank = own))

/-- Slots in which a leg arrives here. -/
def Leg.inSlot (l : Leg) (s : Nat) : Bool := l.mask.testBit ((s + 64 - l.advance) % 64)

/-- The local port on which a leg arrives at rank own. -/
def legIn (tree : List TreeEntry) (own : Nat) (l : Leg) : Option Nat :=
  if l.kind = 1 then (if l.srcRank = own then none else toward tree own (tree.length + 1) l.srcRank)
  else if l.dstRank = own then some l.dstPort else none

/-- The lowest slot of a mask whose slots are advanced (R258, CRSLOT). -/
def lowSlot (mask adv : Nat) : Nat := ((List.range 64).find? fun s => mask.testBit ((s + 64 - adv % 64) % 64)).getD 0

/-- Credits go back on the link of arrival: by the lowest slot of the leg there (R268). -/
def Dev.oweCredits (d : Dev) (p : Nat) (l : Leg) (n : Nat) : Dev :=
  let s := lowSlot l.mask l.advance
  d.setPort p { d.port p with owed := tmod (d.port p).owed s 0 (· + n) }

/-- Who has to give credits at a multicast member before they go up: its own gateway as port 16, and each neighbour below. The manual does not say
how the credits of several destinations join: those that every destination has given go up (DESIGN CHOICE, assumption 189). -/
def Dev.creditUp (d : Dev) (key p from_ n : Nat) : Dev :=
  match tget d.legs key with
  | none => d
  | some l =>
    if l.kind ≠ 1 then d.oweCredits p l n
    else
      let got := tmod l.credits from_ 0 (· + n)
      let m := got.foldl (fun m c => min m c.2) (tgetD got from_ 0)
      let d := { d with legs := tset d.legs key { l with credits := tmap got fun _ c => c - m } }
      if m = 0 then d else d.oweCredits p l m

/-- A control message waits on a port of the control tree for the job's next control slot that begins at slot number ready or later (R275). -/
def Dev.pushCtl (d : Dev) (j kind ready : Nat) (words : List Nat) (link : Nat × Nat) : Dev :=
  d.setPort link.1 { d.port link.1 with ctl := (d.port link.1).ctl ++ [⟨j, link.2, ready, kind, words⟩] }

/-- A rank of a control tree sends a message: toward its parent and toward each child (R275). -/
def Dev.tellTree (d : Dev) (tree : List TreeEntry) (own j kind : Nat) (words : List Nat) : Dev :=
  (treeLinks tree own).foldl (Dev.pushCtl · j kind d.slotAt words ·) d

/-- This member sends a message on its job's control tree (R275). -/
def Dev.tell (d : Dev) (j kind : Nat) (words : List Nat) : Dev :=
  match tget d.jobs j, tget d.routes j with
  | some b, some r => if b.slice ≤ 1 then d else d.tellTree r.tree b.rank j kind words
  | _, _ => d

/-- A message of another rank goes on to every tree neighbour but the one it came from, in a control slot that begins at least 2 slots after its
arrival (R275). -/
def Dev.relay (d : Dev) (j origin kind : Nat) (words : List Nat) : Dev :=
  match tget d.jobs j, tget d.routes j with
  | some b, some r =>
    if b.slice ≤ 1 ∨ origin = b.rank then d
    else
      let from_ := toward r.tree b.rank (r.tree.length + 1) origin
      ((treeLinks r.tree b.rank).filter fun l => decide (some l.1 ≠ from_)).foldl (Dev.pushCtl · j kind (d.slotAt + 2) words ·) d
  | _, _ => d

/-- The board-space leg toward a board slot of a job of which p holds, from this member (R282). -/
def Dev.boardLeg (d : Dev) (p : Nat → Bool) (slot : Nat) : Option (Nat × Leg) :=
  d.legs.find? fun l =>
    match tget d.jobs (l.1 / 4096) with
    | some b => p (l.1 / 4096) && decide (b.st ≠ .ended) && decide (l.2.kind = 2) && decide (l.2.srcRank = b.rank) && !l.2.broken &&
        peBoard (d.planEntry l.2.srcPort) && decide (peSlot (d.planEntry l.2.srcPort) = slot)
    | none => false

/-- Is j a job of compartment c? A gondola and a descriptor belong to a compartment, not to a job: the model takes the first job of the
compartment with a leg that reaches the slot (DESIGN CHOICE, assumption 179). -/
def Dev.jobIn (d : Dev) (c j : Nat) : Bool := match tget d.jobs j with | some b => decide (b.comp = c) | none => false

/-- Is the far device of a port in Ready, Serving or Moored, by its last heartbeat (R170)? -/
def Dev.farServes (d : Dev) (p : Nat) : Bool :=
  let q := d.port p
  decide (q.st = .inService) && decide (5 ≤ q.farState) && decide (q.farState ≤ 7)

/-- The header flit and data flits of a board-space message (Table 8.9). -/
def boardFlits (op : Nat) (m : BoardMsg) : List Flit :=
  let h := m.addr % 2 ^ 52 * 2 ^ 460 + op % 16 * 2 ^ 456 + (m.lines - 1) % 4096 * 2 ^ 444 + m.tag % 65536 * 2 ^ 428 +
    m.sslot % 8 * 2 ^ 425 + m.jobtag % 2 ^ 64 * 2 ^ 361 + m.status % 65536 * 2 ^ 345 + m.dsync % 8192 * 2 ^ 332 +
    (if m.dsyncEn then 2 ^ 331 else 0) + m.operand % 2 ^ 64 * 2 ^ 267
  let n := (m.data.length + 63) / 64
  ⟨h, mkSb true false (decide (n = 0)) 0⟩ ::
    (List.range n).map fun i => ⟨leNat ((m.data.drop (64 * i)).take 64), mkSb true false (decide (i + 1 = n)) 0⟩

/-- Flits that wait at a gateway enter the leg's transmit buffer as far as TXB goes (R268). -/
def Leg.refill (l : Leg) : Leg :=
  let m := l.txb - l.tx.length
  { l with tx := l.tx ++ l.backlog.take m, backlog := l.backlog.drop m }

/-- A board-space message leaves on a leg (R282); what the transmit buffer has no room for waits. -/
def Dev.boardOut (d : Dev) (key : Nat) (slot op : Nat) (m : BoardMsg) : Dev :=
  { d with legs := tadj d.legs key fun l => { l with backlog := l.backlog ++ boardFlits op m }.refill }.emit (.board slot op m)

/-- The board-space message at the front of a receive buffer (Table 8.9): its OP, the message, the flits it takes; none while it is not whole. -/
def boardParse : List Flit → Option (Nat × BoardMsg × Nat)
  | [] => none
  | h :: rest =>
    let w := h.pay
    let op := bits w 459 456
    let lines := bits w 455 444 + 1
    let n := if op = 1 ∨ op = 4 ∨ ((op = 8 ∨ op = 10) ∧ bits w 360 345 = Config.ok) then lines else 0
    if rest.length < n then none
    else
      let m : BoardMsg := ⟨bits w 511 460, lines, bits w 443 428, bits w 427 425, bits w 424 361, bits w 360 345, bits w 344 332, w.testBit 331,
        bits w 330 267, (rest.take n).flatMap fun f => leBytes 64 f.pay⟩
      some (op, m, n + 1)

/-- Outstanding remote reads (R172): all, and those of one user. -/
def Dev.remoteReads (d : Dev) : Nat := (d.board.filter fun p => decide (p.2.kind = 0)).length
def Dev.gondolaReads (d : Dev) : Nat :=
  (d.board.filter fun p => decide (p.2.kind = 0) && (match p.2.user with | .gondola _ => true | _ => false)).length
def Dev.engineReads (d : Dev) (e : Nat) : Nat :=
  (d.board.filter fun p => decide (p.2.kind = 0) &&
    (match p.2.user with | .engine g _ _ => decide (g = e) | _ => false)).length

/-- A board-space request leaves on a leg and is outstanding until its acknowledgements have come (R170, R172, R277). -/
def Dev.boardSend (d : Dev) (key : Nat) (user : BoardUser) (op addr lines operand : Nat) (dsync : Option Nat) (data : List Byte) (left : Nat) :
    Dev :=
  let slot := slotOf addr
  let tag := d.boardTag
  let jt := match tget d.routes (key / 4096) with | some r => r.tag | none => 0
  let m : BoardMsg := ⟨addr, lines, tag, d.ownSlot % 8, jt, 0, dsync.getD 0, dsync.isSome, operand, data⟩
  let d := { d with boardTag := (tag + 1) % 65536, board := tset d.board tag ⟨user, op, slot, addr, lines, key, left⟩ }
  d.boardOut key slot op m

/-- Send a board-space request for compartment c (R169 to R172, R282): NO_TARGET where no leg of a job reaches the slot or no
device there serves; else the request is outstanding and the status is OK. -/
def Dev.boardRequest (d : Dev) (c : Nat) (user : BoardUser) (op addr lines operand : Nat) (dsync : Option Nat) (data : List Byte) :
    Nat × Dev :=
  match d.boardLeg (d.jobIn c) (slotOf addr) with
  | none => (Config.noTarget, d.count 0x4070 3 1)
  | some (key, l) =>
    if !d.farServes l.srcPort then (Config.noTarget, d.count 0x4070 3 1)
    else (Config.ok, d.boardSend key user op addr lines operand dsync data 1)

/-- Do two board-space messages read the same on a leg: the header fields, and the data to whole flits? -/
def sameMsg (a b : BoardMsg) : Bool :=
  let pad (l : List Byte) : List Byte := l ++ List.replicate ((64 - l.length % 64) % 64) 0
  decide (a.addr % 2 ^ 52 = b.addr % 2 ^ 52) && decide ((a.lines - 1) % 4096 = (b.lines - 1) % 4096) && decide (a.tag % 65536 = b.tag % 65536) && decide (a.sslot % 8 = b.sslot % 8) &&
  decide (a.jobtag % 2 ^ 64 = b.jobtag % 2 ^ 64) && decide (a.status % 65536 = b.status % 65536) && decide (a.dsync % 8192 = b.dsync % 8192) &&
  decide (a.dsyncEn = b.dsyncEn) && decide (a.operand % 2 ^ 64 = b.operand % 2 ^ 64) && decide (pad a.data = pad b.data)

/-- A board-space message is taken: the flits that spell it leave the receive buffer of the leg they came on, and the credits go back (R268,
R282). -/
def Dev.takeFlits (d : Dev) (op : Nat) (m : BoardMsg) : Dev :=
  let spelt (l : Leg) : Option Nat :=
    match boardParse l.rx with
    | some (o, m', n) => if l.kind ≠ 0 ∧ o = op ∧ sameMsg m m' = true then some n else none
    | none => none
  match d.legs.findSome? fun l => (spelt l.2).map fun n => (l.1, l.2, n) with
  | none => d
  | some (k, l, n) =>
    let d := { d with legs := tset d.legs k { l with rx := l.rx.drop n } }
    match tget d.jobs (k / 4096), tget d.routes (k / 4096) with
    | some b, some r => match legIn r.tree b.rank l with
      | some p => d.creditUp k p 16 n
      | none => d
    | _, _ => d

/-- Status of an access from outside a facet to n bytes of local memory: that of the map and of ownership, and RANGE for facet
memory not in whole aligned words (R57, assumption 34). -/
def Dev.wordStatus (d : Dev) (c a n : Nat) : Nat :=
  let st := d.accessStatus c a n
  if st ≠ Config.ok then st
  else match regionOf a with
    | .facet _ => if a % 8 = 0 ∧ n % 8 = 0 then Config.ok else Config.range
    | _ => Config.ok

/-- A fetch-add of nb bytes at a bank (R66): status, old value, device; a device that an uncorrectable word has stopped completes nothing
(R63). POISON stays POISON; weight data is not given out (R151,
R153, assumption 35). -/
def Dev.bankFetchAdd (d : Dev) (x : Ctx) (c a nb operand : Nat) : Nat × Nat × Dev :=
  let st := d.accessStatus c a nb
  if st ≠ Config.ok then (st, 0, d)
  else match regionOf a with
    | .facet _ =>
      if a % nb ≠ 0 then (Config.range, 0, d)
      else if x.mem.touchesWeight a nb then (Config.accessDenied, 0, d)
      else
        let d := d.eccWord x (a / 8)
        if !d.alive then (Config.deviceFault, 0, d)
        else if x.mem.poisoned a then (Config.poison, 0, d)
        else
          let old := leNat (x.mem.bytes a nb)
          let new := leBytes nb ((old + operand) % 2 ^ (8 * nb))
          let w := a / 8 * 8
          (Config.ok, old, d.memOp (.write w (x.mem.bytes w (a - w) ++ new ++ x.mem.bytes (a + nb) (w + 8 - a - nb))))
    | _ => (Config.range, 0, d)

/-- A swap of 64 aligned bytes at a bank (R66). -/
def Dev.bankSwap (d : Dev) (x : Ctx) (c a : Nat) (data : List Byte) : Nat × List Byte × Dev :=
  let st := d.accessStatus c a 64
  if st ≠ Config.ok then (st, [], d)
  else match regionOf a with
    | .facet _ =>
      if a % 64 ≠ 0 then (Config.range, [], d)
      else if x.mem.touchesWeight a 64 then (Config.accessDenied, [], d)
      else
        let d := d.eccBytes x a 64
        if !d.alive then (Config.deviceFault, [], d)
        else if x.mem.anyPoison a 64 then (Config.poison, [], d)
        else (Config.ok, x.mem.bytes a 64, d.memOp (.write a (lpad 64 0 data)))
    | _ => (Config.range, [], d)

end Sys2Proof.Machine
end

