-- ==== Sys2Proof/Machine/Frame.lean ====
section
/-!
DEFINITION. Frames as Bridle and Tether share them: the 256 bytes of a frame (R258), acknowledgement and retry (R259, R260, R288), frames per beat
(Table 8.1), and the random decisions of gust (R456), which can disturb a link.
-/

namespace Sys2Proof.Machine

/-! The 256 bytes of a frame (R258). -/

/-- Header bits [351:0] (Table 8.3); byte n of a frame holds bits [8n + 7:8n]. -/
def frameHead (f : Frame) : Nat :=
  let bit (b : Bool) : Nat := if b then 1 else 0
  let sb (i : Nat) : Nat := match f.flits[i]? with | some t => t.sb % 2 ^ 16 | none => 0
  f.lctr % 2 ^ 64 * 2 ^ 288 + f.seq % 2 ^ 16 * 2 ^ 272 + f.ack % 2 ^ 16 * 2 ^ 256 + bit f.retry * 2 ^ 255 + bit f.enc * 2 ^ 254 +
  f.typ % 8 * 2 ^ 251 + f.slot % 64 * 2 ^ 245 + f.flits.length % 4 * 2 ^ 243 + f.comp % 8 * 2 ^ 240 + f.tepoch % 256 * 2 ^ 232 +
  f.crslot % 64 * 2 ^ 226 + f.crcnt % 1024 * 2 ^ 216 + sb 2 * 2 ^ 192 + sb 1 * 2 ^ 176 + sb 0 * 2 ^ 160 + f.version % 256 * 2 ^ 8

/-- Bytes 0 to 251: header, flits or control payload, GCM tag. -/
def frameBody (f : Frame) : List Byte :=
  leBytes 44 (frameHead f) ++ lpad 192 0 ((f.flits.take 3).flatMap (fun t => leBytes 64 t.pay) ++ f.ctl) ++ leBytes 16 f.gtag

/-- A frame on its link: bytes 0 to 251 and their CRC-32. -/
def frameBytes (f : Frame) : List Byte := frameBody f ++ leBytes 4 (crc32 (frameBody f))

/-- The frame that 256 bytes spell; none where it is bad: another length, a CRC that fails, or a reserved TYPE (R258, Table 8.4). -/
def readFrame (bs : List Byte) : Option Frame :=
  let h := leNat (bs.take 44)
  if bs.length ≠ 256 ∨ leNat (bs.drop 252) ≠ crc32 (bs.take 252) ∨ 6 ≤ bits h 253 251 then none
  else
    let pay := (bs.drop 44).take 192
    let n := if bits h 253 251 = 0 then bits h 244 243 else 0
    some {
      typ := bits h 253 251, seq := bits h 287 272, ack := bits h 271 256, retry := h.testBit 255, enc := h.testBit 254
      slot := bits h 250 245, comp := bits h 242 240, tepoch := bits h 239 232, crslot := bits h 231 226, crcnt := bits h 225 216
      lctr := bits h 351 288
      flits := (List.range n).map fun i => ⟨leNat ((pay.drop (64 * i)).take 64), bits h (175 + 16 * i) (160 + 16 * i)⟩
      ctl := if n = 0 then pay else [], version := bits h 15 8, gtag := leNat ((bs.drop 236).take 16) }

/-- Frames in a beat on a number of lanes (Table 8.1): the line rate of 128 Gb/s a lane, times 514/544, over 2,048 bits. -/
def framesPerBeat (lanes : Nat) : Nat := lanes * 131072 * 514 / (544 * 2048)

/-- Are a port's lanes locked, so that frames pass on it and it sends markers and heartbeats (Table 8.5)? -/
def Port.speaks (q : Port) : Bool :=
  decide (q.st = .identifying) || decide (q.st = .conforming) || decide (q.st = .held) || decide (q.st = .inService)

/-! Acknowledgement and retry (R259, R260). -/

/-- ACK and RETRY of a good frame: what it acknowledges is kept no longer, RETRY asks for all the rest. -/
def Port.ackedBy (q : Port) (f : Frame) : Port :=
  let left := q.unacked.dropWhile fun u => decide ((f.ack + 65536 - u.seq) % 65536 < 32768)
  { q with unacked := left, resends := tfilter q.resends fun k _ => left.any fun u => decide (u.seq = k)
           resend := if f.retry then left.map Frame.seq else q.resend.filter fun k => left.any fun u => decide (u.seq = k) }

/-- The link fields of a frame that goes out now: ACK, RETRY, one leg's credits. -/
def Port.stamp (q : Port) (f : Frame) : Port × Frame :=
  let q' := { q with retryOut := false }
  match q.owed with
  | [] => (q', { f with ack := q.acked, retry := q.retryOut, crslot := 0, crcnt := 0 })
  | (s, n) :: rest =>
    let k := min n 1023
    ({ q' with owed := if n ≤ 1023 then rest else (s, n - 1023) :: rest },
      { f with ack := q.acked, retry := q.retryOut, crslot := s, crcnt := k })

/-- The next sequenced frame as it goes out; the port keeps it until it is acknowledged. -/
def Port.sendNew (q : Port) (f : Frame) : Port × Frame :=
  let (q', g) := q.stamp { f with seq := q.nextSeq }
  ({ q' with nextSeq := (q.nextSeq + 1) % 65536, unacked := q.unacked ++ [g] }, g)

/-- A frame that is not sequenced as it goes out: SEQ is the one the sender will use next (Table 8.3). -/
def Port.sendPlain (q : Port) (f : Frame) : Port × Frame := q.stamp { f with seq := q.nextSeq }

/-- A kept frame goes out again. -/
def Port.sendAgain (q : Port) (f : Frame) (rest : List Nat) : Port × Frame :=
  let (q', g) := q.stamp f
  ({ q' with resend := rest, resends := tmod q.resends f.seq 0 (· + 1) }, g)

/-- A good sequenced frame arrives: taken into the receive FIFO of 1,024 where its SEQ is the expected one, else discarded, and RETRY goes out. -/
def Port.receive (q : Port) (ok : Bool) (due : Nat) (f : Frame) : Port :=
  if f.seq ≠ q.expected ∨ 1024 ≤ q.fifo.length then { q with retryOut := true }
  else { q with expected := (q.expected + 1) % 65536, fifo := q.fifo ++ [⟨ok, due, f⟩] }

/-! Gust's random decisions (R456). -/

/-- Words x0 and x1 of the draw of control c for unit u and index i in this beat. -/
def Dev.gustWords (d : Dev) (x : Ctx) (c u i : Nat) : Nat × Nat :=
  let seed := d.num 0x6000 1
  let (x0, x1, _, _) := philox (seed % 2 ^ 32) (seed / 2 ^ 32 % 2 ^ 32) ((c * 65536 + u) % 2 ^ 32) ((x.time.beat - d.gust.beat) % 2 ^ 32) (i % 2 ^ 32) 0
  (x0, x1)

/-- Does a control fire, with a probability in units of 2^−16? -/
def Dev.gustFires (d : Dev) (x : Ctx) (c u i prob : Nat) : Bool := d.gust.armed && decide ((d.gustWords x c u i).1 / 65536 < prob)

/-- The number that a control draws from lo to hi. -/
def Dev.gustValue (d : Dev) (x : Ctx) (c u i lo hi : Nat) : Nat := lo + (d.gustWords x c u i).2 % (hi - lo + 1)

/-- Does control 3 make the frame of index i on a selected port a bad one (Table 15.2)? -/
def Dev.gustCrc (d : Dev) (x : Ctx) (p i : Nat) : Bool := (d.num 0x6000 0x0E).testBit p && d.gustFires x 3 p i (d.num 0x6000 0x10)

/-- Beats by which control 3 delays a DATA frame of a selected port on its way to its leg buffer (Table 15.2). -/
def Dev.gustDelay (d : Dev) (p : Nat) : Nat := if d.gust.armed && (d.num 0x6000 0x0E).testBit p then d.num 0x6000 0x0F else 0

/-- Does control 5 fire in this beat: no Tether frame is acknowledged (Table 15.2)? -/
def Dev.gustTether (d : Dev) (x : Ctx) : Bool := d.gustFires x 5 0 0 (d.num 0x6000 0x13)

end Sys2Proof.Machine
end

