-- ==== Sys2Proof/Machine/Tether.lean ====
section
/-!
DEFINITION. Tether and its rings (chapter 9): link events and frames, doorbells, fetch and acceptance of commands, completions.
-/

namespace Sys2Proof.Machine

/-- Tether carries packets (Table 9.1). -/
def Dev.linkUp (d : Dev) : Bool := d.alive && (decide (d.tether.st = .inService) || decide (d.tether.st = .moored))

/-- Change Tether. -/
def Dev.adjTether (d : Dev) (f : Tether → Tether) : Dev := { d with tether := f d.tether }

/-- The header of a transaction packet (Table 9.2). -/
def packetHead (op tag len status addr : Nat) (express : Bool) : List Byte :=
  leBytes 16 (op % 16 * 2 ^ 124 + (if express then 2 ^ 123 else 0) + tag % 2 ^ 16 * 2 ^ 96 + len % 2 ^ 13 * 2 ^ 83 + status % 2 ^ 16 * 2 ^ 67 +
    addr % 2 ^ 64)

/-- Write packets for data at a host address, at most 4,096 bytes each (Table 9.2). -/
def writePackets (addr : Nat) (data : List Byte) : List Byte :=
  (List.range (ceilDiv data.length 4096)).flatMap fun i =>
    let b := (data.drop (4096 * i)).take 4096
    packetHead 3 0 b.length 0 (addr + 4096 * i) false ++ b

/-- A packet goes to the host: it waits for the frames that carry it (R288, R290). -/
def Dev.toHost (d : Dev) (o : Out) (packet : List Byte) : Dev := (d.emit o).adjTether fun t => { t with tx := t.tx ++ packet }

/-- Data is written to host memory. -/
def Dev.hostWrite (d : Dev) (addr : Nat) (data : List Byte) : Dev := d.toHost (.hostWrite addr data) (writePackets addr data)

/-- A completion entry (Table 9.9) with its PHASE. -/
def Compl.word (c : Compl) (phase : Bool) : Nat :=
  c.tag % 2 ^ 32 * 2 ^ 224 + c.serial % 2 ^ 32 * 2 ^ 192 + c.beat % 2 ^ 64 * 2 ^ 128 + c.var % 2 ^ 60 * 2 ^ 68 + c.job % 64 * 2 ^ 62 +
  c.kind % 64 * 2 ^ 56 + c.opcode % 256 * 2 ^ 48 + c.ring % 256 * 2 ^ 40 + (c.flags % 128 + if phase then 128 else 0) * 2 ^ 32 +
  c.status % 2 ^ 16 * 2 ^ 16 + c.detail % 2 ^ 16

/-- The compartment a ring is bound to (0x2410 + r:08). -/
def Dev.ringComp (d : Dev) (r : Nat) : Nat := d.num (0x2410 + r) 8

/-- Has the command's own completion been posted? -/
def Dev.answered (d : Dev) (r tag : Nat) : Bool :=
  d.tether.pend.any fun c => decide (c.ring = r) && decide (c.tag = tag) && decide (c.kind = 0) && c.frees

/-- Is an operand read of a command outstanding? -/
def Dev.reading (d : Dev) (r tag : Nat) : Bool := d.tether.reads.any fun p => decide (p.2.use = .operands r tag)

/-- The entry of an accepted command that waits to run. -/
def Dev.waiting (d : Dev) (r tag : Nat) : Option Nat :=
  match d.cmd r tag with
  | some c => if c.started || d.answered r tag || d.reading r tag then none else some c.entry
  | none => none

/-- The objects of STEP show what became of one (0x5400 + j:02 and :03, Table 5.17). -/
def Dev.noteStep (d : Dev) (e st : Nat) : Dev :=
  let j := eJob e
  if eOpcode e ≠ 0x30 ∨ 63 < j then d
  else
    let d := if st = Config.busy ∨ st = Config.range ∨ st = Config.noResource then d.count (0x5400 + j) 2 1 else d
    d.setNum (0x5400 + j) 3 st

/-- A command is turned away with a status before its own checks have run. -/
def Dev.turnAway (d : Dev) (x : Ctx) (r tag e st : Nat) : Dev := (d.noteStep e st).answer x r tag st

/-- Run a command without operand data: check 5 of Table 9.5, then its own checks (R297). p picks its opcode and kind. -/
def Dev.runCmd (d : Dev) (x : Ctx) (r tag : Nat) (p : Nat → Bool) (f : Nat → Dev → Dev) : Dev :=
  if !d.alive then d
  else match d.waiting r tag with
    | none => d
    | some e =>
      if !p e then d
      else
        let d := d.adjCmd r tag fun c => { c with started := true }
        let free := decide (0x40 ≤ eOpcode e) && decide (eOpcode e ≤ 0x42) || decide (eOpcode e = 0x60)
        if d.state = .moored && !free then d.turnAway x r tag e Config.busy else f e d

/-- Run a command whose operand data was read, or failed to be read (order 4 of Table 9.5, R290). -/
def Dev.runData {α : Type} (d : Dev) (x : Ctx) (r tag : Nat) (p : Nat → Bool) (h : Option α) (f : Nat → α → Dev → Dev) : Dev :=
  match h with
  | some v => d.runCmd x r tag p fun e d => f e v d
  | none =>
    if !d.alive then d
    else match d.waiting r tag with
      | none => d
      | some e => if p e then (d.count 0x2400 9 1).turnAway x r tag e Config.range else d

/-! The link (Table 9.1). -/

/-- Commands whose operand read was lost complete RANGE once the link is back (R301). -/
def Dev.endLost (d : Dev) (x : Ctx) : Dev :=
  let d' := d.tether.lost.foldl (fun (d : Dev) (k : Nat) =>
    match tget d.tether.cmds k with
    | some c => d.turnAway x (k / 2 ^ 32) (k % 2 ^ 32) c.entry Config.range
    | none => d) d
  d'.adjTether fun t => { t with lost := [], back := true }

/-- TETHER_LANES_LOCKED (Table 9.1): all 8 lanes, or one half of them at half rate. -/
def execTetherLanesLocked (low high : Bool) (s : State) : Host.Outcome State Fault Refusal :=
  onDev s fun x d =>
    if !d.alive || decide (d.tether.st ≠ .training) || (!low && !high) then d
    else (d.adjTether fun t => { t with
      st := .inService, since := x.time.beat, lanes := if low && high then 8 else 4, link := { Port.reset with lastMarker := x.time.beat } }).endLost x

/-- TETHER_TRAINING_TIMEOUT (Table 9.1): 500 ms have passed in Training. -/
def execTetherTrainingTimeout (s : State) : Host.Outcome State Fault Refusal :=
  onDev s fun x d =>
    if !d.alive || decide (d.tether.st ≠ .training) then d
    else (d.adjTether fun t => { t with st := .idle, since := x.time.beat, lanes := 0 }).count 0x2400 3 1

/-- The use of a device read fails (R290, R294): entries put their ring in Error; operands fail their command with RANGE, at once
or once the link is back (R301). -/
def Dev.readFails (d : Dev) (x : Ctx) (later : Bool) (use : ReadUse) : Dev :=
  let d := d.count 0x2400 9 1
  match use with
  | .entries r _ _ => if (d.ring r).st = 1 then d.setRing r { d.ring r with st := 2 } else d
  | .operands r tag =>
    if later then d.adjTether fun t => { t with lost := t.lost ++ [cmdKey r tag] }
    else match d.waiting r tag with
      | some e => d.turnAway x r tag e Config.range
      | none => d

/-- TETHER_DOWN_RETRY (Table 9.1): 64 beats have passed in Down. -/
def execTetherDownRetry (s : State) : Host.Outcome State Fault Refusal :=
  onDev s fun x d =>
    if !d.alive || decide (d.tether.st ≠ .down) || decide (x.time.beat < d.tether.since + 64) then d
    else d.adjTether fun t => { t with st := .idle }

/-- An idle link starts Training when the journal is replayed, or 64 beats after Down or a failed attempt (Table 9.1). -/
def Dev.tetherTrain (d : Dev) (x : Ctx) : Dev :=
  if d.alive && decide (d.tether.st = .idle) && decide (d.boot.stage = .done) &&
      (decide (d.tether.since = 0) || decide (d.tether.since + 64 ≤ x.time.beat)) then
    d.adjTether fun t => { t with st := .training }
  else d

/-! The register window (R291 to R294). -/

/-- A write of SQTAIL (R294): bits [15:0]; a tail at or above the entry count puts the ring in Error. -/
def Dev.sqtail (d : Dev) (ring value : Nat) : Dev :=
  let g := d.ring ring
  if !d.linkUp || decide (63 < ring) || decide (g.st ≠ 1) then d
  else
    let t := value % 65536
    if d.num (0x2410 + ring) 2 ≤ t then d.setRing ring { g with st := 2 } else d.setRing ring { g with tail := t }

/-- SQTAIL (R294). -/
def execSqtail (ring value : Nat) (s : State) : Host.Outcome State Fault Refusal := onDev s fun _ d => d.sqtail ring value

/-- A write of CQHEAD (R298): frees the entries up to the new head, never more than were written; ring 0 ignores it (Table 9.3). -/
def Dev.cqhead (d : Dev) (ring value : Nat) : Dev :=
  let g := d.ring ring
  let n := d.num (0x2410 + ring) 4
  let h := value % 131072
  if !d.linkUp || decide (ring = 0) || decide (63 < ring) || decide (g.st = 0) || decide (n ≤ h) then d
  else
    let old := (g.cqTail + n - g.cqUsed % n) % n
    let freed := (h + n - old) % n
    d.setRing ring { g with cqUsed := g.cqUsed - freed }

/-- CQHEAD (R298). -/
def execCqhead (ring value : Nat) (s : State) : Host.Outcome State Fault Refusal := onDev s fun _ d => d.cqhead ring value

/-- Bit of stripe s of compartment c in dirtySet and unprot. -/
def stripeKey (c s : Nat) : Nat := c * 2 ^ 24 + s

/-- A write at a local address into a data shard of a protected range sets the stripe's Dirty bit (R413, R414). -/
def Dev.markDirty (d : Dev) (c a : Nat) : Dev :=
  let n := d.num (0x4200 + c) 2
  let base := d.num (0x4200 + c) 5
  if n = 0 ∨ a < base ∨ base + d.num (0x4200 + c) 6 ≤ a then d
  else
    let s := (a - base) / 0x400000
    let q := (d.num (0x4200 + c) 4 + n * (s + 1) - s) % n
    if q < n - d.num (0x4200 + c) 3 then { d with dirtySet := sinsert d.dirtySet (stripeKey c s), unprot := sinsert d.unprot (stripeKey c s) }
    else d

/-- An aperture write (R292): whole lines, in packages that c owns and that are in service, with APBASE set; else discarded and counted. -/
def Dev.apertureWrite (d : Dev) (comp offset : Nat) (data : List Byte) : Dev :=
  let base := d.num (0x2460 + comp) 1
  let a := base + offset % 2 ^ 32
  let n := data.length
  if !d.linkUp || decide (7 < comp) || decide (n = 0) then d
  else if base = 0 ∨ offset % 64 ≠ 0 ∨ n % 64 ≠ 0 ∨ 2 ^ 32 < offset % 2 ^ 32 + n ∨ d.accessStatus comp a n ≠ Config.ok then
    d.count (0x2460 + comp) 2 1
  else ((List.range (n / 64)).foldl (fun d i => d.markDirty comp (a + 64 * i)) d).memOp (.write a data)

/-- APERTURE (R292). -/
def execAperture (comp offset : Nat) (data : List Byte) (s : State) : Host.Outcome State Fault Refusal :=
  onDev s fun _ d => d.apertureWrite comp offset data

/-! Fetch (R295). -/

/-- Entries of ring r that are ready. -/
def Dev.ready (d : Dev) (r : Nat) : Nat :=
  let g := d.ring r
  let n := d.num (0x2410 + r) 2
  if g.st = 1 then (g.tail + n - g.head) % n else 0

/-- Does any completion for ring r wait because the ring is full (R300)? -/
def Dev.ringFull (d : Dev) (r : Nat) : Bool := decide (d.num (0x2410 + r) 4 ≤ (d.ring r).cqUsed)
def Dev.ringWaits (d : Dev) (r : Nat) : Bool := d.ringFull r && d.tether.pend.any fun c => decide (c.ring = r)

/-- Commands accepted and not completed, with the entries still on their way (R295). -/
def Dev.heldCmds (d : Dev) : Nat :=
  d.tether.fetched.foldl (fun n f => n + f.count) d.tether.cmds.length

/-- A read tag that no outstanding read carries. -/
def Dev.readTag (d : Dev) : Nat :=
  (((List.range 257).map fun i => (d.tether.nextTag + i) % 65536).find? fun t => decide (tget d.tether.reads t = none)).getD 0

/-- Issue a device read (R290). -/
def Dev.issueRead (d : Dev) (x : Ctx) (use : ReadUse) (addr len : Nat) (express : Bool) : Dev :=
  let t := d.readTag
  (d.adjTether fun h => { h with reads := tset h.reads t ⟨use, express, x.time.beat⟩, nextTag := (t + 1) % 65536 }).toHost
    (.mrd t addr len express) (packetHead 1 t len 0 addr express)

/-- Fetch up to 8 entries of ring r in one read. -/
def Dev.fetch (d : Dev) (x : Ctx) (r : Nat) : Dev :=
  let g := d.ring r
  let n := d.num (0x2410 + r) 2
  let k := min (min 8 (d.ready r)) (min (n - g.head) (16384 - d.heldCmds))
  ((d.setRing r { g with head := (g.head + k) % n }).adjTether fun t => { t with fetched := t.fetched ++ [⟨d.readTag, r, k, none⟩] }).issueRead x (.entries r g.head k) (d.num (0x2410 + r) 1 + 64 * g.head) (64 * k)
    (decide (r = 0))

/-- RING_FETCH (R295, R300, R301): the express ring first, else the next ordinary ring in turn. -/
def execRingFetch (s : State) : Host.Outcome State Fault Refusal :=
  onDev s fun x d =>
    if !d.linkUp then d
    else if d.tether.back && d.tether.pend.any (fun c => !d.ringFull c.ring) then d
    else
      let d := d.adjTether fun t => { t with back := false }
      let last := d.tether.lastRing
      let turn := (List.range 63).map fun i => (last + i) % 63 + 1
      let pick := if d.ready 0 ≠ 0 then some 0 else turn.find? fun r => decide (d.ready r ≠ 0) && !d.ringWaits r
      match pick with
      | none => d
      | some r =>
        if 256 ≤ d.tether.reads.length then d
        else if 16384 ≤ d.heldCmds then
          if d.tether.paused then d else (d.adjTether fun t => { t with paused := true }).count 0x2400 0x0C 1
        else (d.adjTether fun t => { t with lastRing := if r = 0 then last else r }).fetch x r

/-! Acceptance (R296, R297, R302). -/

/-- Is the opcode in Table 9.6? -/
def opcodeOk (o : Nat) : Bool :=
  [0x01, 0x02, 0x03, 0x04, 0x05, 0x10, 0x11, 0x12, 0x20, 0x21, 0x30, 0x31, 0x40, 0x41, 0x42, 0x50, 0x51, 0x60].contains o

/-- Does ring 0 accept the entry (R296)? -/
def expressOk (e : Nat) : Bool :=
  let o := eOpcode e
  decide (o = 3) || decide (o = 0x31) || decide (o = 0x60) || (decide (o = 1) && (efield e 10 2).testBit 1)

/-- Does the opcode name a job (Table 9.4)? -/
def namesJob (o : Nat) : Bool := !(decide (0x10 ≤ o) && decide (o ≤ 0x12) || decide (0x40 ≤ o) && decide (o ≤ 0x42))

/-- Order 3 of Table 9.5: the operands that chapter 9 bounds. -/
def boundsOk (e : Nat) : Bool :=
  let o := eOpcode e
  (!namesJob o || decide (eJob e ≤ 63)) &&
  (match o with
   | 0x01 => decide (bits (efield e 10 2) 5 3 ≤ 4)
   | 0x02 => decide (1 ≤ efield e 24 2)
   | 0x05 => decide (ebyte e 10 ≤ 3)
   | 0x20 => decide (efield e 16 4 = 128)
   | 0x21 => decide (ebyte e 8 ≤ 1)
   | 0x40 | 0x41 | 0x42 => decide (1 ≤ efield e 16 4) && decide (efield e 16 4 ≤ 65536)
   | 0x50 | 0x51 =>
     decide (1 ≤ efield e 10 2) && decide (efield e 10 2 ≤ 1024) && decide (efield e 16 8 % 2 ^ 49 % 4096 = 0)
   | _ => true)

/-- Host address and bytes of an entry's operand data; 0 bytes where it has none (Table 9.6). -/
def operandData (e : Nat) : Nat × Nat :=
  match eOpcode e with
  | 0x01 => (efield e 16 8, 4 * (efield e 24 4 + bits (efield e 10 2) 5 3))
  | 0x02 => (efield e 16 8, 4 * efield e 24 2)
  | 0x05 => if ebyte e 10 = 1 then (efield e 16 8, 4 * efield e 24 4) else if ebyte e 10 = 3 then (efield e 16 8, efield e 24 4) else (0, 0)
  | 0x10 => (efield e 40 8, 32)
  | 0x20 | 0x30 | 0x40 | 0x41 | 0x42 => (efield e 8 8, efield e 16 4)
  | _ => (0, 0)

/-- Status of orders 1 to 3 of Table 9.5, with the express permission of R296. -/
def Dev.firstChecks (d : Dev) (r e : Nat) (express : Bool) : Nat :=
  let o := eOpcode e
  if !opcodeOk o || (express && !expressOk e) then Config.range
  else if express && decide (d.num (0x2410 + r) 9 = 0) then Config.accessDenied
  else if namesJob o && (match tget d.jobs (eJob e) with
      | some b => decide (b.st ≠ .ended) && decide (b.comp ≠ d.ringComp r)
      | none => false) then Config.accessDenied
  else if !boundsOk e then Config.range
  else Config.ok

/-- Is the opcode a DICT command's? -/
def isDict (e : Nat) : Bool := decide (0x40 ≤ eOpcode e) && decide (eOpcode e ≤ 0x42)

/-- DICT commands that are outstanding (R311). -/
def Dev.dictOut (d : Dev) : Nat :=
  (d.tether.cmds.filter fun p => isDict p.2.entry && !d.answered (p.1 / 2 ^ 32) (p.1 % 2 ^ 32)).length

/-- Has every DICT command that was accepted before this one been served (R311)? -/
def Dev.dictTurn (d : Dev) (r tag : Nat) : Bool :=
  d.tether.cmds.all fun p => !isDict p.2.entry || p.2.started || d.answered (p.1 / 2 ^ 32) (p.1 % 2 ^ 32) || decide (d.cmdOrder r tag ≤ p.2.order)

/-- Accept one fetched entry of a ring. -/
def Dev.accept (d : Dev) (x : Ctx) (ring e : Nat) : Dev :=
  let express := decide (ring = 0)
  let r := if express then eProxy e else ring
  if express && (decide (r = 0) || decide (63 < r) || decide ((d.ring r).st = 0)) then d.count 0x2410 0x0D 1
  else
    let tag := eTag e
    let d := d.count (0x2410 + r) 0x0D 1
    match d.cmd r tag with
    | some _ => (d.noteStep e Config.range).post ⟨tag, 0, x.time.beat, 0, eJob e, 0, eOpcode e, r, 0, Config.range, 0, false⟩
    | none =>
      let full := isDict e && decide (16 ≤ d.dictOut)
      let d := d.adjTether fun t => { t with cmds := tset t.cmds (cmdKey r tag) ⟨e, express, x.time.beat, false, false, d.nextOrder⟩ }
      let d := { d with nextOrder := d.nextOrder + 1 }
      let d := d.setRing r { d.ring r with seen := tset (d.ring r).seen tag (eOpcode e) }
      let st := d.firstChecks r e express
      if st ≠ Config.ok then d.turnAway x r tag e st
      else if full then d.answer x r tag Config.busy
      else
        let (a, n) := operandData e
        if n = 0 ∨ 256 ≤ d.tether.reads.length then d else d.issueRead x (.operands r tag) a (min 4096 n) express

/-- Do a fetch's entries still come under a tag? -/
def Fetched.awaits (f : Fetched) (tag : Nat) : Bool := decide (f.tag = tag) && f.data.isNone

/-- Accept the entries of a fetch. -/
def Dev.acceptAll (d : Dev) (x : Ctx) (f : Fetched) (bs : List Byte) : Dev :=
  if (d.ring f.ring).st = 0 then d
  else (List.range f.count).foldl (fun d i => d.accept x f.ring (leNat ((bs.drop (64 * i)).take 64))) d

/-- Accept the entries of the oldest fetches, as far as they have come (R295). -/
def Dev.acceptFrom (x : Ctx) : List Fetched → Dev → Dev
  | [], d => d.adjTether fun t => { t with fetched := [] }
  | f :: fs, d =>
    match f.data with
    | none => d.adjTether fun t => { t with fetched := f :: fs }
    | some bs => Dev.acceptFrom x fs (d.acceptAll x f bs)

/-- Fetched entries are accepted in fetch order (R295): what came early waits for the fetches before it. -/
def Dev.acceptHeld (d : Dev) (x : Ctx) : Dev := Dev.acceptFrom x d.tether.fetched d

/-- A read that is outstanding fails (R290); what waited for its entries is accepted. -/
def Dev.readLost (d : Dev) (x : Ctx) (tag : Nat) (r : DevRead) : Dev :=
  let d := (d.adjTether fun t => { t with reads := terase t.reads tag }).readFails x false r.use
  match r.use with
  | .operands .. => d
  | .entries .. => (d.adjTether fun t => { t with fetched := t.fetched.filter fun f => !f.awaits tag }).acceptHeld x

/-- Read data arrives (R290): the read's use is served, or fails where STATUS is not 0. -/
def Dev.rdata (d : Dev) (x : Ctx) (tag status : Nat) (data : List Byte) : Dev :=
  if !d.linkUp then d
  else match tget d.tether.reads tag with
    | none => d
    | some r =>
      if status ≠ 0 then d.readLost x tag r
      else
        let d := d.adjTether fun t => { t with reads := terase t.reads tag }
        match r.use with
        | .operands .. => d
        | .entries .. =>
          (d.adjTether fun t => { t with fetched := t.fetched.map fun f => if f.awaits tag then { f with data := some data } else f }).acceptHeld x

/-- RDATA (R290). -/
def execRdata (tag status : Nat) (data : List Byte) (s : State) : Host.Outcome State Fault Refusal := onDev s fun x d => d.rdata x tag status data

/-- TETHER_READ_TIMEOUT (R290): no RDATA within 1 ms. -/
def execTetherReadTimeout (tag : Nat) (s : State) : Host.Outcome State Fault Refusal :=
  onDev s fun x d =>
    if !d.linkUp then d
    else match tget d.tether.reads tag with
      | none => d
      | some r => d.readLost x tag r

/-- The link goes Down: what was fetched is accepted, nothing more is fetched, outstanding reads fail (R301). What the host has not acknowledged is
sent again once the link is back (assumption 192). -/
def Dev.tetherDown (d : Dev) (x : Ctx) : Dev :=
  let d := (d.adjTether fun t => { t with fetched := t.fetched.filter fun f => f.data.isSome }).acceptHeld x
  let reads := d.tether.reads
  let d := (d.adjTether fun t => { t with
    st := .down, since := x.time.beat, lanes := 0, reads := [], link := Port.reset, tx := t.link.unacked.flatMap Frame.ctl ++ t.tx }).count 0x2400 8 1
  reads.foldl (fun d p => d.readFails x true p.2.use) d

/-- TETHER_FRAME_LOSS (R289, Table 9.1): a Down condition holds at a beat boundary. -/
def execTetherFrameLoss (s : State) : Host.Outcome State Fault Refusal :=
  onDev s fun x d => if !d.alive || decide (d.tether.st ≠ .inService) then d else d.tetherDown x

/-! Completions (R298 to R302). -/

/-- Send a ring's interrupt message if one is due and none went in this beat (R298). -/
def Dev.interrupt (d : Dev) (x : Ctx) (r : Nat) : Dev :=
  let g := d.ring r
  let a := d.num (0x2410 + r) 5
  if !g.intDue || g.intBeat = some x.time.beat then d
  else
    let d := d.setRing r { g with intDue := false, intBeat := some x.time.beat }
    if a = 0 then d
    else d.toHost (.interrupt a (d.num (0x2410 + r) 6)) (packetHead 4 0 4 0 a false ++ leBytes 4 (d.num (0x2410 + r) 6))

/-- Remove the first completion that waits for ring r. -/
def dropCompl (r : Nat) : List Compl → List Compl
  | [] => []
  | c :: cs => if c.ring = r then cs else c :: dropCompl r cs

/-- COMPLETION_WRITE (R298, R302): the oldest completion for the ring is written at the tail with PHASE, the tail advances, PHASE
flips as it wraps; the command's TAG is free after its last completion. -/
def execCompletionWrite (ring : Nat) (s : State) : Host.Outcome State Fault Refusal :=
  onDev s fun x d =>
    let g := d.ring ring
    if !d.linkUp || decide (ring = 0) || decide (g.st = 0) || d.ringFull ring then d
    else match d.tether.pend.find? fun c => decide (c.ring = ring) with
      | none => d.interrupt x ring
      | some c =>
        let n := d.num (0x2410 + ring) 4
        let d := d.toHost (.completion ring g.cqTail g.phase c)
          (writePackets (d.num (0x2410 + ring) 3 + 32 * g.cqTail) (leBytes 32 (c.word g.phase)))
        let t := (g.cqTail + 1) % n
        let d := d.setRing ring { g with cqTail := t, cqUsed := g.cqUsed + 1, phase := if t = 0 then !g.phase else g.phase, intDue := true }
        let d := d.adjTether fun h => { h with
          pend := dropCompl ring h.pend
          cmds := if c.frees then terase h.cmds (cmdKey ring c.tag) else h.cmds
          paused := if c.frees then false else h.paused }
        d.interrupt x ring

/-! Frames (R288, R290, R291). A frame of Tether is Out's frame of port 16. -/

/-- A host write to the register window (Table 9.3). -/
def Dev.windowWrite (d : Dev) (offset : Nat) (data : List Byte) : Dev :=
  if 2 ^ 32 ≤ offset ∧ offset < 9 * 2 ^ 32 then d.apertureWrite (offset / 2 ^ 32 - 1) (offset % 2 ^ 32) data
  else if offset < 0x40000 ∧ data.length = 4 ∧ offset % 4096 = 0 then d.sqtail (offset / 4096) (leNat data)
  else if offset < 0x40000 ∧ data.length = 4 ∧ offset % 4096 = 8 then d.cqhead (offset / 4096) (leNat data)
  else d.count 0x2400 0x0E 1

/-- A host read of the register window: DEVSTAT, else zeros (R291). -/
def Dev.windowRead (d : Dev) (x : Ctx) (tag len addr : Nat) (express : Bool) : Dev :=
  let v := if addr = 0x40000 then d.state.code + x.time.beat % 2 ^ 48 * 2 ^ 16 else 0
  d.adjTether fun t => { t with tx := t.tx ++ packetHead 2 tag len 0 addr express ++ leBytes len v }

/-- The packets received so far take effect in order (Table 9.2); with a header of a reserved OP the rest is padding (assumption 192). -/
def Dev.takePackets (x : Ctx) : Nat → Dev → Dev
  | 0, d => d
  | n + 1, d =>
    let bs := d.tether.rx
    let h := leNat (bs.take 16)
    let op := bits h 127 124
    let len := bits h 95 83
    let status := bits h 82 67
    let data := if op = 3 ∨ (op = 2 ∧ status = 0) then len else 0
    let body := (bs.drop 16).take data
    let next := d.adjTether fun t => { t with rx := bs.drop (16 + data) }
    if bs.length < 16 then (if bs.all fun b => decide (b = 0) then d.adjTether fun t => { t with rx := [] } else d)
    else if op = 0 ∨ 3 < op then d.adjTether fun t => { t with rx := [] }
    else if bs.length < 16 + data then d
    else if op = 1 then Dev.takePackets x n (next.windowRead x (bits h 111 96) len (bits h 63 0) (h.testBit 123))
    else if op = 2 then Dev.takePackets x n (next.rdata x (bits h 111 96) status body)
    else Dev.takePackets x n (next.windowWrite (bits h 63 0) body)

/-- Frames leave Tether's receive FIFO, and are acknowledged; none while control 5 of gust fires (R259, Table 15.2). -/
def Dev.tetherDrain (x : Ctx) : Nat → Dev → Dev
  | 0, d => d
  | n + 1, d =>
    let q := d.tether.link
    match q.fifo with
    | [] => d
    | r :: rest =>
      let d := d.adjTether fun t => { t with link := { q with fifo := rest, acked := r.frame.seq }, rx := t.rx ++ lpad 192 0 r.frame.ctl }
      Dev.tetherDrain x n (Dev.takePackets x 192 d)

/-- A bad frame of Tether: discarded and counted; RETRY goes out with the next one (R260, R288). -/
def Dev.tetherBad (d : Dev) (uncorrectable fec : Nat) : Dev :=
  if !d.linkUp then d
  else
    let d := (d.adjTether fun t => { t with link := { t.link with retryOut := true } }).count 0x2400 6 1
    (if fec = 0 then d else d.count 0x2400 4 fec).count 0x2400 5 uncorrectable

/-- A good frame of Tether: DATA carries packets, IDLE nothing, every other TYPE is a bad frame (R288). -/
def Dev.tetherFrame (d : Dev) (x : Ctx) (f : Frame) (fec : Nat) : Dev :=
  if !d.linkUp then d
  else if 1 < f.typ then d.tetherBad 0 fec
  else
    let d := if fec = 0 then d else d.count 0x2400 4 fec
    let d := d.adjTether fun t => { t with link := { t.link.ackedBy f with lastMarker := x.time.beat } }
    if f.typ = 1 then d
    else
      let d := d.adjTether fun t => { t with link := t.link.receive true 0 f }
      let d := if d.gustTether x then d.count 0x6000 6 1 else d
      if d.gustTether x then d else Dev.tetherDrain x d.tether.link.fifo.length d

/-- Up to n frames go out: those to be resent, then packets that wait, against the window of 1,024; the number sent. -/
def Dev.tetherSend : Nat → Nat → Dev → Nat × Dev
  | 0, sent, d => (sent, d)
  | n + 1, sent, d =>
    let q := d.tether.link
    match q.resend with
    | k :: rest =>
      (match q.unacked.find? fun u => decide (u.seq = k) with
       | none => Dev.tetherSend n sent (d.adjTether fun t => { t with link := { q with resend := rest } })
       | some f =>
         let (q, g) := q.sendAgain f rest
         Dev.tetherSend n (sent + 1) (((d.adjTether fun t => { t with link := q }).emit (.frame 16 g)).count 0x2400 7 1))
    | [] =>
      if d.tether.tx = [] ∨ 1024 ≤ q.unacked.length then (sent, d)
      else
        let (q, g) := q.sendNew { idleFrame with typ := 0, ctl := lpad 192 0 (d.tether.tx.take 192) }
        Dev.tetherSend n (sent + 1) ((d.adjTether fun t => { t with link := q, tx := t.tx.drop 192 }).emit (.frame 16 g))

/-- Tether in a beat: the resend limit takes it Down (R260, R289); frames that gust held back leave the FIFO; the frames of the beat go out, at least
one (R288), in Moored on lane 0 only (Table 9.1). -/
def Dev.tetherBeat (d : Dev) (x : Ctx) : Dev :=
  if !d.linkUp then d
  else if d.tether.st = .inService ∧ (d.tether.link.resends.any fun r => decide (8 ≤ r.2)) = true then d.tetherDown x
  else
    let d := if d.gustTether x then d else Dev.tetherDrain x d.tether.link.fifo.length d
    let (n, d) := Dev.tetherSend (framesPerBeat (if d.tether.st = .moored then 1 else d.tether.lanes)) 0 d
    if n = 0 then
      let (q, g) := d.tether.link.sendPlain idleFrame
      (d.adjTether fun t => { t with link := q }).emit (.frame 16 g)
    else d

end Sys2Proof.Machine
end

