-- ==== Sys2Proof/Machine/Winch.lean ====
section
/-!
DEFINITION. The winch engines (R154 to R166, Tables 4.8 to 4.11): submission, start, elements, completion, failure, abort.
-/

namespace Sys2Proof.Machine

/-! Stream-descriptor fields (Table 4.8). -/
def sdSrc (w : Nat) : Nat := bits w 511 460
def sdDst (w : Nat) : Nat := bits w 459 408
/-- Count of dimension k. -/
def sdC (w k : Nat) : Nat := let lo := 200 + 48 * k; bits w (lo + 15) lo
/-- Stride of dimension k. -/
def sdS (w k : Nat) : Int := let lo := 168 + 48 * k; signed 32 (bits w (lo + 31) lo)
def sdFmt (w : Nat) : Nat := bits w 167 164
def sdCodec (w : Nat) : Nat := bits w 163 162
def sdClass (w : Nat) : Nat := bits w 161 160
def sdKey (w : Nat) : Nat := bits w 159 154
def sdSync (w : Nat) : Nat := bits w 153 141
def sdDsync (w : Nat) : Nat := bits w 140 128
def sdDsyncEn (w : Nat) : Bool := w.testBit 127
def sdPlist (w : Nat) : Bool := w.testBit 126
def sdPldim (w : Nat) : Nat := bits w 125 123
def sdPlnum (w : Nat) : Nat := bits w 122 107
def sdWaitCtr (w : Nat) : Nat := bits w 106 94
def sdWaitEn (w : Nat) : Bool := w.testBit 93
def sdWaitVal (w : Nat) : Nat := bits w 92 61
def sdComp (w : Nat) : Nat := bits w 60 58
def sdDcnt (w : Nat) : Nat := bits w 57 42
def sdDstr (w : Nat) : Int := signed 32 (bits w 41 10)
def sdPlside (w : Nat) : Bool := w.testBit 9

/-- Elements of a descriptor: the product of its counts. -/
def sdTotal (w : Nat) : Nat := sdC w 0 * sdC w 1 * sdC w 2 * sdC w 3 * sdC w 4

/-- Index of dimension k at element e, dimension 0 innermost (R160). -/
def sdIdx (w e k : Nat) : Nat :=
  let below := (List.range k).foldl (fun p i => p * sdC w i) 1
  e / below % sdC w k

/-- An address plus a signed offset, within the 52 bits of a board address. -/
def addOff (a : Nat) (o : Int) : Nat := (((a : Int) + o) % (2 ^ 52 : Nat)).toNat

/-- Is the combination of CODEC and FMT in Table 4.9? -/
def sdKindOk (w : Nat) : Bool :=
  match sdCodec w with
  | 0 => decide (sdFmt w ≤ 6) || decide (sdFmt w = 15)
  | 1 => decide (sdFmt w ≤ 6) || decide (sdFmt w = 14)
  | 2 => decide (sdFmt w ≤ 6)
  | _ => decide (sdFmt w = 14)

/-- Does a local part of a board address lie in the resting tier? -/
def inRest (a : Nat) : Bool := match regionOf (localOf a) with | .lp _ => true | _ => false

/-- A record is outstanding while Queued, Waiting or Active, and while its abort waits for accesses in flight (R162, R166). -/
def RecState.live : RecState → Bool
  | .queued => true
  | .waiting => true
  | .active => true
  | .aborting _ => true
  | _ => false

/-- A record before its commit point that no abort has taken. -/
def RecState.open : RecState → Bool
  | .queued => true
  | .waiting => true
  | .active => true
  | _ => false

/-- Outstanding descriptors of an engine (OUTST). -/
def Engine.outst (g : Engine) : Nat := (g.recs.filter fun r => r.st.live).length

/-- Status of a descriptor at submission by compartment c, with or without a multicast destination (R154, R158, R160, R161, R277, Table 4.11). -/
def Dev.submitCheck (d : Dev) (many : Bool) (e c w : Nat) : Nat :=
  let own := d.ownSlot
  let srcFar := !(sdPlist w && !sdPlside w) && decide (slotOf (sdSrc w) ≠ own)
  let dstFar := (!(sdPlist w && sdPlside w) && decide (slotOf (sdDst w) ≠ own)) || many
  if 256 ≤ (d.engine e).outst then Config.busy
  else if !sdKindOk w || decide (sdClass w = 3) || decide (sdTotal w = 0) ||
      (sdPlist w && (decide (sdPldim w = 0) || decide (4 < sdPldim w))) then Config.range
  else if sdClass w ≠ 2 ∧ (srcFar || dstFar) then Config.range
  else if inRest (sdDst w) && !(sdPlist w && sdPlside w) && !decide (sdCodec w = 3) &&
      !(decide (sdCodec w = 0) && inRest (sdSrc w)) then Config.range
  else if d.ownerBit 6 (sdKey w) ≠ some c then Config.accessDenied
  else Config.ok

/-- A descriptor as compartment c submits it: its COMP is the submitter's (R158). -/
def sdOwned (c w : Nat) : Nat := w - sdComp w * 2 ^ 58 + c % 8 * 2 ^ 58

/-- Status of a descriptor at submission by compartment c. -/
def Dev.submitStatus (d : Dev) (e c w : Nat) : Nat := d.submitCheck (Config.multicastLeg (sdOwned c w)).isSome e c w

/-- ERRLOG and 0x4030 + e:06 take a record, a status and an element (Table 4.10, Table 4.12). -/
def Dev.errLog (d : Dev) (e n st el : Nat) : Dev :=
  let log := n % 65536 * 2 ^ 48 + st % 65536 * 2 ^ 32 + el % 2 ^ 32
  (d.setEngine e { d.engine e with errlog := log }).setNum (0x4030 + e) 6 log

/-- Put a descriptor of compartment c on engine e: the COMP field becomes the submitter's (R158), the record takes the next
number; SUBSTAT shows the outcome. Answers the status and the record number. Record numbers have 16 bits: they wrap at 65,536, and an old record
of the number goes (DESIGN CHOICE, assumption 180: R162 does not say how a number comes to be used again). A refused combination is a last
error without a record, for which the log shows record 0 (Table 4.12, assumption 181). -/
def Dev.submit (d : Dev) (e c w : Nat) (why : Purpose) : Nat × Nat × Dev :=
  let st := d.submitStatus e c w
  let g := d.engine e
  if st ≠ Config.ok then
    let d := if st = Config.busy then d.count (0x4030 + e) 7 1 else d
    let d := d.setEngine e { g with substat := st }
    (st, 0, if st = Config.range then d.errLog e 0 st 0 else d)
  else
    let n := g.next
    let recs := (g.recs.filter fun r => decide (r.num ≠ n)) ++ [⟨n, sdOwned c w, .queued, 0, 0, 0, why, []⟩]
    (Config.ok, n, d.setEngine e { g with recs := recs, next := (n + 1) % 65536, substat := n * 65536 + Config.ok })

/-- May a gondola reach an engine's control block (R162)? -/
def Dev.reaches (d : Dev) (g e : Nat) : Option Nat :=
  match d.gondolaComp g with
  | some c => if d.engineComp e = some c then some c else none
  | none => none

/-- Winch engines issue while the device is alive and no brake stops them (R390). -/
def Dev.winchOn (d : Dev) : Bool := d.alive && !d.ballast.brakeOn

/-- SUBMIT (R162). -/
def execSubmit (gondola engine desc : Nat) (s : State) : Host.Outcome State Fault Refusal :=
  onDev s fun _ d =>
    if !d.alive then d
    else match d.reaches gondola engine with
      | none => d.emit (.gondola gondola Config.accessDenied [])
      | some c => (d.submit engine c (desc % 2 ^ 512) .gondola).2.2.emit (.gondola gondola Config.ok [])

/-- START (R159, R162): an index at or above the count completes RANGE in SUBSTAT. -/
def execStart (gondola engine index : Nat) (s : State) : Host.Outcome State Fault Refusal :=
  onDev s fun _ d =>
    if !d.alive then d
    else match d.reaches gondola engine with
      | none => d.emit (.gondola gondola Config.accessDenied [])
      | some c =>
        let d := match (d.canopyOf c).active.descs[index % 65536]? with
          | some w => (d.submit engine c w .image).2.2
          | none => d.setEngine engine { d.engine engine with substat := Config.range }
        d.emit (.gondola gondola Config.ok [])

/-- Change one record of an engine. -/
def Dev.adjRec (d : Dev) (e n : Nat) (f : Rec → Rec) : Dev :=
  let g := d.engine e
  d.setEngine e { g with recs := g.recs.map fun r => if r.num = n then f r else r }

/-- The record of a number. -/
def Dev.recOf (d : Dev) (e n : Nat) : Option Rec := (d.engine e).recs.find? fun r => decide (r.num = n)

/-- Board accesses of one record that are not answered yet. -/
def Dev.farOpen (d : Dev) (e n : Nat) : Bool :=
  d.board.any fun b => match b.2.user with | .engine g r _ => decide (g = e) && decide (r = n) | _ => false

/-- ABTSTAT takes a record number and a status. -/
def Dev.abortStat (d : Dev) (e n st : Nat) : Dev :=
  d.setEngine e { d.engine e with abtstat := n % 65536 * 65536 + st }

/-- An abort whose last access in flight has ended is complete (R166): Aborted, and ABTSTAT reports it where ABORT asked for it. -/
def Dev.abortDone (d : Dev) (e n : Nat) : Dev :=
  match d.recOf e n with
  | some r =>
    match r.st with
    | .aborting report =>
      if d.farOpen e n then d
      else
        let d := d.adjRec e n fun r => { r with st := .aborted, status := Config.aborted, remote := [] }
        if report then d.abortStat e n Config.aborted else d
    | _ => d
  | none => d

/-- Abort one record (R166): before its commit point it issues nothing more and is Aborted once its board accesses in flight have ended. -/
def Dev.abortRec (d : Dev) (e n : Nat) (report : Bool) : Dev :=
  (d.adjRec e n fun r => if r.st.open then { r with st := .aborting report } else r).abortDone e n

/-- A write of ABORT (R166, Table 4.11): ABTSTAT shows ABORTED once the abort is complete, ALREADY_DONE for a descriptor that is Done or Failed,
RANGE for a number that is not outstanding and has not completed. -/
def Dev.abortCmd (d : Dev) (e n : Nat) : Dev :=
  match d.recOf e n with
  | none => d.abortStat e n Config.range
  | some r =>
    match r.st with
    | .done => d.abortStat e n Config.alreadyDone
    | .failed => d.abortStat e n Config.alreadyDone
    | .aborted => d.abortStat e n Config.range
    | .aborting _ => d.adjRec e n fun r => { r with st := .aborting true }
    | _ => d.abortRec e n true

/-- WINCH_ABORT (R166). -/
def execWinchAbort (gondola engine record : Nat) (s : State) : Host.Outcome State Fault Refusal :=
  onDev s fun _ d =>
    if !d.alive then d
    else match d.reaches gondola engine with
      | none => d.emit (.gondola gondola Config.accessDenied [])
      | some _ => (d.abortCmd engine (record % 65536)).emit (.gondola gondola Config.ok [])

/-- DESCRIPTOR_START (R163): the first descriptor that has not started, in order of submission, becomes Active when its gate and
the bound of 8 Active allow, or waits on its gate. -/
def execDescriptorStart (engine : Nat) (s : State) : Host.Outcome State Fault Refusal :=
  onDev s fun _ d =>
    if !d.winchOn then d
    else
      let g := d.engine engine
      match g.recs.find? fun r => decide (r.st = .queued) || decide (r.st = .waiting) with
      | none => d
      | some r =>
        let w := r.desc
        let open_ := !sdWaitEn w || decide (sdWaitVal w ≤ d.syncCtr (sdWaitCtr w))
        let active := (g.recs.filter fun r => decide (r.st = .active)).length
        if !open_ then d.adjRec engine r.num fun r => { r with st := .waiting }
        else if active < 8 then d.adjRec engine r.num fun r => { r with st := .active }
        else d

/-- A logical sync counter of a compartment (R111): 1,024 counters each. -/
def syncOf (c k : Nat) : Nat := c * 1024 + k % 1024

/-- The lowest-numbered engine of a compartment, on which the step controller submits. -/
def Dev.workEngine (d : Dev) (c : Nat) : Option Nat := (List.range 32).find? fun e => decide (d.engineComp e = some c)

/-- A stream descriptor of the step controller over one dimension; its SYNC names a counter of the compartment that the manual does not
name (assumption 184). -/
def stepDesc (src dst count stride fmt codec cls key c : Nat) : Nat :=
  src % 2 ^ 52 * 2 ^ 460 + dst % 2 ^ 52 * 2 ^ 408 + 2 ^ 392 + 2 ^ 344 + 2 ^ 296 + 2 ^ 248 + count % 65536 * 2 ^ 200 +
  stride % 2 ^ 32 * 2 ^ 168 + fmt % 16 * 2 ^ 164 + codec % 4 * 2 ^ 162 + cls % 4 * 2 ^ 160 + key % 64 * 2 ^ 154 +
  syncOf c (Config.controllerSync c) * 2 ^ 141 + c % 8 * 2 ^ 58

/-! Elements. -/

/-- The pointer-list template a number names in a compartment's active image (R104). -/
def Dev.template (d : Dev) (c n : Nat) : Option Nat := (d.canopyOf c).active.templates.find? fun t => decide (bits t 255 240 = n)

/-- Where one element goes, or why it cannot: source, destination, or a status (R105, R160). -/
def Dev.elemAddr (d : Dev) (x : Ctx) (w e pitch : Nat) : Nat × Nat × Nat :=
  let c := sdComp w
  let off := (List.range 5).foldl (fun (o : Int) k => o + (sdIdx w e k : Int) * sdS w k) 0
  let k := sdPldim w
  let i := sdIdx w e k
  let inner := (List.range k).foldl (fun p j => p * sdC w j) 1
  let run (n : Nat) (base : Nat) : Nat :=
    if sdCodec w ≠ 0 then addOff base (n * pitch : Nat)
    else if sdDcnt w = 0 then addOff base (64 * n : Nat)
    else addOff base ((n / sdDcnt w : Nat) * sdDstr w + (n % sdDcnt w * 64 : Nat))
  if !sdPlist w then (Config.ok, addOff (sdSrc w) off, run e (sdDst w))
  else match d.template c (sdPlnum w) with
    | none => (Config.range, 0, 0)
    | some t =>
      if bits t 231 216 ≤ i then (Config.range, 0, 0)
      else
        let ent := leNat (x.mem.bytes (bits t 48 0 + 16 * i) 16)
        if bits ent 127 112 ≠ tgetD d.stepser c 0 then (Config.aborted, 0, 0)
        else
          let base := bits ent 48 0 + bits t 191 128
          let own := d.ownSlot % 8 * 2 ^ 49
          if !sdPlside w then
            (Config.ok, addOff (own + base % 2 ^ 49) ((sdSrc w : Int) + off - (i : Int) * sdS w k), run e (sdDst w))
          else (Config.ok, addOff (sdSrc w) off, run (e % inner) (addOff (own + base % 2 ^ 49) (sdDst w)))

/-- Bytes of source that an element meets: its line, its directory entry, or the used part of its frame (R148, Table 4.9). -/
def elemBytes (x : Ctx) (w src : Nat) : Nat :=
  if sdCodec w = 0 then 64
  else if sdFmt w = 14 then 128 + bits (leNat (x.mem.bytes (localOf src) 64)) 174 164 * 4096
  else 8

/-- Does a transfer's source touch a weight granule or weight line, at any of its elements (R153)? -/
def Dev.weightSource (d : Dev) (x : Ctx) (w : Nat) : Bool :=
  (List.range (sdTotal w)).any fun e =>
    let (st, src, _) := d.elemAddr x w e 0
    decide (st = Config.ok) && decide (slotOf src = d.ownSlot) && x.mem.touchesWeight (localOf src) (elemBytes x w src)

/-- The mark unit round a destination of element e, where the elements up to e have covered all of it (R153). -/
def Dev.coveredUnit (d : Dev) (x : Ctx) (w e dst : Nat) : Option (Nat × Nat) :=
  let sz := match regionOf (localOf dst) with | .facet _ => 128 | _ => 65536
  let base := localOf dst / sz * sz
  let hit (a : Nat) : Bool := (List.range (e + 1)).any fun i =>
    let b := localOf (d.elemAddr x w i 0).2.2
    decide (b ≤ a) && decide (a < b + 64)
  if (List.range sz).all fun k => hit (base + k) then some (base, sz) else none

/-- Status of the addresses of an element that moves n bytes to m bytes, to a multicast destination or not (R130, R133, R151, R153, R154,
R161). -/
def Dev.elemCheck (d : Dev) (x : Ctx) (many : Bool) (w src dst n m : Nat) : Nat :=
  let c := sdComp w
  let own := d.ownSlot
  let srcFar := decide (slotOf src ≠ own)
  let dstFar := !many && decide (slotOf dst ≠ own)
  let a := if srcFar then Config.ok else d.wordStatus c (localOf src) n
  let b := if dstFar then Config.ok else d.wordStatus c (localOf dst) m
  if a ≠ Config.ok then a
  else if b ≠ Config.ok then b
  else if (srcFar || dstFar) && decide (sdClass w ≠ 2) then Config.range
  else if inRest dst && !decide (sdCodec w = 3) && !(decide (sdCodec w = 0) && inRest src) then Config.range
  else if (dstFar || many) && (decide (sdCodec w = 2) || decide (sdCodec w = 1 ∧ sdFmt w ≠ 14)) then Config.accessDenied
  else if (dstFar || many || (inRest dst && decide (sdCodec w ≠ 3))) && d.weightSource x w then Config.accessDenied
  else Config.ok

/-- Status of the addresses of an element. -/
def Dev.elemStatus (d : Dev) (x : Ctx) (w src dst n m : Nat) : Nat := d.elemCheck x (Config.multicastLeg w).isSome w src dst n m

/-- The element fails (R165): the first failure stands; DESCRIPTOR_FAIL ends the descriptor. -/
def Dev.elemFail (d : Dev) (e n el st : Nat) : Dev :=
  d.adjRec e n fun r => if r.status = 0 then { r with status := st, errElem := el } else r

/-- An element is done and nothing of it is under way any more. -/
def Dev.elemDone (d : Dev) (e n el : Nat) : Dev :=
  d.adjRec e n fun r => { r with elem := max r.elem (el + 1), remote := r.remote.filter fun f => decide (f.elem ≠ el) }

/-- Keep the far part of an element with its record. -/
def Dev.keepFar (d : Dev) (e n : Nat) (f : FarElem) : Dev :=
  d.adjRec e n fun r =>
    { r with
      elem := max r.elem (f.elem + 1)
      remote := if r.remote.any fun g => decide (g.elem = f.elem) then r.remote.map fun g => if g.elem = f.elem then f else g
        else r.remote ++ [f] }

/-- Status of a key slot for data of an identity (R150): KEY_RETIRED, AUTH_FAIL or OK; wsid none for a page. -/
def Dev.keyStatus (d : Dev) (slot : Nat) (wsid : Option Nat) (tagOk : Bool) : Nat × Nat :=
  match tget d.keys slot with
  | none => (Config.authFail, 0)
  | some k =>
    if k.kind = 5 then (Config.keyRetired, 0)
    else
      let kindOk := match wsid with | some v => decide (k.kind = 3) && decide (k.wsid = v) | none => decide (k.kind = 2)
      if !kindOk || !tagOk then (Config.authFail, 0) else (Config.ok, k.key)

/-- XOR a string with a key's stream (R149). -/
def cipher (key iv : Nat) (bs : List Byte) : List Byte :=
  (List.range bs.length).map fun i => bs.getD i 0 ^^^ Config.keystream key iv i

/-- Pitch of a frame with P bytes of page data (R148). -/
def framePitch (p : Nat) : Nat := (128 + p + 4095) / 4096 * 4096

/-- A span of board space, once far reads have brought all of its lines. -/
def FarElem.bytes (f : FarElem) (a n : Nat) : Option (List Byte) :=
  let lo := a / 64 * 64
  let line (l : Nat) : Option (List Byte) := f.got.findSome? fun g =>
    if g.1 ≤ l ∧ l + 64 ≤ g.1 + g.2.length then some ((g.2.drop (l - g.1)).take 64) else none
  let ls := (List.range (ceilDiv (a + n - lo) 64)).map fun i => line (lo + 64 * i)
  if ls.all Option.isSome then some (((ls.flatMap fun l => l.getD []).drop (a - lo)).take n) else none

/-- What an element does next: it fails, it waits for n bytes of board space, or it writes bytes, as weight data or not. -/
inductive Move where
  | fail (status : Nat)
  | read (addr n : Nat)
  | put (data : List Byte) (weight : Bool)
  deriving DecidableEq, Repr

/-- Source bytes of an element: what far reads brought, or local memory with its errors and POISON (R65, R173); else what the element does
instead. -/
def Dev.source (d : Dev) (x : Ctx) (f : FarElem) (a n : Nat) (env : MemEnv) : Dev × Except Move (List Byte) :=
  if slotOf a ≠ d.ownSlot then
    (d, match f.bytes a n with | some bs => .ok bs | none => .error (.read a n))
  else
    let d := d.memErrors x (localOf a) n env
    (d, if x.mem.anyPoison (localOf a) n then .error (.fail Config.poison) else .ok (x.mem.bytes (localOf a) n))

/-- One line of a raw move (R160, CODEC 0). -/
def Dev.lineMove (d : Dev) (x : Ctx) (w : Nat) (f : FarElem) (env : MemEnv) : Dev × Move :=
  let st := if f.src % 64 ≠ 0 then Config.range else d.elemStatus x w f.src f.dst 64 64
  if st ≠ Config.ok then (d, .fail st)
  else match d.source x f f.src 64 env with
    | (d, .error m) => (d, m)
    | (d, .ok bs) => (d, .put bs (d.weightSource x w))

/-- One stored tile (R145 to R147, R150, R153, CODEC 1 and 2). The tile lies on the device that holds the directory. -/
def Dev.tileMove (d : Dev) (x : Ctx) (w : Nat) (f : FarElem) (env : XferEnv) : Dev × Move :=
  let c := sdComp w
  let st := if f.src % 8 ≠ 0 ∨ f.dst % 65536 ≠ 0 then Config.range else d.elemStatus x w f.src f.dst 8 65536
  if st ≠ Config.ok then (d, .fail st)
  else match d.source x f f.src 8 env.mem with
    | (d, .error m) => (d, m)
    | (d, .ok es) =>
      let ent := leNat es
      let l := bits ent 63 21 * 64
      let n := bits ent 10 0 * 64
      let st := if !(match regionOf l with | .lp _ => true | _ => false) then Config.accessDenied
        else if slotOf f.src ≠ d.ownSlot then Config.ok else d.accessStatus c l n
      if st ≠ Config.ok then (d, .fail st)
      else match d.source x f (slotOf f.src * 2 ^ 49 + l) n env.mem with
        | (d, .error m) => (d, m)
        | (d, .ok bs) =>
          let h := leNat (bs.take 64)
          let stlen := bits h 175 159
          let plen := bits h 158 142
          let (st, key) := d.keyStatus (sdKey w) (some (bits h 287 224)) env.tagOk
          let shape := decide (bits h 31 16 = 0x4854) && decide (bits h 15 8 = 1) && decide (bits h 141 138 = sdFmt w) &&
            decide (1 ≤ stlen) && decide (stlen ≤ 65536) && decide (1 ≤ plen) && decide (plen ≤ 65536) &&
            decide (64 + stlen ≤ n) && !(h.testBit 137 && decide (sdCodec w = 1))
          if st ≠ Config.ok then (d, .fail st)
          else if !shape then (d, .fail Config.range)
          else
            let plain := cipher key (bits h 383 288) ((bs.drop 64).take stlen)
            match if h.testBit 137 then ransDecode plain plen else some (plain.take plen) with
            | none => (d, .fail Config.poison)
            | some tile => (d, .put (lpad 65536 0 tile) true)

/-- A frame header without its TAG, or with another TAG and IV. -/
def headerWith (h tag : Nat) (iv : Option Nat) : Nat :=
  let low := match iv with
    | some v => h % 2 ^ 288 + v % 2 ^ 64 * 2 ^ 288
    | none => h % 2 ^ 384
  low + tag % 2 ^ 128 * 2 ^ 384

/-- The header and the whole of the frame at an element's source. -/
def Dev.frameSource (d : Dev) (x : Ctx) (w : Nat) (f : FarElem) (env : MemEnv) : Dev × Except Move (Nat × List Byte) :=
  let st := if f.src % 4096 ≠ 0 ∨ f.dst % 4096 ≠ 0 then Config.range else d.elemStatus x w f.src f.dst 64 64
  if st ≠ Config.ok then (d, .error (.fail st))
  else match d.source x f f.src 64 env with
    | (d, .error m) => (d, .error m)
    | (d, .ok hs) =>
      let h := leNat hs
      let n := 128 + bits h 174 164 * 4096
      let st := d.elemStatus x w f.src f.dst n n
      if st ≠ Config.ok then (d, .error (.fail st))
      else match d.source x f f.src n env with
        | (d, .error m) => (d, .error m)
        | (d, .ok bs) => (d, .ok (h, bs))

/-- One stored frame in plaintext (R148, R152, CODEC 1 with FMT 0xE). -/
def Dev.liftFrame (d : Dev) (x : Ctx) (w : Nat) (f : FarElem) (env : XferEnv) : Dev × Move :=
  match d.frameSource x w f env.mem with
  | (d, .error m) => (d, m)
  | (d, .ok (h, bs)) =>
    let (st, key) := d.keyStatus (sdKey w) none env.tagOk
    let kind := bits h 15 8
    if st ≠ Config.ok then (d, .fail st)
    else if bits h 31 16 ≠ 0x4854 ∨ (kind ≠ 2 ∧ kind ≠ 3) then (d, .fail Config.range)
    else (d, .put (leBytes 64 (headerWith h 0 none) ++ List.replicate 64 0 ++ cipher key (bits h 383 288) (bs.drop 128)) (d.weightSource x w))

/-- A frame in stored form: header h and page data under a compartment's page key; it takes the spill count as its IV (R149, R152). The count
stops at the top of its range (R477). -/
def Dev.sealFrame (d : Dev) (c key h : Nat) (page : List Byte) : Dev × List Byte :=
  let iv := tgetD d.spill c 0
  let data := cipher key iv page
  let h := headerWith h 0 (some iv)
  let tag := Config.gcmTag key iv (leBytes 48 h ++ data)
  ({ d with spill := tset d.spill c (min (iv + 1) (2 ^ 64 - 1)) }, leBytes 64 (headerWith h tag none) ++ List.replicate 64 0 ++ data)

/-- One working-tier frame in stored form for a resting tier (R148, R152, CODEC 3). -/
def Dev.spillFrame (d : Dev) (x : Ctx) (w : Nat) (f : FarElem) (env : XferEnv) : Dev × Move :=
  match d.frameSource x w f env.mem with
  | (d, .error m) => (d, m)
  | (d, .ok (h, bs)) =>
    let jobP := match tget d.jobs (bits h 163 156) with | some b => b.pageSize | none => 0
    let (st, key) := d.keyStatus (sdKey w) none true
    if bits h 174 164 * 4096 ≠ jobP ∨ !inRest f.dst then (d, .fail Config.range)
    else if st ≠ Config.ok then (d, .fail st)
    else
      let (d, out) := d.sealFrame (sdComp w) key h (bs.drop 128)
      (d, .put out (d.weightSource x w))

/-- The pitch of the frame a descriptor's element meets: P from the frame at its source address, or from the job where the source is far. -/
def Dev.elemPitch (d : Dev) (x : Ctx) (w e : Nat) : Nat :=
  if sdFmt w = 14 then
    let a := (d.elemAddr x w e 0).2.1
    if slotOf a = d.ownSlot then framePitch (bits (leNat (x.mem.bytes (localOf a) 64)) 174 164 * 4096)
    else framePitch ((d.jobs.findSome? fun p => if p.2.comp = sdComp w ∧ p.2.st ≠ .ended then some p.2.pageSize else none).getD 0)
  else 65536

/-- The multicast leg of this member that a number names, with its other members (R277). -/
def Dev.multicast (d : Dev) (c leg : Nat) : Option (Nat × Nat) :=
  d.legs.findSome? fun l =>
    match tget d.jobs (l.1 / 4096) with
    | some b => if l.1 % 4096 = leg ∧ b.comp = c ∧ b.st ≠ .ended ∧ l.2.kind = 1 ∧ l.2.srcRank = b.rank ∧ !l.2.broken then some (l.1, b.slice - 1)
        else none
    | none => none

/-- Bytes of the longest board-space request: 4,096 lines (Table 8.9). -/
def requestBytes : Nat := 262144

/-- The next part of an element's bytes leaves for its far destination, or on the multicast leg to every other member; DSYNC goes with the
last part of the last element, when everything before it is acknowledged (R164, R171, R277). -/
def Dev.sendPart (d : Dev) (e : Nat) (r : Rec) (f : FarElem) : Dev :=
  let w := r.desc
  let c := sdComp w
  let part := f.out.take requestBytes
  let rest := f.out.drop requestBytes
  let last := sdDsyncEn w && decide (f.elem + 1 = sdTotal w) && rest.isEmpty
  let dsync := if last then some (sdDsync w) else none
  let user := BoardUser.engine e r.num f.elem
  let lines := max 1 (ceilDiv part.length 64)
  let (st, d) := match Config.multicastLeg w with
    | none => d.boardRequest c user 1 f.dst lines 0 dsync part
    | some leg => match d.multicast c leg with
      | none => (Config.noTarget, d.count 0x4070 3 1)
      | some (key, n) => (Config.ok, if n = 0 then d else d.boardSend key user 1 f.dst lines 0 dsync part n)
  if st ≠ Config.ok then d.elemFail e r.num f.elem st
  else d.keepFar e r.num { f with dst := f.dst + part.length, out := rest, sent := true }

/-- Bytes land at a local destination (R153): as weight data they mark what they touch; else they clear what the transfer has covered. -/
def Dev.landPart (d : Dev) (x : Ctx) (e : Nat) (r : Rec) (f : FarElem) (data : List Byte) (weight : Bool) : Dev :=
  let a := localOf f.dst
  let d := (d.memOp (if weight then .writeMarked a data else .write a data)).count (0x4030 + e) 4 data.length
  if weight || decide (sdCodec r.desc ≠ 0) then d
  else match d.coveredUnit x r.desc f.elem f.dst with
    | some (u, n) => d.memOp (.unmark u n)
    | none => d

/-- Carry an element's move out. Far reads go out together, within the engine's and the device's bounds (R172); a write waits for nothing
but the elements before it. -/
def Dev.carry (d : Dev) (x : Ctx) (e : Nat) (r : Rec) (f : FarElem) (env : MemEnv) : Move → Dev
  | .fail st => d.elemFail e r.num f.elem st
  | .read a n =>
    let lo := a / 64 * 64
    let bytes := ceilDiv (a + n - lo) 64 * 64
    let k := ceilDiv bytes requestBytes
    let waiting := d.board.any fun b => decide (b.2.user = .engine e r.num f.elem)
    if waiting || decide (112 < d.engineReads e + k) || decide (4096 < d.remoteReads + k) then d
    else
      let d := d.keepFar e r.num f
      (List.range k).foldl (fun d i =>
        let m := min requestBytes (bytes - requestBytes * i)
        let (st, d) := d.boardRequest (sdComp r.desc) (.engine e r.num f.elem) 0 (lo + requestBytes * i) (m / 64) 0 none []
        if st ≠ Config.ok then d.elemFail e r.num f.elem st else d) d
  | .put data weight =>
    let many := (Config.multicastLeg r.desc).isSome
    let here := many || decide (slotOf f.dst = d.ownSlot)
    let d := if here then d.burstErrors x (localOf f.dst) env else d
    if !d.alive then d
    else
      let d := if here then d.landPart x e r f data weight else d
      if here && !many then d.elemDone e r.num f.elem
      else d.sendPart e r { f with out := data }

/-- What an element does next. -/
def Dev.nextMove (d : Dev) (x : Ctx) (w : Nat) (f : FarElem) (env : XferEnv) : Dev × Move :=
  match sdCodec w with
  | 0 => d.lineMove x w f env.mem
  | 3 => d.spillFrame x w f env
  | _ => if sdFmt w = 14 then d.liftFrame x w f env else d.tileMove x w f env

/-- ELEMENT_TRANSFER (R160, R165, R169, R172): the oldest element of an Active descriptor that is not done goes on; elements land in order. While
it waits for the board, the next line of a raw move from board space may be read ahead. -/
def execElementTransfer (engine record : Nat) (env : XferEnv) (s : State) : Host.Outcome State Fault Refusal :=
  onDev s fun x d =>
    if !d.winchOn then d
    else match d.recOf engine record with
      | none => d
      | some r =>
        let w := r.desc
        if r.st ≠ .active ∨ r.status ≠ 0 then d
        else
          let fresh : Option (Nat × FarElem) :=
            if sdTotal w ≤ r.elem then none
            else
              let (st, src, dst) := d.elemAddr x w r.elem (d.elemPitch x w r.elem)
              some (st, ⟨r.elem, src, dst, [], [], false, 0⟩)
          match r.remote, fresh with
          | [], none => d
          | [], some (st, f) =>
            if st ≠ Config.ok then d.elemFail engine record f.elem st
            else
              let (d, m) := d.nextMove x w f env
              if d.alive then d.carry x engine r f env.out m else d
          | h :: _, fresh =>
            let waits := h.sent || (d.board.any fun b => decide (b.2.user = .engine engine record h.elem))
            if h.err ≠ 0 then d.elemFail engine record h.elem h.err
            else if !waits then
              let (d, m) := d.nextMove x w h env
              if d.alive then d.carry x engine r h env.out m else d
            else match fresh with
              | some (st, f) =>
                if st = Config.ok ∧ sdCodec w = 0 ∧ f.src % 64 = 0 ∧ slotOf f.src ≠ d.ownSlot ∧ d.elemStatus x w f.src f.dst 64 64 = Config.ok then
                  d.carry x engine r f env.out (.read f.src 64)
                else d
              | none => d

/-! Replies to an engine's board accesses (R164, R169, R282). -/

/-- The data of a far read, or the status it failed with, is kept with its element. -/
def Dev.readReply (d : Dev) (e n el addr status : Nat) (data : List Byte) : Dev :=
  (d.adjRec e n fun r => { r with remote := r.remote.map fun f =>
    if f.elem ≠ el then f
    else if status ≠ Config.ok then { f with err := if f.err = 0 then status else f.err }
    else { f with got := f.got ++ [(addr, data)] } }).abortDone e n

/-- A far write is acknowledged: the next part of the element's bytes leaves, or the element is done; a refusal fails the element. -/
def Dev.writeReply (d : Dev) (e n el lines status : Nat) : Dev :=
  if status ≠ Config.ok then (d.elemFail e n el status).abortDone e n
  else
    let d := d.count (0x4030 + e) 4 (64 * lines)
    match d.recOf e n with
    | none => d
    | some r =>
      if r.st ≠ .active ∨ r.status ≠ 0 then d.abortDone e n
      else match r.remote.find? fun f => decide (f.elem = el) with
        | none => d
        | some f =>
          if d.board.any fun b => decide (b.2.user = .engine e n el) then d
          else if f.out.isEmpty then d.elemDone e n el
          else d.sendPart e r f

/-- A page of a prefix entry loses a user (R207). -/
def Job.dropUser (b : Job) (h : Nat) : Job :=
  match b.prefixes.find? fun e => decide (leNat e.hash = h) && decide (0 < e.users) with
  | none => b
  | some e =>
    let others := b.prefixes.filter fun f => decide (f.hash ≠ e.hash) || decide (f.gone ≠ e.gone)
    if 1 < e.users then { b with prefixes := others ++ [{ e with users := e.users - 1 }] }
    else if e.shared && !e.gone then { b with prefixes := others ++ [{ e with users := 0 }] }
    else
      match e.place with
      | .working fr => { b with prefixes := others, freeFrames := sinsert b.freeFrames fr }
      | _ => { b with prefixes := others }

/-! The end of a descriptor that the step controller submitted (R184, R198, R204, R205). -/

/-- Change one page of a request. -/
def Dev.adjPage (d : Dev) (slot page : Nat) (f : Page → Page) : Dev :=
  { d with reqs := tadj d.reqs slot fun q => { q with pages := match q.pages[page]? with
      | some p => lset q.pages page (f p)
      | none => q.pages } }

/-- Change a job's record. -/
def Dev.adjJob (d : Dev) (j : Nat) (f : Job → Job) : Dev := { d with jobs := tadj d.jobs j f }

/-- Change a generation record of a compartment's catalog. -/
def Dev.adjGen (d : Dev) (c wset recB : Nat) (f : GenRec → GenRec) : Dev :=
  let k := d.catalog c
  d.setCatalog c { k with entries := tadj k.entries wset fun e => if recB = 1 then { e with b := f e.b } else { e with a := f e.a } }

/-- A record by its place. -/
def Dev.genAt (d : Dev) (c wset recB : Nat) : GenRec :=
  match tget (d.catalog c).entries wset with
  | some e => if recB = 1 then e.b else e.a
  | none => GenRec.none

/-- A record turns bad (R184). -/
def Dev.markBad (d : Dev) (c wset recB st : Nat) : Dev :=
  (d.adjGen c wset recB fun g => { g with res := 3, badst := st, rest := [] }).count (0x5100 + c) 6 1

/-- Submit the descriptors of a lift that still wait, in order, as far as the engine has room for records (R161, R184); one that is refused
otherwise makes the record bad. -/
def Dev.submitLift (d : Dev) (e j c wset recB : Nat) : List Nat → Dev
  | [] => d.adjGen c wset recB fun g => { g with rest := [] }
  | w :: ws =>
    let (st, _, d') := d.submit e c w (.liftGen j wset recB)
    if st = Config.ok then d'.submitLift e j c wset recB ws
    else if st = Config.busy then d'.adjGen c wset recB fun g => { g with rest := w :: ws }
    else d'.markBad c wset recB st

/-- A lift of a job goes on: what waits is submitted. -/
def Dev.moreLift (d : Dev) (j wset recB : Nat) : Dev :=
  match tget d.jobs j with
  | none => d
  | some b =>
    let g := d.genAt b.comp wset recB
    if g.res ≠ 1 ∨ g.rest = [] then d
    else match d.workEngine b.comp with
      | some e => d.submitLift e j b.comp wset recB g.rest
      | none => d

/-- A descriptor is Done: what the step controller does next with lifts and pages. -/
def Dev.pageDone (d : Dev) : Purpose → Dev
  | .liftGen j wset recB => d.moreLift j wset recB
  | .spillPage j slot page =>
    match (tget d.reqs slot).bind fun q => q.pages[page]? with
    | some ⟨.spilling fr dest _, _, _, _⟩ =>
      ((d.adjPage slot page fun p => { p with place := .resting dest }).adjJob j fun b =>
        { b with freeFrames := sinsert b.freeFrames fr }).count (0x5300 + j) 0x0A 1
    | _ => d
  | .liftPage j slot page =>
    match (tget d.reqs slot).bind fun q => q.pages[page]? with
    | some ⟨.lifting _ fr, _, _, _⟩ =>
      (d.adjPage slot page fun p => { p with place := .working fr }).count (0x5300 + j) 0x0B 1
    | _ => d
  | _ => d

/-- The facets of a job. -/
def Job.facets (b : Job) : List Nat := (List.range (128 * b.groups.length)).map fun l => physFacet b.groups l

/-- Do all facets of the Running and Draining jobs of a compartment hold a valid shadow copy (R118)? -/
def Dev.shadowsValid (d : Dev) (c : Nat) : Bool :=
  d.jobs.all fun p => decide (p.2.comp ≠ c) || decide (p.2.st ≠ .running ∧ p.2.st ≠ .draining) || p.2.facets.all fun n => (d.facet n).shadow.valid

/-- Is a descriptor one of a job's: submitted for it by the step controller, or of its image or a gondola and either touching its facets or
without another job of the compartment that could have it? -/
def Dev.descOfJob (d : Dev) (j : Nat) (b : Job) (r : Rec) : Bool :=
  let ns := b.facets
  let alone := d.jobs.all fun p => decide (p.1 = j) || decide (p.2.comp ≠ b.comp) || decide (p.2.st ≠ .running ∧ p.2.st ≠ .draining)
  let at_ (a : Nat) : Bool := match regionOf (localOf a) with | .facet n => ns.contains n | _ => false
  let touches := (!(sdPlist r.desc && !sdPlside r.desc) && at_ (sdSrc r.desc)) || (!(sdPlist r.desc && sdPlside r.desc) && at_ (sdDst r.desc))
  match r.purpose with
  | .liftGen i _ _ => decide (i = j)
  | .spillPage i _ _ => decide (i = j)
  | .liftPage i _ _ => decide (i = j)
  | _ => decide (sdComp r.desc = b.comp) && (alone || touches)

/-- The jobs whose step an image's descriptor serves (R105, R198): those it belongs to, or, where it touches no job's facets, every job of the
compartment that runs (DESIGN CHOICE, assumption 182). -/
def Dev.stepJobs (d : Dev) (r : Rec) : List Nat :=
  let run (b : Job) : Bool := decide (b.comp = sdComp r.desc) && decide (b.st = .running ∨ b.st = .draining)
  let own := (d.jobs.filter fun p => run p.2 && d.descOfJob p.1 p.2 r).map Prod.fst
  if own.isEmpty then d.jobsWhere run else own

/-- The step that a descriptor serves ends as a stuck one does (R25). -/
def Dev.stepFails (d : Dev) (x : Ctx) (r : Rec) : Dev := (d.stepJobs r).foldl (fun d j => d.jobFault x j Config.aborted) d

/-- A descriptor Failed (Table 5.7); one of a gondola that read a list entry of another step fails its step too (R105). -/
def Dev.descFailed (d : Dev) (x : Ctx) (st : Nat) (w : Nat) (r : Rec) : Purpose → Dev
  | .gondola => if st = Config.aborted then d.stepFails x r else d
  | .image => d.stepFails x r
  | .liftGen j wset recB =>
    match tget d.jobs j with
    | none => d
    | some b =>
      let d := { d with keys := tadj d.keys (sdKey w) fun k => if k.kind = 3 then { k with wsid := 0, key := 0 } else k }
      d.markBad b.comp wset recB st
  | .spillPage j slot page =>
    match (tget d.reqs slot).bind fun q => q.pages[page]? with
    | some ⟨.spilling fr dest t, _, _, _⟩ =>
      if t = 0 then d.adjPage slot page fun p => { p with place := .spilling fr dest 1 }
      else (d.adjPage slot page fun p => { p with place := .working fr }).jobFault x j st
    | _ => d
  | .liftPage j slot page =>
    match (tget d.reqs slot).bind fun q => q.pages[page]? with
    | some ⟨.lifting a fr, _, _, _⟩ =>
      let d := d.adjJob j fun b => { b with freeFrames := sinsert b.freeFrames fr }
      if st = Config.keyRetired then
        let d := d.adjPage slot page fun p => { p with place := .resting a }
        { d with reqs := tadj d.reqs slot fun q => { q with retire := some Config.keyRetired } }
      else
        -- a member that is not the lead tells it (assumption 186)
        let d := if 16384 ≤ slot then d.tell j 8 [slot % 16384, page] else d
        let back := ((tget d.reqs slot).map fun q => (q.pages.drop page).filterMap fun p =>
          match p.place with | .working fr => some fr | _ => none).getD []
        let shares := ((tget d.reqs slot).map fun q => (q.pages.drop page).filterMap fun p =>
          match p.place with | .shared h _ => some h | _ => none).getD []
        let d := d.adjJob j fun b => shares.foldl Job.dropUser { b with freeFrames := back.foldl sinsert b.freeFrames }
        -- the pages from this one on are rebuilt: the history from there runs again as prefill
        { d with reqs := tadj d.reqs slot fun q =>
            { q with
              pages := (q.pages.take page) ++ (q.pages.drop page).map fun p => { p with place := .reserved, fill := 0 }
              input := (q.history.take q.kv ++ q.input).drop (64 * page)
              kv := 64 * page
              replayTo := max q.replayTo q.kv
              replayed := true
              st := if q.st = .decode then .prefill else q.st } }
    | _ => d

/-- DESCRIPTOR_COMPLETE (R164, Table 4.14): every element is done and every board access acknowledged: Done, SYNC + 1, DSYNC + 1, for the step
controller's descriptors too. -/
def execDescriptorComplete (engine record : Nat) (s : State) : Host.Outcome State Fault Refusal :=
  onDev s fun _ d =>
    if !d.alive then d
    else match d.recOf engine record with
      | none => d
      | some r =>
        let w := r.desc
        if r.st ≠ .active ∨ r.status ≠ 0 ∨ r.elem < sdTotal w ∨ r.remote ≠ [] then d
        else
          let d := d.adjRec engine record fun r => { r with st := .done }
          let d := d.addSync (sdSync w) 1
          let far := (Config.multicastLeg w).isNone && !(sdPlist w && sdPlside w) && decide (slotOf (sdDst w) ≠ d.ownSlot)
          let d := if sdDsyncEn w && !far then d.addSync (sdDsync w) 1 else d
          (d.count (0x4030 + engine) 3 1).pageDone r.purpose

/-- Forget the unanswered board accesses of a record. -/
def Dev.dropFar (d : Dev) (e n : Nat) : Dev :=
  { d with board := tfilter d.board fun _ b => match b.user with | .engine g r _ => !(decide (g = e) && decide (r = n)) | _ => true }

/-- DESCRIPTOR_FAIL (R105, R165): ERRLOG takes record, status and element; authentication failures count; the compartment's gondolas are
interrupted; a list entry of another step ends the descriptor ABORTED. -/
def execDescriptorFail (engine record : Nat) (s : State) : Host.Outcome State Fault Refusal :=
  onDev s fun x d =>
    if !d.alive then d
    else match d.recOf engine record with
      | none => d
      | some r =>
        if !r.st.open || decide (r.status = 0) then d
        else
          let d := (d.adjRec engine record fun r =>
            { r with st := if r.status = Config.aborted then .aborted else .failed, remote := [] }).dropFar engine record
          let d := d.errLog engine record r.status r.errElem
          let d := if r.status = Config.authFail ∨ r.status = Config.keyRetired then d.count (0x4030 + engine) 5 1 else d
          (d.emit (.gondolaIrq (sdComp r.desc) engine record r.status)).descFailed x r.status r.desc r r.purpose

end Sys2Proof.Machine
end

