-- ==== Sys2Proof/Machine/Serve.lean ====
section
/-!
DEFINITION. What the serving loop's commands share (chapter 5): image-header fields, generation records, page and frame
accounting, masks, the sampler, retirement of requests, and the end of a job.
-/

namespace Sys2Proof.Machine

/-! Image header (Table 3.7). -/
def hSigner (h : Nat) : List Byte := leBytes 32 (bits h 1023 768)
def hArch (h : Nat) : List Byte := leBytes 32 (bits h 767 512)
def hImgLen (h : Nat) : Nat := bits h 511 448
def hSections (h : Nat) : Nat := bits h 447 432
def hTps (h : Nat) : Nat := bits h 431 416
def hStepBeats (h : Nat) : Nat := bits h 415 400
def hSlice (h : Nat) : Nat := bits h 399 384
def hGroups (h : Nat) : Nat := bits h 383 376
def hRounds (h : Nat) : Nat := bits h 375 368
def hColGroups (h : Nat) : Nat := bits h 367 360
def hKeel (h : Nat) : Nat := bits h 359 352
def hProfiles (h : Nat) : Nat := bits h 351 348
def hShapes (h : Nat) : Nat := bits h 347 342
/-- Planned rows of a group: RPG = TPS / GROUPS (R192). -/
def hRpg (h : Nat) : Nat := hTps h / max 1 (hGroups h)

/-- Micro-seconds as beats of 1.024 µs, rounded up (R211). -/
def beatsOf (us : Nat) : Nat := ceilDiv (us * 125) 128

/-! Generation records (R182 to R187). -/

/-- Every record of a compartment's catalog: entry, 1 for record B, the record. -/
def Dev.gens (d : Dev) (c : Nat) : List (Nat × Nat × GenRec) :=
  (d.catalog c).entries.flatMap fun p => [(p.1, 0, p.2.a), (p.1, 1, p.2.b)]

/-- The records of one entry that are not empty. -/
def Dev.recsOf (d : Dev) (c wset : Nat) : List (Nat × GenRec) :=
  match tget (d.catalog c).entries wset with
  | some e => [(0, e.a), (1, e.b)].filter fun r => decide (r.2.role ≠ 0)
  | none => []

/-- The record that an ADMIT's GEN names: 0 is the current one; an entry without a current generation names none (R189, Table 5.5). -/
def Dev.genNamed (d : Dev) (c wset gen : Nat) : Option (Nat × GenRec) :=
  let rs := d.recsOf c wset
  if rs.any fun r => decide (r.2.role = 1) then rs.find? fun r => if gen = 0 then decide (r.2.role = 1) else decide (r.2.gen = gen)
  else none

/-- One request more or less is bound to a record (HOLD); an old record that none holds becomes empty (R185). -/
def Dev.hold (d : Dev) (c wset recB : Nat) (up : Bool) : Dev :=
  d.adjGen c wset recB fun g =>
    if up then { g with hold := g.hold + 1 }
    else if g.role = 3 ∧ g.hold ≤ 1 then GenRec.none else { g with hold := g.hold - 1 }

/-- Is a generation resident on every member (R184)? -/
def GenRec.ready (g : GenRec) : Bool := decide (g.res = 2) && g.away.isEmpty

/-- Does a step of any job of compartment c, staged or in progress, hold rows of a generation? -/
def Dev.stepping (d : Dev) (c wset gen : Nat) : Bool :=
  d.jobs.any fun p => decide (p.2.comp = c) && (p.2.staged.toList ++ p.2.step.toList).any fun s =>
    s.groups.any fun g => !g.void && decide (g.wset = wset) && decide (g.gen = gen)

/-- The lowest free run of tiles granules in a job's weight region (R184). -/
def Dev.freeRun (d : Dev) (j tiles : Nat) : Option Nat :=
  match tget d.jobs j with
  | none => none
  | some b =>
    let lo := ceilDiv (b.wbase - workBase) 65536
    let hi := (b.wbase - workBase + b.wlen) / 65536
    let used := (d.gens b.comp).filterMap fun r =>
      if (r.2.2.res = 1 ∨ r.2.2.res = 2) ∧ r.2.2.liftJob = j ∧ r.2.2.role ≠ 0 then some (r.2.2.rbase, r.2.2.rbase + r.2.2.tiles) else none
    let fits (g : Nat) : Bool := decide (lo ≤ g) && decide (g + tiles ≤ hi) && used.all fun u => decide (g + tiles ≤ u.1) || decide (u.2 ≤ g)
    (osort (fun a b => decide (a < b)) ((lo :: used.map Prod.snd).filter fits)).head?

/-- The generation that R184 evicts first from a job's region. -/
def Dev.victim (d : Dev) (j : Nat) : Option (Nat × Nat) :=
  match tget d.jobs j with
  | none => none
  | some b =>
    let cs := (d.gens b.comp).filter fun r =>
      decide (r.2.2.role ≠ 0) && decide (r.2.2.res = 2) && decide (r.2.2.liftJob = j) && decide (r.2.2.hold = 0) &&
        !d.stepping b.comp r.1 r.2.2.gen
    ((osort (fun (p q : Nat × Nat × GenRec) => decide (p.2.2.stepped < q.2.2.stepped) ||
      (decide (p.2.2.stepped = q.2.2.stepped) && decide (p.1 < q.1))) cs).head?).map fun r => (r.1, r.2.1)

/-- Bytes that a job's largest generation takes, and how many of them its region holds (0x5000 + j:10). -/
def Dev.capacity (d : Dev) (j : Nat) : Nat :=
  match tget d.jobs j with
  | none => 0
  | some b =>
    let big := (d.gens b.comp).foldl (fun m r => if r.2.2.role = 0 then m else max m r.2.2.tiles) 0
    if big = 0 then 0 else b.wlen / (big * 65536)

/-! Pages and frames (R202 to R207). -/

/-- The key of a request in this device's tables: its slot at the lead; the copies of another lead's requests lie above, by job (R176). -/
def Job.reqKey (b : Job) (j slot : Nat) : Nat := if b.rank = 0 then slot else slot + 16384 * (j + 1)

/-- Bytes of a piece of a key-value frame in shadow mode (R422). -/
def Job.pieceBytes (b : Job) : Nat := (ceilDiv b.pageSize (b.slice - 1) + 63) / 64 * 64

/-- P of a job's parity frames in units of 4,096 bytes (R148). -/
def Job.parityP4k (b : Job) : Nat := ceilDiv b.pieceBytes 4096

/-- Tracked pages that a number of tokens needs. -/
def pagesFor (toks : Nat) : Nat := ceilDiv toks 64

/-- Tracked pages a request holds reserved; reused pages count where they were opened (R203). -/
def Req.tracked (q : Req) : Nat := pagesFor q.reserved - q.sharedToks / 64

/-- Tracked pages reserved on the device (0x5480:02). -/
def Dev.pagesReserved (d : Dev) : Nat := d.reqs.foldl (fun n p => n + p.2.tracked) 0

/-- Blocks of 4,096 bytes that the history mirrors of a job's requests take on this member (R420). -/
def Dev.mirrorBlocks (d : Dev) (j : Nat) (b : Job) : Nat :=
  if b.slice ≤ 1 then 0
  else d.reqs.foldl (fun n p =>
    if p.2.job = j ∧ (p.1 % 16384 % b.slice = b.rank ∨ (p.1 % 16384 + 1) % b.slice = b.rank) then n + ceilDiv (4 * p.2.reserved) 4096 else n) 0

/-- Frames of a job that neither pages nor history mirrors need. -/
def Dev.framesLeft (d : Dev) (j : Nat) (b : Job) : Nat :=
  b.freeFrames.length - ceilDiv (4096 * d.mirrorBlocks j b) (framePitch b.pageSize)

/-- Tokens of a request in shared prefix pages: those it reused, and those of its own that others reuse (R200, R207). -/
def Dev.sharedToks (d : Dev) (q : Req) : Nat :=
  let es := match tget d.jobs q.job with | some b => b.prefixes | none => []
  64 * (q.pages.takeWhile fun p => match p.place with
    | .shared h _ => es.any fun e => decide (leNat e.hash = h) && (e.shared || decide (1 < e.users))
    | _ => false).length

/-- Free a request's pages from number k on. -/
def Dev.freePages (d : Dev) (slot k : Nat) : Dev :=
  match tget d.reqs slot with
  | none => d
  | some q =>
    let d := d.adjJob q.job fun b => (q.pages.drop k).foldl (fun (b : Job) (p : Page) =>
      match p.place with
      | .working fr => { b with freeFrames := sinsert b.freeFrames fr }
      | .spilling fr _ _ => { b with freeFrames := sinsert b.freeFrames fr }
      | .lifting _ fr => { b with freeFrames := sinsert b.freeFrames fr }
      | .shared h _ => b.dropUser h
      | _ => b) { b with parity := tfilter b.parity fun i _ => decide (i / 32768 ≠ slot) || decide (i % 32768 < k) }
    { d with reqs := tadj d.reqs slot fun q => { q with pages := q.pages.take k } }

/-- Does a winch descriptor touch a page of a request (R190)? -/
def Dev.touched (d : Dev) (slot : Nat) : Bool :=
  d.engines.any fun e => e.2.recs.any fun r => r.st.live &&
    (match r.purpose with
     | .spillPage _ s _ => decide (s = slot)
     | .liftPage _ s _ => decide (s = slot)
     | _ => false)

/-- A request retires (Table 5.6): its pages and its slot are released at once, or when the last descriptor that touches its pages
has ended. Its record counts one request less, if the record is still the one it was bound to (a forced eviction unbinds, R187). -/
def Dev.release (d : Dev) (slot : Nat) : Dev :=
  match tget d.reqs slot with
  | none => d
  | some q =>
    if d.touched slot then { d with reqs := tset d.reqs slot { q with st := .retiring } }
    else
      let c := match tget d.jobs q.job with | some b => b.comp | none => 8
      let rb := if q.recB then 1 else 0
      let d := d.freePages slot 0
      let d := if (d.genAt c q.wset rb).gen = q.gen then d.hold c q.wset rb false else d
      { d with reqs := terase d.reqs slot }

/-- Commands pending for a request complete with a status (R201). -/
def Dev.endPending (d : Dev) (x : Ctx) (slot status : Nat) : Dev :=
  let mine (c : SChange) : Bool := match c.effect with | .request s _ _ => decide (s = slot) | .admitted s => decide (s = slot) | _ => false
  let d' := (d.schanges.filter mine).foldl (fun d c => match c.effect with | .request _ _ o => d.answerO x o status | _ => d) d
  { d' with schanges := d'.schanges.filter fun c => !mine c }

/-- A request ends with a request-end completion (KIND 4) and retires; its pending commands complete with the same status, or
CANCELLED where that is OK. A member's copy only goes: the lead delivers completions (R406). -/
def Dev.retire (d : Dev) (x : Ctx) (slot status : Nat) : Dev :=
  match tget d.reqs slot with
  | none => d
  | some q =>
    if q.st = .retiring then d
    else if 16384 ≤ slot then d.release slot
    else
      let d := if status = Config.cancelled then d.count (0x5300 + q.job) 4 1
        else if status = Config.deadlineMissed then d.count (0x5300 + q.job) 3 1 else d
      let d := (d.endReq x slot status).endPending x slot (if status = Config.ok then Config.cancelled else status)
      (q.cancel.foldl (fun d o => d.answerO x o Config.ok) d).release slot

/-! Masks (R208, R209). -/

/-- The state of an automaton that lets no token through (R209). -/
def deadState : Nat := 0xFFFFFFFF

/-- Does a mask let token t through? -/
def Job.allows (b : Job) (m : Mask) (t : Nat) : Bool :=
  match m with
  | .none => true
  | .empty => false
  | .allow ts => ts.contains t
  | .auto n s _ _ =>
    match tget b.automata n with
    | some a =>
      (match a.states[s]? with
       | some (bm, _) => decide (t < a.vocab) && (a.bitmaps.getD bm 0).testBit t
       | none => false)
    | none => false

/-- The state an automaton moves to on a token (R209). -/
def nextState (a : Automaton) (s t : Nat) : Option Nat :=
  match a.states[s]? with
  | none => none
  | some (_, first, count, dflt) =>
    match ((a.trans.drop first).take count).find? fun p => decide (p.1 = t) with
    | some p => some p.2
    | none => if dflt = 0xFFFFFFFF then none else some dflt

/-- A committed token moves a request's automaton (R209); where no state follows, the mask is empty until a cut of the history runs the automaton
again (R200). -/
def Job.advance (b : Job) (m : Mask) (t : Nat) : Mask :=
  match m with
  | .auto n s st fr =>
    (match tget b.automata n with
     | some a => .auto n ((nextState a s t).getD deadState) st fr
     | none => .auto n deadState st fr)
  | m => m

/-- The mask after a cut of the history to len tokens: the automaton runs again from where it took effect, or is back in its start
state (R209). -/
def Job.rewind (b : Job) (m : Mask) (history : List Nat) (len : Nat) : Mask :=
  match m with
  | .auto n _ st fr => ((history.take len).drop fr).foldl (fun m t => b.advance m t) (.auto n st st fr)
  | m => m

/-! The sampler (R210). -/

/-- Order of candidates: larger value first, equal values by lower token number. -/
def candLt (a b : Nat × Lane) : Bool := f32Lt b.2 a.2 || (f32Eq a.2 b.2 && decide (a.1 < b.1))

/-- The merged candidates of a row: shares in rank order, masked tokens and NaN logits left out, the best 4,096. -/
def candidates (ok : Nat → Bool) (shares : List (List (Nat × Lane))) : List (Nat × Lane) :=
  (osort candLt (shares.flatten.filter fun p => ok p.1 && !f32IsNaN p.2)).take 4096

/-- FP32 value of log2 e (R210). -/
def l2e : Lane := 0x3FB8AA3B

/-- Running sums of the weights. -/
def runSums : Lane → List (Nat × Lane) → List (Nat × Lane)
  | _, [] => []
  | s, (t, w) :: r => let s' := f32Add s w; (t, s') :: runSums s' r

/-- Entries up to the first whose running sum reaches a bound. -/
def upTo (bound : Lane) : List (Nat × Lane) → List (Nat × Lane)
  | [] => []
  | (t, c) :: r => if !f32Lt c bound && !f32IsNaN c && !f32IsNaN bound then [(t, c)] else (t, c) :: upTo bound r

/-- The token at position n (R210); none without a candidate. -/
def selectToken (temp : Lane) (topk : Nat) (topp : Lane) (seed n : Nat) (cands : List (Nat × Lane)) : Option Nat :=
  match cands with
  | [] => none
  | first :: _ =>
    if f32Eq temp 0 then some first.1
    else
      let t := f32Rcp temp
      let z := (osort candLt (cands.map fun p => (p.1, f32Mul p.2 t))).take topk
      let z0 := match z with | p :: _ => p.2 | [] => 0
      let sums := runSums 0 (z.map fun p => (p.1, f32Exp2 (f32Mul (f32Sub p.2 z0) l2e)))
      let total := match sums.getLast? with | some p => p.2 | none => 0
      let kept := if f32Lt topp 0x3F800000 then upTo (f32Mul topp total) sums else sums
      let s := match kept.getLast? with | some p => p.2 | none => 0
      let (x0, _, _, _) := philox (seed % 2 ^ 32) (seed / 2 ^ 32 % 2 ^ 32) (n % 2 ^ 32) 0 0 0
      let v := f32Mul (f32OfInt (x0 / 256 : Nat) (-24) false) s
      match kept.find? fun p => f32Lt v p.2 with
      | some p => some p.1
      | none => (kept.getLast?).map Prod.fst

/-! Prefix reuse (R206, R207). -/

/-- The hash of a full block under its parent's (R206). -/
def blockHash (parent : List Byte) (wsid : Nat) (toks : List Nat) : List Byte :=
  digest16 (parent ++ leBytes 8 wsid ++ toks.flatMap fun t => leBytes 4 t)

/-- The hashes of the full blocks of a token list. -/
def blockHashes (wsid : Nat) (toks : List Nat) : List (List Byte) :=
  ((List.range (toks.length / 64)).foldl (fun (acc : List (List Byte) × List Byte) i =>
    let h := blockHash acc.2 wsid ((toks.drop (64 * i)).take 64)
    (acc.1 ++ [h], h)) ([], List.replicate 16 0)).1

/-! The end of a job (Table 5.2, R180). -/

/-- The shares in force stay until no job of the compartment is Running (R157). -/
def Dev.dropShares (d : Dev) (c : Nat) : Dev :=
  if d.jobs.any fun p => decide (p.2.comp = c) && decide (p.2.st = .running) then d
  else ((d.setNum (0x4060 + c) 4 0).setNum (0x4060 + c) 5 0).setNum (0x4060 + c) 6 0

/-- Bit j of a job in a facet-set object is given back (R396). -/
def Dev.clearResident (d : Dev) (j : Nat) : Dev := d.setObj (0x3440 + j) 1 (.bytes [])

/-- Empty the job-link slot of a job (Table 11.9). -/
def Dev.dropLink (d : Dev) (b : Job) : Dev :=
  match b.linkSlot with
  | some s => { d with keys := tset d.keys s ⟨3, 0, 0⟩ }
  | none => d

/-- Ready becomes Serving with the first job that is not Ended, Serving Ready with the last (Table 14.2). -/
def Dev.serveState (d : Dev) : Dev :=
  let busy := d.jobs.any fun p => decide (p.2.st ≠ .ended)
  match d.state with
  | .ready => if busy then { d with state := .serving } else d
  | .serving => if busy then d else { d with state := .ready }
  | _ => d

/-- ROUND_PLANs that were accepted and whose plans go complete with a status; the manual names none (R230, Table 6.5; assumption 190). -/
def Dev.answerPlans (d : Dev) (x : Ctx) (j status : Nat) : Dev :=
  match tget d.jobs j with
  | none => d
  | some b =>
    let open_ := ((b.plans ++ b.reruns).filter fun p => !p.waiting.isEmpty).filterMap Plan.origin
    let shut (p : Plan) : Plan := { p with origin := none, waiting := [] }
    open_.foldl (fun d o => d.answerO x o status) (d.setJob j { b with plans := b.plans.map shut, reruns := b.reruns.map shut })

/-- A job becomes Ended with a status: a JOB_START that has not completed completes with it, a JOB_END completes; what it holds is
released at the next beat boundary. -/
def Dev.endJob (d : Dev) (x : Ctx) (j status detail : Nat) : Dev :=
  let d := d.answerPlans x j Config.aborted
  match tget d.jobs j with
  | none => d
  | some b =>
    if b.st = .ended then d
    else
      let early := decide (b.st = .forming) || decide (b.st = .loading)
      let d := if early then d.answerV x b.origin.ring b.origin.tag status detail 0 0 else d
      let d := b.endOrigin.foldl (fun d o => d.answerO x o Config.ok) d
      let d := d.setJob j { b with
        st := .ended, step := none, staged := none, plans := [], phase := .none, released := false, results := [],
        doneBeats := [], doneFlags := [], parity := [], early := [], reruns := [], endOrigin := [], endStatus := status, confirmed := [], linkSlot := none }
      let d := { d with images := terase d.images j, schanges := d.schanges.filter fun c => decide (c.job ≠ some j) }
      (((d.dropLink b).clearResident j).dropShares b.comp).serveState

/-- Every request of a job ends with a status. -/
def Dev.retireAll (d : Dev) (x : Ctx) (j status : Nat) : Dev := (d.reqsOf j).foldl (fun d s => d.retire x s status) d

/-- A job that is Faulted, or that a teardown ends: every request ends with a status, then the job (Table 5.2, R372, R425). -/
def Dev.killJob (d : Dev) (x : Ctx) (j status : Nat) : Dev :=
  let d := match tget d.jobs j with
    | some b => (b.step.toList ++ b.staged.toList).foldl (fun (d : Dev) (st : StepRec) => match st.origin with
        | some o => (d.answerO x o Config.aborted).setNum (0x5400 + j) 3 Config.aborted
        | none => d) d
    | none => d
  (d.retireAll x j status).endJob x j status 0

end Sys2Proof.Machine
end

