-- ==== Sys2Proof/Machine/Request.lean ====
section
/-!
DEFINITION. The commands that act on requests at the lead (R188 to R212, Tables 5.5, 5.6 and 5.8): ADMIT, APPEND, CANCEL, TRIM,
SET_MASK in its kinds, LOAD_AUTOMATON. What they change takes effect at a step boundary of the job (R190, R196).
-/

namespace Sys2Proof.Machine

/-- The job of a command at its lead, in one of the states that take requests. -/
def Dev.leadJob (d : Dev) (e : Nat) (draining : Bool) : Option Job :=
  match tget d.jobs (eJob e) with
  | some b => if b.rank = 0 ∧ (b.st = .running ∨ (draining = true ∧ b.st = .draining)) then some b else none
  | none => none

/-- Is a request live: Admitted, Prefill or Decode? -/
def ReqState.live : ReqState → Bool
  | .admitted => true
  | .prefill => true
  | .decode => true
  | _ => false

/-- The live request that a slot and a serial name on a job. -/
def Dev.named (d : Dev) (j slot serial : Nat) : Option Req :=
  match tget d.reqs slot with
  | some q => if q.job = j ∧ q.serial = serial ∧ q.st.live then some q else none
  | none => none

/-- The lowest slot that is neither reserved nor in use. -/
def Dev.freeSlot (d : Dev) : Option Nat := (List.range 16384).find? fun i => decide (tget d.reqs i = none)

/-- How many blocks of a prompt live prefix entries match, and whether a hash met other tokens (R207). -/
def prefixWalk (b : Job) (most : Nat) : List (List Byte) → List Nat → Nat → Nat × Bool
  | [], _, n => (n, false)
  | h :: hs, toks, n =>
    if most ≤ n then (n, false)
    else match b.prefixes.find? fun e => decide (e.hash = h) && !e.gone with
      | none => (n, false)
      | some e => if e.toks = toks.take 64 then prefixWalk b most hs (toks.drop 64) (n + 1) else (n, true)

/-- A prefix entry is matched once more. -/
def Job.matchPrefix (b : Job) (h : List Byte) (beat : Nat) : Job :=
  { b with prefixes := b.prefixes.map fun e =>
      if e.hash = h ∧ e.gone = false then { e with users := e.users + 1, matchedAt := beat, shared := true } else e }

/-- Status of orders 1 to 6 of Table 5.5 for an ADMIT entry with its prompt and stop tokens. -/
def Dev.admitStatus (d : Dev) (e : Nat) (toks : List Nat) : Nat :=
  let j := eJob e
  let plen := efield e 24 4
  match d.leadJob e false with
  | none => Config.range
  | some b =>
    if d.freeSlot = Option.none then Config.busy
    else match d.genNamed b.comp (bits (efield e 8 2) 12 0) (efield e 12 4) with
      | none => Config.generationGone
      | some (_, g) =>
        if g.res = 3 then g.badst
        else
          let temp : Lane := BitVec.ofNat 32 (efield e 40 4)
          let topp : Lane := BitVec.ofNat 32 (efield e 48 4)
          let topk := efield e 44 2
          let chunk := if efield e 46 2 = 0 then d.num (0x5200 + j) 3 else efield e 46 2
          if plen = 0 ∨ 2097152 < plen + efield e 28 4 ∨ f32IsNaN temp ∨ f32Lt temp 0 ∨ topk < 1 ∨ 4096 < topk ∨
              !f32Lt 0 topp ∨ f32Lt 0x3F800000 topp ∨ (b.spar = true ∧ (efield e 52 4 ≠ 0 ∨ efield e 56 4 ≠ 0)) ∨
              (toks.drop plen).any (fun t => decide (262143 < t)) then Config.range
          else if hTps b.header < chunk then Config.shapeExceeded
          else Config.ok

/-- The counters of refused ADMITs (Table 5.16). -/
def Dev.countRefusal (d : Dev) (j st : Nat) : Dev :=
  if st = Config.busy then d.count (0x5300 + j) 5 1
  else if st = Config.noResource then d.count (0x5300 + j) 6 1
  else if st = Config.shapeExceeded then d.count (0x5300 + j) 7 1 else d

/-- The pages of a new request: the reused blocks, then a frame for every reserved page in working-only placement (R204, R207), as far as frames go. -/
def newPages (hs : List (List Byte)) (reused total : Nat) (tiered : Bool) (frames : List Nat) : List Page :=
  ((hs.take reused).map fun h => ⟨.shared (leNat h) 0, 64, 1, false⟩) ++
  ((List.range (total - reused)).map fun i =>
    match (if tiered then none else frames[i]?) with
    | some fr => ⟨.working fr, 0, 1, false⟩
    | none => ⟨.reserved, 0, 1, false⟩)

/-- The 32-bit serial of the nth ADMIT of a job, n counting from 1: the serial 0 is not used (Table 7.3), so it is 1 after 2^32 − 1. -/
def admSerial (n : Nat) : Nat := (n - 1) % (2 ^ 32 - 1) + 1

/-- ADMIT (R189, Table 5.5): an accepted request takes its slot, serial and pages at once and commits at the next step boundary. -/
def execAdmitReq (ring tag : Nat) (tokens : Option (List Nat)) (s : State) : Host.Outcome State Fault Refusal :=
  onDev s fun x d =>
    d.runData x ring tag (fun e => decide (eOpcode e = 1)) tokens fun e toks d =>
      let j := eJob e
      let st := d.admitStatus e toks
      match tget d.jobs j, d.freeSlot with
      | some b, some slot =>
        if st ≠ Config.ok then (d.countRefusal j st).answer x ring tag st
        else
          let wset := bits (efield e 8 2) 12 0
          let flags := efield e 10 2
          let plen := efield e 24 4
          let total := plen + efield e 28 4
          let prompt := toks.take plen
          match d.genNamed b.comp wset (efield e 12 4) with
          | none => d.answer x ring tag Config.generationGone
          | some (rb, g) =>
            let hs := if flags.testBit 2 then blockHashes g.wsid prompt else []
            let (reused, clash) := prefixWalk b ((plen - 1) / 64) hs prompt 0
            let d := if clash then d.count (0x5300 + j) 0x0F 1 else d
            let need := pagesFor total - reused
            let blocks := if 1 < b.slice ∧ (slot % b.slice = b.rank ∨ (slot + 1) % b.slice = b.rank) then ceilDiv (4 * total) 4096 else 0
            let frames := (if b.tiered then 0 else need) + ceilDiv (4096 * blocks) (framePitch b.pageSize)
            if 1048576 < d.pagesReserved + need ∨ d.framesLeft j b < frames then
              (d.countRefusal j Config.noResource).answer x ring tag Config.noResource
            else
              let b := (hs.take reused).foldl (fun b h => b.matchPrefix h x.time.beat) b
              let ttft := if efield e 52 4 = 0 then d.num (0x5200 + j) 1 else efield e 52 4
              let tbt := if efield e 56 4 = 0 then d.num (0x5200 + j) 2 else efield e 56 4
              let at_ := match d.cmd ring tag with | some c => c.beat | none => x.time.beat
              let q : Req := {
                job := j, serial := admSerial b.nextAdm, st := .admitted, committed := false, origin := ⟨ring, tag⟩, wset := wset,
                gen := g.gen, recB := decide (rb = 1), promptLen := plen, history := prompt.take (64 * reused),
                kv := 64 * reused, input := prompt.drop (64 * reused), maxNew := efield e 28 4, made := [],
                stops := toks.drop plen, seed := efield e 32 8, temp := BitVec.ofNat 32 (efield e 40 4),
                topk := efield e 44 2, topp := BitVec.ofNat 32 (efield e 48 4),
                chunk := if efield e 46 2 = 0 then d.num (0x5200 + j) 3 else efield e 46 2,
                ttft := if b.spar then 0 else ttft, tbt := if b.spar then 0 else tbt, hard := flags.testBit 0,
                prio := flags.testBit 1, reuse := flags.testBit 2,
                deadline := if b.spar ∨ ttft = 0 then none else some (at_ + beatsOf ttft),
                mask := .none, cancel := [], retire := none, verifyFrom := 0, verifyUpTo := 0,
                pages := newPages hs reused (pagesFor total) b.tiered b.freeFrames, reserved := total, sharedToks := 64 * reused,
                lastStep := 0, genChanged := false, replayed := false, replayTo := 0, verified := [] }
              let d := d.setJob j { b with
                nextAdm := b.nextAdm + 1
                freeFrames := if b.tiered then b.freeFrames else b.freeFrames.drop need }
              let d := (d.hold b.comp wset rb true).count (0x5300 + j) 8 reused
              { d with reqs := tset d.reqs slot q }.waitCmd x b.comp (some j) ring tag (.admitted slot)
      | _, _ => (d.countRefusal j st).answer x ring tag (if st = Config.ok then Config.busy else st)

/-- A command that changes a live request at a step boundary. -/
def Dev.onReq (d : Dev) (x : Ctx) (r tag e : Nat) (f : Job → Req → Dev → Nat × Option ReqChange × Dev) : Dev :=
  let slot := efield e 8 2
  match d.leadJob e true, d.named (eJob e) slot (efield e 12 4) with
  | some b, some q =>
    match f b q d with
    | (_, some c, d) => d.waitCmd x b.comp (some (eJob e)) r tag (.request slot c ⟨r, tag⟩)
    | (st, none, d) => d.answer x r tag st
  | _, _ => d.answer x r tag Config.range

/-- The most tokens of a request (Table 5.10). -/
def requestMost : Nat := 2097152

/-- Tokens that a request has to run once its pending changes have committed in order (R199, R200). -/
def Dev.lengthAhead (d : Dev) (slot : Nat) (q : Req) : Nat :=
  d.schanges.foldl (fun n c => match c.effect with
    | .request s (.append ts _ _) _ => if s = slot then n + ts.length else n
    | .request s (.trim k) _ => if s = slot then n - k else n
    | _ => n) (q.kv + q.input.length)

/-- APPEND (R199, R203): at least one token; the appended tokens keep the request within 2,097,152; what they need beyond the pages that the request
holds reserved is reserved on acceptance. -/
def execAppend (ring tag : Nat) (tokens : Option (List Nat)) (s : State) : Host.Outcome State Fault Refusal :=
  onDev s fun x d =>
    d.runData x ring tag (fun e => decide (eOpcode e = 2)) tokens fun e toks d =>
      d.onReq x ring tag e fun b q d =>
        let j := eJob e
        let slot := efield e 8 2
        let ahead := d.lengthAhead slot q + toks.length
        let total := max q.reserved (min requestMost (ahead + (q.maxNew - q.made.length)))
        let more := pagesFor total - pagesFor q.reserved
        if toks = [] ∨ requestMost < ahead then (Config.range, none, d)
        else if 1048576 < d.pagesReserved + more ∨ (b.tiered = false ∧ d.framesLeft j b < more) then
          (Config.noResource, none, d.count (0x5300 + j) 6 1)
        else
          let ps := newPages [] 0 more b.tiered b.freeFrames
          let d := d.adjJob j fun b => { b with freeFrames := if b.tiered then b.freeFrames else b.freeFrames.drop more }
          let d := { d with reqs := tadj d.reqs slot fun q => { q with reserved := total, pages := q.pages ++ ps } }
          (Config.ok, some (.append toks ((efield e 10 2).testBit 0) more), d)

/-- Has a job issued an admission serial (Table 5.8)? -/
def Job.issued (b : Job) (serial : Nat) : Bool := decide (1 ≤ serial) && decide (serial < 2 ^ 32) && decide (serial < b.nextAdm)

/-- CANCEL (R201, Table 5.8): the mark is set at once; the request retires at the next step boundary. -/
def execCancel (ring tag : Nat) (s : State) : Host.Outcome State Fault Refusal :=
  onDev s fun x d =>
    d.runCmd x ring tag (fun e => decide (eOpcode e = 3)) fun e d =>
      let slot := efield e 8 2
      let serial := efield e 12 4
      match d.leadJob e true with
      | none => d.answer x ring tag Config.range
      | some b =>
        match d.named (eJob e) slot serial with
        | some _ => { d with reqs := tadj d.reqs slot fun q => { q with cancel := q.cancel ++ [⟨ring, tag⟩] } }
        | none => d.answer x ring tag (if b.issued serial then Config.alreadyDone else Config.range)

/-- TRIM (R200): n is at least 1 and does not reach into shared pages. -/
def execTrim (ring tag : Nat) (s : State) : Host.Outcome State Fault Refusal :=
  onDev s fun x d =>
    d.runCmd x ring tag (fun e => decide (eOpcode e = 4)) fun e d =>
      d.onReq x ring tag e fun _ q d =>
        let n := efield e 16 4
        if n = 0 ∨ q.history.length - d.sharedToks q < n then (Config.range, none, d)
        else (Config.ok, some (.trim n), d)

/-- SET_MASK of kind 0 (R208). -/
def execSetMaskNone (ring tag : Nat) (s : State) : Host.Outcome State Fault Refusal :=
  onDev s fun x d =>
    d.runCmd x ring tag (fun e => decide (eOpcode e = 5) && decide (ebyte e 10 = 0)) fun e d =>
      d.onReq x ring tag e fun _ _ d => (Config.ok, some (.mask .none), d)

/-- SET_MASK of kind 1 (R208): 1 to 4,096 tokens, none above 262,143. -/
def execSetMaskAllowList (ring tag : Nat) (tokens : Option (List Nat)) (s : State) : Host.Outcome State Fault Refusal :=
  onDev s fun x d =>
    d.runData x ring tag (fun e => decide (eOpcode e = 5) && decide (ebyte e 10 = 1)) tokens fun e toks d =>
      d.onReq x ring tag e fun _ _ d =>
        if toks.length = 0 ∨ 4096 < toks.length ∨ toks.any (fun t => decide (262143 < t)) then (Config.range, none, d)
        else (Config.ok, some (.mask (.allow toks)), d)

/-- SET_MASK of kind 2 (R208, R209): an automaton that the job has loaded, in one of its states. -/
def execSetMaskAutomaton (ring tag : Nat) (s : State) : Host.Outcome State Fault Refusal :=
  onDev s fun x d =>
    d.runCmd x ring tag (fun e => decide (eOpcode e = 5) && decide (ebyte e 10 = 2)) fun e d =>
      d.onReq x ring tag e fun b _ d =>
        let n := ebyte e 11
        let st := efield e 28 4
        match tget b.automata n with
        | some a => if st < a.states.length then (Config.ok, some (.mask (.auto n st st 0)), d) else (Config.range, none, d)
        | none => (Config.range, none, d)

/-- U32 number i of a byte string. -/
def u32At (bs : List Byte) (i : Nat) : Nat := leNat ((bs.drop i).take 4)

/-- Are the tokens of one state's transitions strictly rising and below the vocabulary, and do its targets exist? -/
def transOk (states vocab : Nat) : List (Nat × Nat) → Bool
  | [] => true
  | (t, g) :: r => decide (t < vocab) && decide (t ≤ 262143) && decide (g < states) &&
      (match r with | (u, _) :: _ => decide (t < u) | [] => true) && transOk states vocab r

/-- Read an automaton (Table 5.9) and check it (R208). -/
def parseAutomaton (bs : List Byte) : Option Automaton :=
  let ns := u32At bs 0
  let nb := u32At bs 4
  let v := u32At bs 8
  let nt := u32At bs 12
  let t0 := 64 + 16 * ns
  let b0 := (t0 + 8 * nt + 63) / 64 * 64
  let pitch := ceilDiv v 512 * 64
  if bs.length < 64 ∨ 2 ^ 24 < bs.length ∨ ns < 1 ∨ 65536 < ns ∨ nb < 1 ∨ 4096 < nb ∨ v < 1 ∨ 262144 < v ∨
      bs.length ≠ b0 + pitch * nb then none
  else
    let states := (List.range ns).map fun i => let o := 64 + 16 * i; (u32At bs o, u32At bs (o + 4), u32At bs (o + 8), u32At bs (o + 12))
    let trans := (List.range nt).map fun i => (u32At bs (t0 + 8 * i), u32At bs (t0 + 8 * i + 4))
    let ok := states.all fun s => decide (s.1 < nb) && decide (s.2.1 + s.2.2.1 ≤ nt) &&
      (decide (s.2.2.2 < ns) || decide (s.2.2.2 = 0xFFFFFFFF)) && transOk ns v ((trans.drop s.2.1).take s.2.2.1)
    if ok then some ⟨v, states, trans, (List.range nb).map fun i => leNat ((bs.drop (b0 + pitch * i)).take pitch)⟩ else none

/-- Does a request of the job use an automaton, or wait to (R208)? -/
def Dev.usesAutomaton (d : Dev) (j n : Nat) : Bool :=
  (d.reqs.any fun p => decide (p.2.job = j) && (match p.2.mask with | .auto k _ _ _ => decide (k = n) | _ => false)) ||
  d.schanges.any fun c => decide (c.job = some j) &&
    (match c.effect with | .request _ (.mask (.auto k _ _ _)) _ => decide (k = n) | _ => false)

/-- SET_MASK of kind 3 (R208): load automaton n of the job, unless a request still uses it. -/
def execLoadAutomaton (ring tag : Nat) (bytes : Option (List Byte)) (s : State) : Host.Outcome State Fault Refusal :=
  onDev s fun x d =>
    d.runData x ring tag (fun e => decide (eOpcode e = 5) && decide (ebyte e 10 = 3)) bytes fun e bs d =>
      let j := eJob e
      let n := ebyte e 11
      match d.leadJob e true with
      | none => d.answer x ring tag Config.range
      | some _ =>
        match parseAutomaton bs with
        | none => d.answer x ring tag Config.range
        | some a =>
          if d.usesAutomaton j n then d.answer x ring tag Config.busy
          else (d.adjJob j fun b => { b with automata := tset b.automata n a }).answer x ring tag Config.ok

end Sys2Proof.Machine
end

