-- ==== Sys2Proof/Machine/Catalog.lean ====
section
/-!
DEFINITION. The catalog (R181 to R187) and the lifting of generations (R184, R369).
-/

namespace Sys2Proof.Machine

/-- Does a directory of a compartment name only stored tiles in its packages (R133, R146)? -/
def Dev.directoryOk (d : Dev) (x : Ctx) (c dir tiles : Nat) : Bool :=
  let inLp (a n : Nat) : Bool :=
    (match regionOf a with | .lp _ => true | _ => false) && decide (d.accessStatus c a n = Config.ok)
  decide (dir % 8 = 0) && inLp dir (8 * tiles) && (List.range tiles).all fun i =>
    let ent := leNat (x.mem.bytes (dir + 8 * i) 8)
    decide (2 ≤ bits ent 10 0) && decide (bits ent 10 0 ≤ 1025) && inLp (bits ent 63 21 * 64) (bits ent 10 0 * 64)

/-- Is any job of the compartment Rejoining (R410)? -/
def Dev.rejoining (d : Dev) (c : Nat) : Bool := d.jobs.any fun p => decide (p.2.comp = c) && decide (p.2.phase = .rejoining)

/-- Status of a CATALOG_LOAD (R181, R183, R368, Table 5.4). -/
def Dev.loadStatus (d : Dev) (x : Ctx) (c e : Nat) (arch : List Byte) : Nat :=
  let k := d.catalog c
  let wset := efield e 8 2
  let slot := ebyte e 10
  let gen := efield e 12 4
  let wsid := efield e 16 8
  let tiles := efield e 32 2
  let recs := d.recsOf c wset
  if d.compState c ≠ 1 then Config.range
  else if !d.rejoining c && !d.directoryOk x c (efield e 24 8 % 2 ^ 49) tiles then Config.accessDenied
  else if 8191 < wset ∨ gen = 0 ∨ tiles = 0 ∨ (k.arch ≠ [] ∧ k.arch ≠ arch) ∨
      (d.gens c).any (fun r => decide (r.2.2.role ≠ 0) && decide (r.2.2.wsid = wsid)) ∨
      recs.any (fun r => decide (r.2.role = 1) && decide (gen ≤ r.2.gen)) ∨
      tget (d.comp c).store wsid = none ∨ d.ownerBit 6 slot ≠ some c then Config.range
  else match tget d.keys slot with
    | some ks =>
      if ks.kind ≠ 3 ∨ (ks.wsid ≠ 0 ∧ ks.wsid ≠ wsid) then Config.range
      else if recs.any (fun r => decide (r.2.role = 2) || decide (r.2.role = 3)) then Config.busy
      else Config.ok
    | none => Config.range

/-- CATALOG_LOAD (R183): registers a generation at the next step boundary. -/
def execCatalogLoad (ring tag : Nat) (digest : Option (List Byte)) (s : State) : Host.Outcome State Fault Refusal :=
  onDev s fun x d =>
    d.runData x ring tag (fun e => decide (eOpcode e = 0x10)) digest fun e arch d =>
      let c := d.ringComp ring
      let st := d.loadStatus x c e (lpad 32 0 arch)
      if st ≠ Config.ok then d.answer x ring tag st
      else
        let r : GenRec := { GenRec.none with
          wsid := efield e 16 8, gen := efield e 12 4, dir := efield e 24 8 % 2 ^ 49, tiles := efield e 32 2, keyslot := ebyte e 10 }
        d.waitCmd x c none ring tag (.load (efield e 8 2) r (lpad 32 0 arch) ⟨ring, tag⟩)

/-- CATALOG_SWAP (R185, R186): stages the swap of an entry with a staged record. -/
def execCatalogSwap (ring tag : Nat) (s : State) : Host.Outcome State Fault Refusal :=
  onDev s fun x d =>
    d.runCmd x ring tag (fun e => decide (eOpcode e = 0x11)) fun e d =>
      let c := d.ringComp ring
      let wset := efield e 8 2
      let k := d.catalog c
      match tget k.entries wset with
      | none => d.answer x ring tag Config.range
      | some en =>
        if d.compState c ≠ 1 ∨ !(decide (en.a.role = 2) || decide (en.b.role = 2)) then d.answer x ring tag Config.range
        else if en.swap ≠ none then d.answer x ring tag Config.busy
        else
          (d.setCatalog c { k with entries := tset k.entries wset { en with swap := some (cmdKey ring tag) } }).waitCmd x c none ring tag
            (.swapCmd wset ((ebyte e 10).testBit 0) ⟨ring, tag⟩)

/-- CATALOG_EVICT (R187): empties a generation record at the next step boundary. -/
def execCatalogEvict (ring tag : Nat) (s : State) : Host.Outcome State Fault Refusal :=
  onDev s fun x d =>
    d.runCmd x ring tag (fun e => decide (eOpcode e = 0x12)) fun e d =>
      let c := d.ringComp ring
      let wset := efield e 8 2
      let gen := efield e 12 4
      let force := (ebyte e 10).testBit 0
      if d.compState c ≠ 1 then d.answer x ring tag Config.range
      else match (d.recsOf c wset).find? fun r => decide (r.2.gen = gen) with
        | none => d.answer x ring tag Config.generationGone
        | some (_, g) =>
          let swapping := match tget (d.catalog c).entries wset with | some en => en.swap.isSome | none => false
          if decide (g.role = 2) && swapping then d.answer x ring tag Config.busy
          else if force = false ∧ 0 < g.hold then d.answer x ring tag Config.busy
          else d.waitCmd x c none ring tag (.evict wset gen force ⟨ring, tag⟩)

/-! What catalog commands do at the step boundary. -/

/-- An entry's current record, staged record, old record by place. -/
def CatEntry.place (e : CatEntry) (role : Nat) : Option Nat :=
  if e.a.role = role then some 0 else if e.b.role = role then some 1 else Option.none

/-- Change a record of an entry. -/
def CatEntry.adj (e : CatEntry) (p : Nat) (f : GenRec → GenRec) : CatEntry := if p = 1 then { e with b := f e.b } else { e with a := f e.a }

/-- A catalog that holds no record while no job of the compartment runs has no architecture digest (R181). -/
def Dev.tidyCatalog (d : Dev) (c : Nat) : Dev :=
  let k := d.catalog c
  if (d.gens c).all (fun r => decide (r.2.2.role = 0)) && d.jobs.all (fun p => decide (p.2.comp ≠ c) || decide (p.2.st = .ended)) then
    d.setCatalog c { k with arch := [], entries := [] }
  else d

/-- A load takes effect (R183): current where the entry has no current generation, else staged. The conditions of Table 5.4 that earlier changes
of the boundary can have made true hold it back too. -/
def Dev.commitLoad (d : Dev) (x : Ctx) (c wset : Nat) (r : GenRec) (arch : List Byte) (o : Origin) : Dev :=
  let k := d.catalog c
  let en := (tget k.entries wset).getD CatEntry.none
  if (k.arch ≠ [] ∧ k.arch ≠ arch) ∨ (d.gens c).any (fun q => decide (q.2.2.role ≠ 0) && decide (q.2.2.wsid = r.wsid)) ∨
      (d.recsOf c wset).any (fun q => decide (q.2.role = 1) && decide (r.gen ≤ q.2.gen)) then d.answerO x o Config.range
  else if (en.place 2).isSome || (en.place 3).isSome then d.answerO x o Config.busy
  else
    let role := if (en.place 1).isSome then 2 else 1
    let p := if en.a.role = 0 then 0 else 1
    (d.setCatalog c ⟨arch, tset k.entries wset (en.adj p fun _ => { r with role := role })⟩).answerO x o Config.ok

/-- A change that belongs to no job reaches the requests of a further Running job of the compartment at that job's own boundary (R31). here is the
job whose boundary this is. -/
def Dev.furtherJobs (d : Dev) (c : Nat) (here : Option Nat) : List Nat :=
  (d.jobsWhere fun b => decide (b.comp = c) && decide (b.st = .running)).filter fun j => decide (some j ≠ here)

/-- The parts of a change that wait for the boundaries of further Running jobs. -/
def Dev.spread (d : Dev) (c : Nat) (here : Option Nat) (e : SEffect) : Dev :=
  (d.furtherJobs c here).foldl (fun d j =>
    { d with schanges := d.schanges ++ [⟨c, some j, 0, d.nextOrder, e⟩], nextOrder := d.nextOrder + 1 }) d

/-- The requests in bound are rebound to the new generation of an entry, record p (R186). -/
def Dev.rebind (d : Dev) (bound : Tab Req) (p gen : Nat) : Dev :=
  bound.foldl (fun d q => { d with
    reqs := tadj d.reqs q.1 fun r => { r with recB := decide (p = 1), gen := gen, genChanged := true }
    digests := tadj d.digests q.1 fun g => { g with flags := Nat.lor g.flags 1 } }.count (0x5300 + q.2.job) 0x0E 1) d

/-- A pending swap commits if it may (R185, R186); the second part says whether it did or is void. An immediate swap rebinds the requests of
another Running job at that job's boundary; till then the old record stands for them. -/
def Dev.commitSwap (d : Dev) (x : Ctx) (here : Option Nat) (c wset : Nat) (now : Bool) (o : Origin) : Dev × Bool :=
  let k := d.catalog c
  match tget k.entries wset with
  | none => (d.answerO x o Config.range, true)
  | some en =>
    match en.place 2 with
    | none => ((d.setCatalog c { k with entries := tset k.entries wset { en with swap := none } }).answerO x o Config.range, true)
    | some p =>
      let cur := en.place 1
      let old := match cur with | some q => (if q = 1 then en.b else en.a) | none => GenRec.none
      let new := if p = 1 then en.b else en.a
      let may := now || decide (old.hold = 0) || (new.ready && decide (old.res = 2))
      if !may then (d, false)
      else
        let bound := d.reqs.filter fun q => decide (q.2.wset = wset) && (match cur with | some z => decide ((if q.2.recB then 1 else 0) = z) | none => false) &&
          (match tget d.jobs q.2.job with | some b => decide (b.comp = c) | none => false)
        let later := d.furtherJobs c here
        let first := bound.filter fun q => !later.contains q.2.job
        let moved := if now then first.length else 0
        let en := en.adj p fun g => { g with role := 1, hold := g.hold + moved }
        let en := match cur with
          | some q => en.adj q fun g => if g.hold ≤ moved then GenRec.none else { g with role := 3, hold := g.hold - moved }
          | none => en
        let d := d.setCatalog c { k with entries := tset k.entries wset { en with swap := none } }
        let d := if now then (d.rebind first p new.gen).spread c here (.rebind wset old.gen p) else d
        (d.answerO x o Config.ok, true)

/-- The rest of an immediate swap at the boundary of a further Running job (R31, R186): its requests of the old generation join the one that is
current now. -/
def Dev.lateRebind (d : Dev) (c j wset gen p : Nat) : Dev :=
  let bound := d.reqs.filter fun q => decide (q.2.job = j) && decide (q.2.wset = wset) && decide (q.2.gen = gen)
  let new := d.genAt c wset p
  if new.role ≠ 1 then d
  else
    let q := if p = 1 then 0 else 1
    let d := if (d.genAt c wset q).gen = gen then bound.foldl (fun d _ => d.hold c wset q false) d else d
    (d.adjGen c wset p fun g => { g with hold := g.hold + bound.length }).rebind bound p new.gen

/-- The rest of a forced eviction at the boundary of a further Running job (R31, R187). -/
def Dev.lateUnbind (d : Dev) (x : Ctx) (j wset gen : Nat) : Dev :=
  (d.reqs.filter fun q => decide (q.2.job = j) && decide (q.2.wset = wset) && decide (q.2.gen = gen) && q.2.st.live).foldl
    (fun d q => d.retire x q.1 Config.generationGone) d

/-- An eviction takes effect (R187). The requests of another Running job retire at that job's boundary; till then an old record stands for them. -/
def Dev.commitEvict (d : Dev) (x : Ctx) (here : Option Nat) (c wset gen : Nat) (force : Bool) (o : Origin) : Dev :=
  match (d.recsOf c wset).find? fun r => decide (r.2.gen = gen) with
  | none => d.answerO x o Config.generationGone
  | some (p, g) =>
    if force = false ∧ 0 < g.hold then d.answerO x o Config.busy
    else
      let bound := d.reqs.filter fun q => decide (q.2.wset = wset) && decide (q.2.gen = gen) && q.2.st.live &&
        (match tget d.jobs q.2.job with | some b => decide (b.comp = c) | none => false)
      let later := d.furtherJobs c here
      let first := bound.filter fun q => !later.contains q.2.job
      let rest := (bound.filter fun q => later.contains q.2.job).length
      let d := first.foldl (fun d q => d.retire x q.1 Config.generationGone) d
      -- a request that still waits for its last descriptor is bound to no record any more
      let d : Dev := { d with reqs := first.foldl (fun (t : Tab Req) q => tadj t q.1 fun r => { r with gen := 0 }) d.reqs }
      let d := d.adjGen c wset p fun g => if rest = 0 then GenRec.none else { g with role := 3, hold := rest }
      let d := if rest = 0 then d else d.spread c here (.unbind wset gen)
      (d.tidyCatalog c).answerO x o Config.ok

/-! Lifting (R184, R369). -/

/-- The runs of equal element format of a generation's tiles: first tile, count, format (Table 4.4). -/
def formatRuns (x : Ctx) (dir : Nat) : Nat → Nat → List (Nat × Nat × Nat)
  | 0, _ => []
  | n + 1, i =>
    let a := bits (leNat (x.mem.bytes (dir + 8 * i) 8)) 63 21 * 64
    let f := bits (leNat (x.mem.bytes a 64)) 141 138
    match formatRuns x dir n (i + 1) with
    | (_, k, g) :: r => if g = f then (i, k + 1, f) :: r else (i, 1, f) :: (i + 1, k, g) :: r
    | [] => [(i, 1, f)]

/-- Evict one generation from a job's region (R184): nothing is copied back. -/
def Dev.evictOne (d : Dev) (c : Nat) (v : Nat × Nat) : Dev :=
  (d.adjGen c v.1 v.2 fun g => { g with res := 0, rbase := 0 }).count (0x5100 + c) 7 1

/-- Evict until a run of granules is free, or none can be evicted; none where it never fits. -/
def Dev.makeRoom (d : Dev) (j c tiles : Nat) : Nat → Option (Nat × Dev)
  | 0 => none
  | n + 1 =>
    match d.freeRun j tiles with
    | some g => some (g, d)
    | none => match d.victim j with
      | some v => (d.evictOne c v).makeRoom j c tiles n
      | none => none

/-- A lift is wanted for a resting record: a request bound to it is admitted, or its entry's swap is pending (R184, R185). -/
def Dev.wanted (d : Dev) (c wset recB : Nat) : Bool :=
  (d.reqs.any fun q => decide (q.2.wset = wset) && decide ((if q.2.recB then 1 else 0) = recB) && q.2.st.live && q.2.committed &&
    (match tget d.jobs q.2.job with | some b => decide (b.comp = c) | none => false)) ||
  (match tget (d.catalog c).entries wset with
   | some en => decide (en.swap ≠ none) && decide (en.place 2 = some recB)
   | none => false)

/-- LIFT_START (R184, R369): the key goes into the record's slot, room is made in the job's region, and the transfers are
submitted, those that find no free record of the engine later. A member that holds no record of the generation says so to the lead. -/
def execLiftStart (job wset : Nat) (recB : Bool) (s : State) : Host.Outcome State Fault Refusal :=
  onDev s fun x d =>
    let rb := if recB then 1 else 0
    match tget d.jobs job with
    | none => d
    | some b =>
      let c := b.comp
      let g := d.genAt c wset rb
      if !d.alive || decide (b.st ≠ .running ∧ b.st ≠ .draining ∧ b.phase ≠ .rejoining) || decide (g.res ≠ 0) ||
          !(d.wanted c wset rb || decide (b.phase = .rejoining)) then d
      else if g.role = 0 then (if b.rank = 0 then d else d.tell job 3 [wset, rb, 1])
      else match tget d.keys g.keyslot, tget (d.comp c).store g.wsid with
        | _, none => d.markBad c wset rb Config.authFail
        | some ks, some sk =>
          if sk.tomb ∨ ks.kind = 5 then d.markBad c wset rb Config.keyRetired
          else if ks.kind ≠ 3 ∨ (ks.wsid ≠ 0 ∧ ks.wsid ≠ g.wsid) then d
          else match d.workEngine c, d.makeRoom job c g.tiles 8193 with
            | some e, some (run, d) =>
              let d := { d with keys := tset d.keys g.keyslot { ks with wsid := g.wsid, key := sk.key } }
              let d := d.adjGen c wset rb fun g => { g with
                res := 1, rbase := run, liftJob := job
                away := (List.range b.slice).filter fun r => decide (r ≠ b.rank) && !g.ahead.contains (job * 65536 + r)
                ahead := g.ahead.filter fun r => decide (r / 65536 ≠ job) }
              let own := d.ownSlot * 2 ^ 49
              d.submitLift e job c wset rb ((formatRuns x g.dir g.tiles 0).map fun r =>
                stepDesc (own + g.dir + 8 * r.1) (own + workBase + 65536 * (run + r.1)) r.2.1 8 r.2.2 2 0 g.keyslot c)
            | _, _ => d
        | none, _ => d.markBad c wset rb Config.authFail

/-- LIFT_COMPLETE (R184, R369): this member's transfers are done, or another member reports that it holds the generation resident,
or holds no record of it. A report that comes before this member's own lift counts for that lift. -/
def execLiftComplete (job wset : Nat) (recB : Bool) (member : Nat) (gone : Bool) (s : State) : Host.Outcome State Fault Refusal :=
  onDev s fun _ d =>
    let rb := if recB then 1 else 0
    match tget d.jobs job with
    | none => d
    | some b =>
      let c := b.comp
      let g := d.genAt c wset rb
      let d := if d.alive && decide (b.st ≠ .ended) && decide (member ≠ b.rank) then d.relay job member 3 [wset, rb, if gone then 1 else 0] else d
      if !d.alive || decide (g.role = 0) || decide (b.st = .ended) then d
      else if member ≠ b.rank then
        if gone then (if b.rank = 0 ∧ b.phase ≠ .rejoining ∧ g.res ≠ 3 then d.markBad c wset rb Config.generationGone else d)
        else if g.res = 0 then d.adjGen c wset rb fun g => { g with ahead := sinsert g.ahead (job * 65536 + member) }
        else d.adjGen c wset rb fun g => { g with away := g.away.filter fun r => decide (r ≠ member) }
      else
        let d := d.moreLift job wset rb
        let g := d.genAt c wset rb
        let open_ := d.engines.any fun e => e.2.recs.any fun r => r.st.live && decide (r.purpose = .liftGen job wset rb)
        if g.res ≠ 1 ∨ g.rest ≠ [] ∨ open_ then d
        else
          let d := { d with keys := tadj d.keys g.keyslot fun k => if k.kind = 3 then { k with wsid := 0, key := 0 } else k }
          ((d.adjGen c wset rb fun g => { g with res := 2 }).count (0x5100 + c) 5 1).tell job 3 [wset, rb, 0]

end Sys2Proof.Machine
end

