-- ==== Sys2Proof/Machine/Jobs.lean ====
section
/-!
DEFINITION. Jobs (R175 to R180, R271 to R279, Tables 5.1 and 5.2): formation, route tables and slots, the end of a job and the
release of what it holds.
-/

namespace Sys2Proof.Machine

/-! Leg records (Table 8.8) and route entries (R271). -/
def lrLeg (r : Nat) : Nat := bits r 255 244
def lrKind (r : Nat) : Nat := bits r 243 240
def lrSrc (r : Nat) : Nat := bits r 239 224
def lrDst (r : Nat) : Nat := bits r 223 208
def lrSrcPort (r : Nat) : Nat := bits r 207 204
def lrDstPort (r : Nat) : Nat := bits r 203 200
def lrSlots (r : Nat) : Nat := bits r 199 192
def lrFpp (r : Nat) : Nat := bits r 191 176
def lrPeriod (r : Nat) : Nat := bits r 175 168
def lrTxb (r : Nat) : Nat := bits r 167 154
def lrRxb (r : Nat) : Nat := bits r 153 140
def lrCapp (r : Nat) : Nat := bits r 139 132
def lrSrcCirc (r : Nat) : Nat := bits r 131 116
def lrDstCirc (r : Nat) : Nat := bits r 115 100
def reLeg (r : Nat) : Nat := bits r 255 244
def reHops (r : Nat) : Nat := bits r 243 240
def reMask (r : Nat) : Nat := bits r 239 176
/-- Out port of hop h. -/
def rePort (r h : Nat) : Nat := bits r (22 * h + 3) (22 * h)
/-- Slot advance of hop h. -/
def reDelta (r h : Nat) : Nat := bits r (22 * h + 9) (22 * h + 4)

/-- The lane count a lane code names (Table 8.6). -/
def laneCode (c : Nat) : Nat := if c = 0 then 16 else if c = 1 then 8 else if c = 2 then 4 else 0

/-- The leg records of a BRIDLE_PLAN section (R269). -/
def legRecords (sec : List Byte) : List Nat :=
  (List.range (u32At sec 0 % 65536)).map fun i => leNat ((sec.drop (64 + 32 * i)).take 32)

/-- The lanes a BRIDLE_PLAN section assumes. -/
def planLanes (sec : List Byte) : Nat := laneCode (bits (u32At sec 0) 17 16)

/-- A route table (R271): job tag, formation mask, tree, route entries. -/
structure RouteTable where
  tag : Nat
  mask : Nat
  tree : List TreeEntry
  entries : List Nat
  deriving DecidableEq, Repr

/-- Read a route table; none where its length and counts disagree, its ranks do not rise from 0, or a field is out of range. -/
def parseRoutes (bs : List Byte) (slice : Nat) : Option RouteTable :=
  let h := leNat (bs.take 64)
  let m := bits h 79 64
  let k := bits h 95 80
  let tree := (List.range m).map fun i =>
    let w := leNat ((bs.drop (64 + 16 * i)).take 16)
    (⟨bits w 127 112, bits w 111 96, bits w 95 92, bits w 91 88, bits w 87 82, bits w 81 76⟩ : TreeEntry)
  let entries := (List.range k).map fun i => leNat ((bs.drop (64 + 16 * m + 32 * i)).take 32)
  let rankOk := (List.range m).all fun i =>
    match tree[i]? with
    | some t => decide (t.rank = i) && (if i = 0 then decide (t.parent = 0xFFFF) else decide (t.parent < m) && decide (t.parent ≠ i))
    | none => false
  if bs.length ≠ 64 + 16 * m + 32 * k ∨ m ≠ slice ∨ !rankOk ∨ entries.any (fun e => decide (8 < reHops e)) then none
  else some ⟨bits h 63 0, bits h 159 96, tree, entries⟩

/-- Does a leg concern this rank as source, destination or multicast member? -/
def legMine (r own : Nat) : Bool := decide (lrKind r = 1) || decide (lrSrc r = own) || decide (lrDst r = own)

/-- One hop of a leg's route (R271): the device it leaves, the port and slot advance of arrival there, and of leaving. -/
structure RouteHop where
  dev : Nat
  at_ : Through
  deriving DecidableEq, Repr

/-- The hops of a route entry from hop h on; the first device is the one that hop h leaves. -/
def hopsFrom (e : Nat) : Nat → Nat → Nat → Nat → Nat → List RouteHop
  | 0, _, _, _, _ => []
  | n + 1, h, dev, inPort, adv =>
    let out := if h = 0 then adv else (adv + reDelta e h) % 64
    ⟨dev, ⟨inPort, adv, rePort e h, out⟩⟩ ::
      (match Config.wiring dev (rePort e h) with
       | some (far, q) => hopsFrom e n (h + 1) far q out
       | none => [])

/-- The hops of a leg's route, by the device numbers of its slice's members. -/
def legHops (members : List Nat) (r e : Nat) : List RouteHop := hopsFrom e (reHops e) 0 (members.getD (lrSrc r) 0) 0 0

/-- Where a leg passes rank own on its way to another member. -/
def throughAt (members : List Nat) (own r e : Nat) : List Through :=
  if lrKind r = 1 then []
  else (((legHops members r e).drop 1).filter fun h => decide (h.dev = members.getD own 0)).map RouteHop.at_

/-- The out ports of a leg on rank own: the source port, or for a multicast leg every tree port but the one toward the source. -/
def legPorts (tree : List TreeEntry) (own kind src srcPort : Nat) : List Nat :=
  if kind = 1 then
    let all := (treeLinks tree own).map Prod.fst
    if src = own then all else all.filter fun p => decide (some p ≠ toward tree own (tree.length + 1) src)
  else if src = own then [srcPort] else []

/-- The out slots that a leg needs on this member: port and slot, at its source, on the tree of a multicast leg, and at a hop on its way (R267,
R271, R273, R277). -/
def legSlots (tree : List TreeEntry) (members : List Nat) (own r e : Nat) : List (Nat × Nat) :=
  ((legPorts tree own (lrKind r) (lrSrc r) (lrSrcPort r)).flatMap fun p => (maskBits 64 (reMask e)).map fun s => (p, s)) ++
  (throughAt members own r e).flatMap fun t => (maskBits 64 (reMask e)).map fun s => (t.outPort, (s + t.outAdv) % 64)

/-- Everything a job holds on this member's ports: port, slot, kind (Table 8.7), leg. -/
def jobSlots (t : RouteTable) (members legs : List Nat) (own : Nat) : List (Nat × Nat × Nat × Nat) :=
  (legs.flatMap fun r =>
    match t.entries.find? fun e => decide (reLeg e = lrLeg r) with
    | some e => (legSlots t.tree members own r e).map fun p => (p.1, p.2, 0, lrLeg r)
    | none => []) ++ (treeLinks t.tree own).map fun p => (p.1, p.2, 2, 0)

/-- The slots of the formation multicast on this member's tree ports (R279). -/
def formSlots (t : RouteTable) (own : Nat) : List (Nat × Nat × Nat × Nat) :=
  (treeLinks t.tree own).flatMap fun p => (maskBits 64 t.mask).map fun s => (p.1, s, 2, 0xFFF)

/-- A pass record's fields (R272). -/
def prTag (r : Nat) : Nat := bits r 127 64
def prInPort (r : Nat) : Nat := bits r 63 60
def prInSlot (r : Nat) : Nat := bits r 59 54
def prOutPort (r : Nat) : Nat := bits r 53 50
def prOutSlot (r : Nat) : Nat := bits r 49 44

/-- The out-slot entry of a port. -/
def Port.slot (p : Port) (s : Nat) : Nat := tgetD p.slots s 0

/-- Is an out slot held by another job or a pass record (Table 8.7)? -/
def Dev.slotTaken (d : Dev) (j port s : Nat) : Bool :=
  let e := (d.port port).slot s
  (e.testBit 63 && decide (bits e 60 55 ≠ j)) || d.passRecs.any fun r => decide (prOutPort r = port) && decide (prOutSlot r = s)

/-- The local ports that a leg uses on rank own (R273, R274): where it starts or ends, the tree ports of a multicast leg, those of a hop on its
way. -/
def legLinks (t : RouteTable) (members : List Nat) (own r : Nat) : List Nat :=
  let e := (t.entries.find? fun e => decide (reLeg e = lrLeg r)).getD 0
  (if lrKind r = 1 then (treeLinks t.tree own).map Prod.fst
   else (if lrSrc r = own then [lrSrcPort r] else []) ++ (if lrDst r = own then [lrDstPort r] else [])) ++
  (throughAt members own r e).flatMap fun h => [h.inPort, h.outPort]

/-- Check 1 of R273. -/
def Dev.routesOk (d : Dev) (t : RouteTable) (members legs : List Nat) (own : Nat) (peer : Bool) : Bool :=
  let hasEntry := legs.all fun r =>
    match t.entries.find? fun e => decide (reLeg e = lrLeg r) with
    | some e => decide (popCount 64 (reMask e) = lrSlots r) && (decide (reHops e ≠ 0) || decide (lrKind r = 1)) &&
        (decide (lrKind r = 1) || decide (rePort e 0 = lrSrcPort r))
    | none => false
  let ports := (legs.flatMap fun r => legLinks t members own r) ++ (treeLinks t.tree own).map Prod.fst
  let held := jobSlots t members legs own
  let clash := (formSlots t own).any fun f => held.any fun h => decide (h.1 = f.1) && decide (h.2.1 = f.2.1)
  hasEntry && ports.all (fun p => decide (d.num (0x2200 + p) 0x15 = 1)) && !clash && !(peer && decide (t.mask = 0))

/-- Frames per slot that a port offers legs: F′ (R257). -/
def Port.frames (p : Port) : Nat := min (Config.framesPerSlot p.lanes) (if p.rtt = 0 then 15 else 1024 / ceilDiv p.rtt 16)

/-- Check 2 of R273: links in service, with the lanes and frames the legs need. -/
def Dev.linksOk (d : Dev) (t : RouteTable) (members legs : List Nat) (lanes own : Nat) : Bool :=
  let up (p : Nat) : Bool := decide ((d.port p).st = .inService)
  (treeLinks t.tree own).all (fun p => up p.1) && legs.all fun r =>
    (legLinks t members own r).all fun p => up p && decide (lanes ≤ (d.port p).lanes) &&
      decide (lrFpp r ≤ lrSlots r * (d.port p).frames * 3 * lrPeriod r)

/-- Hold out slots for a job. -/
def Dev.holdSlots (d : Dev) (j c : Nat) (ss : List (Nat × Nat × Nat × Nat)) : Dev :=
  ss.foldl (fun d s =>
    let p := d.port s.1
    let e := 2 ^ 63 + s.2.2.1 * 2 ^ 61 + j % 64 * 2 ^ 55 + c % 8 * 2 ^ 52 + s.2.2.2 % 4096 * 2 ^ 40
    d.setPort s.1 { p with slots := tset p.slots s.2.1 e }) d

/-- Give a job's out slots back. -/
def Dev.freeSlots (d : Dev) (p : Nat → Bool) : Dev :=
  { d with ports := tmap d.ports fun _ q => { q with slots := tfilter q.slots fun _ e => !p e } }

/-- The local legs of a job: those that start, end or pass here. -/
def makeLegs (t : RouteTable) (members legs : List Nat) (own j : Nat) (enc : Bool) (beat : Nat) : List (Nat × Leg) :=
  let entry (r : Nat) : Nat := (t.entries.find? fun e => decide (reLeg e = lrLeg r)).getD 0
  (legs.filter fun r => legMine r own || !(throughAt members own r (entry r)).isEmpty).map fun r =>
    let e := entry r
    let outs := legPorts t.tree own (lrKind r) (lrSrc r) (lrSrcPort r)
    (legKey j (lrLeg r),
      { kind := lrKind r, srcRank := lrSrc r, dstRank := lrDst r, srcPort := lrSrcPort r, dstPort := lrDstPort r, nslot := lrSlots r,
        txb := lrTxb r, rxb := lrRxb r, srcCirc := lrSrcCirc r, dstCirc := lrDstCirc r, mask := reMask e,
        hops := (List.range (reHops e)).map fun h => bits e (22 * h + 21) (22 * h), through := throughAt members own r e,
        tx := [], backlog := [], rx := [],
        credits := if lrSrc r = own then outs.foldl (fun m p => tset m p (lrRxb r)) []
          else if lrKind r = 1 then (16 :: outs).foldl (fun m p => tset m p 0) [] else [],
        lctr := 0, lastProbe := beat, lastSent := beat, probed := false, broken := false, enc := enc && decide (lrKind r ≠ 2) })

/-! The control tree's path time (R276). -/

/-- A rank's way to the root: rank by rank. -/
def climb (tree : List TreeEntry) : Nat → Nat → List Nat
  | 0, _ => []
  | n + 1, r =>
    match tree[r]? with
    | some t => if t.parent = 0xFFFF then [r] else r :: climb tree n t.parent
    | none => []

/-- The links a message takes between two ranks: control slot and flight time in ns. -/
def treePath (tree : List TreeEntry) (flight : Nat → Nat) (a b : Nat) : List (Nat × Nat) :=
  let ua := climb tree (tree.length + 1) a
  let ub := climb tree (tree.length + 1) b
  let up := ua.filter fun r => !ub.contains r
  let down := (ub.filter fun r => !ua.contains r).reverse
  (up.filterMap fun r => (tree[r]?).map fun t => (t.upSlot, flight r)) ++
  (down.filterMap fun r => (tree[r]?).map fun t => (t.downSlot, flight r))

/-- Arrival in ns of a message ready at time 0; a forwarded message waits for a slot that begins at least 2 slots after its arrival
(R275). -/
def pathTime : List (Nat × Nat) → Nat → Nat
  | [], t => t
  | (s, f) :: r, t =>
    let ready := if t = 0 then 0 else t + 32
    let start := if ready ≤ 16 * s then 16 * s else 16 * s + ceilDiv (ready - 16 * s) 1024 * 1024
    pathTime r (start + 16 + f)

/-- T of R276. -/
def longestPath (tree : List TreeEntry) (flight : Nat → Nat) : Nat :=
  (List.range tree.length).foldl (fun m a => (List.range tree.length).foldl (fun m b =>
    if a = b then m else max m (pathTime (treePath tree flight a b) 0)) m) 0

/-- Agreement delay of a job: 1 for a device alone, else ceil(T / one beat) + 1 (R24, R276). -/
def agreement (slice t : Nat) : Nat := if slice ≤ 1 then 1 else ceilDiv t 1024 + 1

/-- Flight time in ns of a port's link. -/
def Port.flightNs (p : Port) : Nat := ((16 * p.flight : Nat) + p.residual / 1000).toNat

/-! Regions of the working tier (R184, R202). -/

/-- The image buffer of a compartment: 64 MiB at the top of its lowest-numbered GDDR7 device (R178). -/
def Dev.imageBuffer (d : Dev) (c : Nat) : Option Nat :=
  ((List.range 16).find? fun g => decide (d.ownerBit 3 g = some c)).map fun g => workBase + (g + 1) * 2 ^ 32 - 2 ^ 26

/-- What is taken of a compartment's working tier: weight regions, key-value regions, the image buffer (R178). -/
def Dev.taken (d : Dev) (c : Nat) : List (Nat × Nat) :=
  let buf := match d.imageBuffer c with | some a => [(a, 2 ^ 26)] | none => []
  buf ++ d.jobs.flatMap fun p =>
    if p.2.comp ≠ c then [] else
      (if p.2.regionHeld then [(p.2.wbase, p.2.wlen)] else []) ++ (if p.2.released then [] else [(p.2.kvBase, p.2.kvLen)])

/-- The lowest run of len bytes that a compartment owns and nothing takes; it starts at a device or where a taken run ends. -/
def Dev.findRegion (d : Dev) (c len : Nat) (also : List (Nat × Nat)) : Option Nat :=
  let used := (d.taken c ++ also).filter fun u => decide (u.2 ≠ 0)
  let starts := ((List.range 16).map fun g => workBase + g * 2 ^ 32) ++ used.map fun u => (u.1 + u.2 + 65535) / 65536 * 65536
  let ok (a : Nat) : Bool :=
    decide (workBase ≤ a) && ((List.range ((len + 2 ^ 32 - 1) / 2 ^ 32 + 1)).all fun i =>
      d.owns c (min (a + i * 2 ^ 32) (a + len - 1)) 1) &&
    used.all fun u => decide (a + len ≤ u.1) || decide (u.1 + u.2 ≤ a)
  if len = 0 then some workBase else (osort (fun x y => decide (x < y)) (starts.filter ok)).head?

/-- Column groups that a compartment owns and no job holds (R175). -/
def Dev.freeGroups (d : Dev) (c : Nat) : List Nat :=
  (List.range 8).filter fun g => decide (d.ownerBit 2 g = some c) &&
    d.jobs.all fun p => p.2.released || decide (p.2.comp ≠ c) || !p.2.groups.contains g

/-! JOB_START. -/

/-- Do the three shares keep R157? -/
def sharesOk (sh : List Nat) : Bool := sh.all (fun v => decide (1 ≤ v) && decide (v ≤ 30)) && decide (sh.foldl (· + ·) 0 = 32)

/-- Is a job of the compartment Running, so that its shares are in force (R157)? -/
def Dev.sharesHeld (d : Dev) (c : Nat) : Bool :=
  decide (d.num (0x4060 + c) 4 ≠ 0) && d.jobs.any fun p => decide (p.2.comp = c) && decide (p.2.st = .running)

/-- The link key of a job (R370): key slot and check value, or why there is none. -/
def Dev.linkKey (d : Dev) (c tag : Nat) : Except Nat (Option (Nat × Nat)) :=
  if d.num (0x2030 + c) 1 = 0 then .ok none
  else match (d.comp c).linkSecret with
    | none => .error Config.range
    | some ls =>
      let free := (List.range 64).filter fun s => decide (d.ownerBit 6 s = some c) &&
        (match tget d.keys s with | some k => decide (k.kind = 3) | none => false) &&
        (d.gens c).all fun r => decide (r.2.2.role = 0) || decide (r.2.2.keyslot ≠ s)
      match free.getLast? with
      | some s => .ok (some (s, Config.kmac ls 2 (leBytes 8 tag)))
      | none => .error Config.noResource

/-- Status of a JOB_START against Table 5.1 and checks 1 to 3 of R273, on this member; a compartment whose wrap material is lost serves nothing (R367). -/
def Dev.startStatus (d : Dev) (j c : Nat) (desc : List Byte) (members : List Nat) (rt : Option RouteTable) (h : Nat) (bridle : List Byte)
    (number : Nat) : Nat :=
  let slice := leNat ((desc.drop 44).take 2)
  let rank := leNat ((desc.drop 46).take 2)
  let mode := leNat ((desc.drop 48).take 1)
  let place := leNat ((desc.drop 49).take 1)
  let peer := (leNat ((desc.drop 50).take 1)).testBit 0
  let sh := ((desc.drop 51).take 3).map BitVec.toNat
  let p := leNat ((desc.drop 56).take 4)
  let wlen := leNat ((desc.drop 64).take 8)
  let kvlen := leNat ((desc.drop 72).take 8)
  let cbuf := leNat ((desc.drop 96).take 8)
  let used := match tget d.jobs j with | some b => decide (b.st ≠ .ended) | none => false
  let legs := legRecords bridle
  if d.state ≠ .ready ∧ d.state ≠ .serving then Config.noTarget
  else if d.compState c ≠ 1 ∨ d.num (0x4100 + c) 0x0C = 2 ∨ used = true ∨ 1 < mode ∨ slice = 0 ∨ 32768 < slice ∨ slice ≤ rank ∨ 1 < place ∨
      (rank = 0 ∧ peer = true ∧ slice = 1) ∨ members.length ≠ slice ∨ members.getD rank 0 ≠ number ∨
      p % 4096 ≠ 0 ∨ p = 0 ∨ 4194304 < p ∨ 2 ^ 26 < leNat ((desc.drop 40).take 4) ∨ (mode = 0 ∧ cbuf ≠ 0) ∨ (mode = 1 ∧ cbuf = 0) then
    Config.range
  else if leNat ((desc.drop 54).take 2) < hStepBeats h then Config.range
  else if sh.any (fun v => decide (v ≠ 0)) && (!sharesOk sh || (d.sharesHeld c &&
      decide (sh ≠ [d.num (0x4060 + c) 4, d.num (0x4060 + c) 5, d.num (0x4060 + c) 6]))) then Config.range
  else if (d.freeGroups c).length < hColGroups h then Config.noResource
  else match d.findRegion c wlen [] with
    | none => Config.noResource
    | some wb =>
      if d.findRegion c kvlen [(wb, wlen)] = none then Config.noResource
      else if slice = 1 then Config.ok
      else match rt with
        | none => Config.range
        | some t =>
          if !d.routesOk t members legs rank peer then Config.range
          else if !d.linksOk t members legs (planLanes bridle) rank then Config.planMismatch
          else if (jobSlots t members legs rank ++ (if t.mask = 0 then [] else formSlots t rank)).any fun s => d.slotTaken j s.1 s.2.1 then
            Config.slotConflict
          else Config.ok

/-- A formation is refused (Table 5.2): the JOB_START completes with the status on every member. -/
def Dev.refuseJob (d : Dev) (x : Ctx) (j st detail : Nat) (telling : Bool) : Dev :=
  let d := if telling then d.tell j 0 [st, detail] else d
  d.endJob x j st detail

/-- Forming is over: every member has confirmed and every leg that ends here was probed; Loading begins (Table 5.2, R273). -/
def Dev.formCheck (d : Dev) (_x : Ctx) (j : Nat) : Dev :=
  match tget d.jobs j with
  | none => d
  | some b =>
    let legsOk := d.legs.all fun p => decide (p.1 / 4096 ≠ j) || !p.2.endsAt b.rank || p.2.probed
    if b.st = .forming ∧ b.confirmed.length + 1 = b.slice ∧ legsOk then
      d.setJob j { b with st := .loading, confirmed := [], passed := false }
    else d

/-- The loader has passed on every member (R179): the new configuration is fenced at once, since no job runs on its facets. A replacement
waits for its slice to rejoin instead (R409). -/
def Dev.loadedCheck (d : Dev) (x : Ctx) (j : Nat) : Dev :=
  match tget d.jobs j with
  | none => d
  | some b =>
    let k := d.canopyOf b.comp
    if b.st = .loading ∧ b.phase ≠ .rejoining ∧ b.passed ∧ b.confirmed.length + 1 = b.slice ∧ k.st = .shadowValid then
      d.setCanopy b.comp { k with st := .fenced, job := some j, group := none, fence := x.time.beat, drain := none, drains := [] }
    else d

/-- Every member has confirmed: slots are reserved and PROBEs may go (R273). -/
def Dev.reserve (d : Dev) (x : Ctx) (j : Nat) (t : RouteTable) (members legs : List Nat) (own c : Nat) : Dev :=
  let ss := jobSlots t members legs own ++ formSlots t own
  let enc := decide (d.num (0x2030 + c) 1 ≠ 0)
  let d := d.holdSlots j c ss
  { d with legs := (makeLegs t members legs own j enc x.time.beat).foldl (fun m p => tset m p.1 p.2) d.legs }

/-- Release what an Ended job holds but its weight region (R180). -/
def Dev.releaseJob (d : Dev) (j : Nat) : Dev :=
  let d := d.freeSlots fun e => decide (bits e 62 61 ≠ 1) && decide (bits e 60 55 = j)
  { d with
    jobs := tadj d.jobs j fun b => { b with released := true, groups := [], freeFrames := [] }
    legs := tfilter d.legs fun k _ => decide (k / 4096 ≠ j)
    routes := terase d.routes j
    gwCredits := d.gwCredits }

/-- JOB_START (R176 to R179, Table 5.1): the checks of this member, then Forming. -/
def execJobStart (ring tag : Nat) (host : Option JobHost) (s : State) : Host.Outcome State Fault Refusal :=
  onDev s fun x d =>
    d.runData x ring tag (fun e => decide (eOpcode e = 0x20)) host fun e h d =>
      let j := eJob e
      let c := d.ringComp ring
      let f (o n : Nat) : Nat := leNat ((h.desc.drop o).take n)
      let slice := f 44 2
      let rank := f 46 2
      let hdr := leNat (h.imageHead.take 128)
      let rt := parseRoutes h.routes slice
      let jt := match rt with | some t => t.tag | none => 0
      let st := d.startStatus j c h.desc h.members rt hdr h.bridle x.fuse.number
      let held := match tget d.jobs j with | some b => b.regionHeld | none => false
      -- a check that fails here refuses the job on every member (R177)
      let refuse (st : Nat) : Dev :=
        (match rt with | some t => if slice ≤ 1 then d else d.tellTree t.tree rank j 0 [st, 0] | none => d).answer x ring tag st
      if st ≠ Config.ok then refuse st
      else if held then refuse Config.noResource
      else match d.linkKey c jt with
        | .error st => refuse st
        | .ok key =>
          let d := d.releaseJob j
          let wb := (d.findRegion c (f 64 8) []).getD workBase
          let kb := (d.findRegion c (f 72 8) [(wb, f 64 8)]).getD workBase
          let frames := f 72 8 / framePitch (f 56 4)
          let sh := ((h.desc.drop 51).take 3).map BitVec.toNat
          let peer := (f 50 1).testBit 0
          let b : Job := {
            st := .forming, comp := c, spar := decide (f 48 1 = 1), rank := rank, members := h.members, slice := slice,
            origin := ⟨ring, tag⟩, endOrigin := [], digest := h.desc.take 32, peerImage := peer, header := hdr, info := ImageInfo.none,
            hostImage := f 32 8, groups := [], released := false, regionHeld := true, tiered := decide (f 49 1 = 1), pageSize := f 56 4,
            wbase := wb, wlen := f 64 8, kvBase := kb, kvLen := f 72 8, countBuf := f 96 8, maxStep := f 54 2, lastStep := 0,
            agree := 1, confirmed := [], formedAt := x.time.beat, serial := 0, nextAdm := 1, staged := none, step := none,
            doneBeats := [], doneFlags := [], results := [], shares := sh, flights := [],
            freeFrames := (List.range frames).drop 1, prefixes := [], automata := [], plans := [], inj := false, phase := .none,
            frozenAt := 0, iced := false, before := .forming, failed := [], linkSlot := key.map Prod.fst, imageRank := 0,
            passed := false, endStatus := 0, faultStatus := 0, held := false, applied := [],
            undone := none, aborts := [], parity := [], retBase := [], cntBase := [], early := [], reruns := [] }
          let d := (d.setJob j b).serveState
          let d := ((d.setNum (0x5000 + j) 8 0).setNum (0x5000 + j) 9 0).setNum (0x2280 + j) 3 0
          let d := match key with
            | some (ks, v) => { d with keys := tset d.keys ks ⟨4, 0, v⟩ }
            | none => d
          if slice = 1 then d.formCheck x j
          else
            match rt with
            | none => d
            | some t =>
              let fl := match t.tree[rank]? with | some te => if te.parent = 0xFFFF then 0 else (d.port te.upPort).flightNs | none => 0
              let d := { d with routes := tset d.routes j ⟨t.tag, t.mask, t.tree, t.entries, 0, 0, []⟩ }
              let d := (d.adjJob j fun b => { b with flights := tset b.flights rank fl }).reserve x j t h.members (legRecords h.bridle) rank c
              let d := d.tell j 0 [Config.ok, 0, d.profile, d.num (0x5340 + j) 1, (key.map Prod.snd).getD 0, fl]
              -- what the lead's image says of the job goes down the tree to members that get the image from it (R178)
              let head := (h.imageHead ++ h.bridle).map BitVec.toNat
              if rank = 0 then d.tell j 7 head else d.relay j 0 7 head

/-- FORMATION_CONFIRMATION (R177, R276, R370, R426, Table 5.2): while Forming, one more member confirms or refuses; while Loading,
one more member's loader has passed or failed; a replacement whose loader fails leaves the survivors Frozen (Table 13.6). -/
def execFormationConfirmation (job rank : Nat) (confirm : Confirm) (s : State) : Host.Outcome State Fault Refusal :=
  onDev s fun x d =>
    match tget d.jobs job with
    | none => d
    | some b =>
      if !d.alive || decide (b.slice ≤ rank) || decide (rank = b.rank) || b.confirmed.contains rank then d
      else
      let d := d.relay job rank 0 [confirm.status, confirm.detail, confirm.profile, confirm.mode, confirm.jkCheck, confirm.flight]
      if b.st = .forming then
        let own := match b.linkSlot.bind fun s => tget d.keys s with | some k => k.key | none => 0
        let st :=
          if confirm.status ≠ Config.ok then confirm.status
          else if (b.rank = 0 ∧ b.peerImage ∧ confirm.rejoin = false) ∨ confirm.profile ≠ d.profile ∨
              confirm.mode ≠ d.num (0x5340 + job) 1 then Config.range
          else if b.linkSlot.isSome && decide (confirm.jkCheck ≠ own) then Config.authFail
          else Config.ok
        if st ≠ Config.ok then d.refuseJob x job st 0 (decide (confirm.status = Config.ok))
        else
          let b := { b with confirmed := sinsert b.confirmed rank, flights := tset b.flights rank confirm.flight,
                            phase := if confirm.rejoin then .rejoining else b.phase
                            serial := if confirm.rejoin then confirm.serial else b.serial }
          let d := d.setJob job b
          let k := d.canopyOf b.comp
          let d := if confirm.rejoin then d.setCanopy b.comp { k with epoch := confirm.epoch } else d
          let d :=
            if b.confirmed.length + 1 = b.slice then
              match tget d.routes job with
              | some r =>
                let t := longestPath r.tree fun n => tgetD b.flights n 0
                { d.adjJob job fun b => { b with agree := agreement b.slice t } with
                  routes := tset d.routes job { r with pathTime := t }
                  -- the PROBEs run from now on (R273)
                  legs := tmap d.legs fun k l => if k / 4096 = job then { l with lastProbe := x.time.beat } else l }
              | none => d
            else d
          d.formCheck x job
      else if b.st = .loading then
        if confirm.status ≠ Config.ok then d.refuseJob x job confirm.status confirm.detail false
        else (d.setJob job { b with confirmed := sinsert b.confirmed rank }).loadedCheck x job
      else if b.st = .faulted ∧ b.phase = .rejoining ∧ confirm.status ≠ Config.ok then
        d.setJob job { b with phase := .frozen, frozenAt := x.time.beat }
      else d

/-- FORMATION_TIMEOUT (Table 5.1): a member has not confirmed within 2 Rounds. -/
def execFormationTimeout (job : Nat) (s : State) : Host.Outcome State Fault Refusal :=
  onDev s fun x d =>
    match tget d.jobs job with
    | none => d
    | some b =>
      if d.alive && decide (b.st = .forming) && decide (b.confirmed.length + 1 < b.slice) &&
          decide (b.formedAt + 2 * Config.round ≤ x.time.beat) then
        d.refuseJob x job Config.noTarget 0 true
      else d

/-- PROBE_CHECK_TIMEOUT (R273): a leg that ends here was not probed within 2 Rounds after the PROBEs began. -/
def execProbeCheckTimeout (job : Nat) (s : State) : Host.Outcome State Fault Refusal :=
  onDev s fun x d =>
    match tget d.jobs job with
    | none => d
    | some b =>
      let missing := d.legs.any fun p => decide (p.1 / 4096 = job) && p.2.endsAt b.rank && !p.2.probed &&
        decide (p.2.lastProbe + 2 * Config.round ≤ x.time.beat)
      if d.alive && decide (b.st = .forming) && decide (b.confirmed.length + 1 = b.slice) && missing then d.refuseJob x job Config.planMismatch 0 true else d

/-- Is a reconfiguration staged that uses the shadow copies of compartment c (R117): a fence, a granted group that names the compartment, or
another job whose image has been loaded and has not flipped? -/
def Dev.shadowBusy (d : Dev) (c j : Nat) : Bool :=
  (d.canopyOf c).staged ||
  (d.groups.any fun g => decide (g.2.st = .granted) && g.2.entries.any fun e =>
    decide (e.kind = 2) && decide (e.index = 1) && decide (leNat (e.value.take 1) = c)) ||
  d.jobs.any fun p => decide (p.1 ≠ j) && decide (p.2.comp = c) && decide (p.2.st = .loading) && p.2.passed

/-- IMAGE_ARRIVAL (R178): the image is whole in the image buffer. A load while a reconfiguration is staged completes BUSY (R117). -/
def execImageArrival (job : Nat) (image : List Byte) (s : State) : Host.Outcome State Fault Refusal :=
  onDev s fun x d =>
    match tget d.jobs job with
    | none => d
    | some b =>
      if d.alive && decide (b.st = .loading) && d.shadowBusy b.comp job then (d.tell job 0 [Config.busy, 0]).refuseJob x job Config.busy 0 false
      else if d.alive && decide (b.st = .loading) then
        let k := d.canopyOf b.comp
        let bytes := image.take (2 ^ 26)
        let d := { d with images := tset d.images job bytes }
        let d := match d.imageBuffer b.comp with | some a => d.memOp (.write a bytes) | none => d
        if k.st = .idle ∨ k.st = .shadowValid then d.setCanopy b.comp { k with st := .loading } else d
      else d

/-- JOB_END in either form (R180, Table 5.2): it waits for the job's next step boundary; from Faulted the job ends at once. -/
def Dev.jobEnd (d : Dev) (x : Ctx) (r tag e : Nat) (cancel : Bool) : Dev :=
  let j := eJob e
  match tget d.jobs j with
  | none => d.answer x r tag Config.range
  | some b =>
    match b.st with
    | .running => d.waitCmd x b.comp (some j) r tag (.endJob cancel ⟨r, tag⟩)
    | .draining =>
      if cancel then d.waitCmd x b.comp (some j) r tag (.endJob true ⟨r, tag⟩)
      else d.setJob j { b with endOrigin := b.endOrigin ++ [⟨r, tag⟩] }
    | .faulted => (d.setJob j { b with endOrigin := b.endOrigin ++ [⟨r, tag⟩] }).killJob x j Config.aborted
    | _ => d.answer x r tag Config.range

/-- JOB_END, form 0. -/
def execJobEndDrain (ring tag : Nat) (s : State) : Host.Outcome State Fault Refusal :=
  onDev s fun x d =>
    d.runCmd x ring tag (fun e => decide (eOpcode e = 0x21) && decide (ebyte e 8 = 0)) fun e d => d.jobEnd x ring tag e false

/-- JOB_END, form 1. -/
def execJobEndCancel (ring tag : Nat) (s : State) : Host.Outcome State Fault Refusal :=
  onDev s fun x d =>
    d.runCmd x ring tag (fun e => decide (eOpcode e = 0x21) && decide (ebyte e 8 = 1)) fun e d => d.jobEnd x ring tag e true

/-- JOB_RESOURCE_RELEASE (R180): column groups, Bridle slots and frames, at the beat boundary after the job ended. -/
def execJobResourceRelease (job : Nat) (s : State) : Host.Outcome State Fault Refusal :=
  onDev s fun _ d =>
    match tget d.jobs job with
    | none => d
    | some b => if decide (b.st = .ended) && !b.released then d.releaseJob job else d

/-- WEIGHT_REGION_RELEASE (R180): no step of another job reads a copy in the region; its copies become resting. -/
def execWeightRegionRelease (job : Nat) (s : State) : Host.Outcome State Fault Refusal :=
  onDev s fun _ d =>
    match tget d.jobs job with
    | none => d
    | some b =>
      let mine := (d.gens b.comp).filter fun r => decide (r.2.2.role ≠ 0) && decide (r.2.2.liftJob = job) &&
        (decide (r.2.2.res = 1) || decide (r.2.2.res = 2))
      if decide (b.st ≠ .ended) || !b.regionHeld || mine.any (fun r => d.stepping b.comp r.1 r.2.2.gen) then d
      else
        let d := mine.foldl (fun d r => d.adjGen b.comp r.1 r.2.1 fun g => { g with res := 0, rbase := 0, rest := [] }) d
        d.setJob job { b with regionHeld := false }

end Sys2Proof.Machine
end

