-- ==== Sys2Proof/Machine/Thaw.lean ====
section
/-!
DEFINITION. How facet programs and gateways start with a configuration (R79, R90, R91), and how a member freezes a job and lets it go on
(R405, R412).
-/

namespace Sys2Proof.Machine

/-! Circuit records (Table 3.4). -/
def crHop (r i : Nat) : Nat := bits r (322 + 3 * i) (320 + 3 * i)
def crSlots (r : Nat) : Nat := bits r 319 256
def crFpp (r : Nat) : Nat := bits r 255 240
def crPeriod (r : Nat) : Nat := bits r 239 232
def crCredits (r : Nat) : Nat := bits r 231 224
def crOqlim (r : Nat) : Nat := bits r 223 216
def crDstq (r : Nat) : Nat := bits r 215 208
def crSrcq (r : Nat) : Nat := bits r 207 200
def crDst (r : Nat) : Nat := bits r 199 184
def crSrc (r : Nat) : Nat := bits r 183 168
def crStream (r : Nat) : Nat := bits r 167 155

/-- Flits in a facet's queues and switch buffers. -/
def Facet.flits (f : Facet) : Nat :=
  f.iq.foldl (fun n p => n + p.2.length) 0 + f.oq.foldl (fun n p => n + p.2.length) 0 + f.bufs.foldl (fun n p => n + p.2.length) 0

/-- The circuits that gateways feed on the facets of a job: destination facet × 8 + queue, CREDITS (R90). -/
def Job.gatewayEnds (b : Job) : List (Nat × Nat) :=
  (b.info.circuits.filter fun r => decide (crSrc r = 0xFFFF)).map fun r => (physFacet b.groups (crDst r) * 8 + crDstq r, crCredits r)

/-- A facet program starts at its first iteration, with every circuit's credits (R79, R91) and every tile command at its AADDR and BADDR
(R82); nothing of the old one is under way. A job's
start clears the scalar registers (R81). -/
def Facet.startProgram (f : Facet) (execBeats : Nat) (fresh : Bool) : Facet :=
  { f with
    run := .idle, started := true, poisonSeen := false, startExec := execBeats, iter := 0, pc := 0, next := 1
    doneA := false, doneV := false, doneC := false, issued := false, counted := false, ended := false, vrow := 0, vout := [], stall := .none
    tileIssues := []
    s := if fresh then List.replicate 16 0 else f.s, sIssue := if fresh then List.replicate 16 0 else f.s
    iq := [], oq := [], bufs := [], creditFly := [], grps := [], passes := [], drainQ := [], curBank := 0
    bank0 := { f.bank0 with st := .free }, bank1 := { f.bank1 with st := .free }
    credits := f.active.oq.map fun p => (p.1, p.2.credits) }

/-- The gateways' credits of a job at the start of its configuration (R90). -/
def Dev.fillGateways (d : Dev) (b : Job) : Dev :=
  { d with gwCredits := b.gatewayEnds.foldl (fun t e => tset t e.1 e.2) d.gwCredits }

/-- A plan of an aborted run: nothing of it stands but what its count record said (R234). -/
def Plan.again (p : Plan) : Plan := { p with rounds := 0, st := .pending, origin := none, waiting := [] }

/-- The step in progress is aborted and will run again under its own serial, from the same inputs (R121, R122, R197, R405): it is staged in
place of the next one. The plans of its count records may still be answered (R234). -/
def Job.rerun (b : Job) (now : Nat) : Job :=
  match b.step with
  | none => b
  | some st => { b with step := none, staged := some { st with start := now }, serial := (b.serial + 65535) % 65536, plans := [],
                        reruns := b.plans.map Plan.again, early := [], doneBeats := [], doneFlags := [], results := [], held := false }

/-! The freeze (R405). -/

/-- What the step controller undoes when it aborts a descriptor of its own: a lift's copy goes, a page is where it was. -/
def Dev.undo (d : Dev) (w : Nat) : Purpose → Dev
  | .liftGen j wset rb =>
    match tget d.jobs j with
    | none => d
    | some b =>
      let d := { d with keys := tadj d.keys (sdKey w) fun k => if k.kind = 3 then { k with wsid := 0, key := 0 } else k }
      d.adjGen b.comp wset rb fun g => if g.res = 1 then { g with res := 0, rbase := 0, rest := [] } else g
  | .spillPage _ slot page => d.adjPage slot page fun p => match p.place with | .spilling fr _ _ => { p with place := .working fr } | _ => p
  | .liftPage j slot page =>
    match (tget d.reqs slot).bind fun q => q.pages[page]? with
    | some ⟨.lifting a fr, _, _, _⟩ =>
      (d.adjPage slot page fun p => { p with place := .resting a }).adjJob j fun b => { b with freeFrames := sinsert b.freeFrames fr }
    | _ => d
  | _ => d

/-- The job's winch descriptors are aborted (R166, R405). -/
def Dev.abortDescs (d : Dev) (j : Nat) (b : Job) : Dev :=
  d.engines.foldl (fun (d : Dev) (e : Nat × Engine) =>
    (e.2.recs.filter fun r => r.st.open && d.descOfJob j b r).foldl (fun (d : Dev) (r : Rec) => (d.abortRec e.1 r.num false).undo r.desc r.purpose) d) d

/-- Flits of a job held in queues, switch buffers, on the way to its facets, and in gateway buffers. -/
def Dev.jobFlits (d : Dev) (j : Nat) (b : Job) : Nat :=
  b.facets.foldl (fun n i => n + (d.facet i).flits + (d.facet i).arriving.length) 0 +
    d.legs.foldl (fun n l => if l.1 / 4096 = j then n + l.2.tx.length + l.2.backlog.length + l.2.rx.length else n) 0

/-- A staged reconfiguration of a compartment whose flip has not come completes ABORTED; its shadow copies stay valid (R405). -/
def Dev.abortReconf (d : Dev) (x : Ctx) (c : Nat) : Dev :=
  let k := d.canopyOf c
  let names (g : Group) : Bool := g.entries.any fun e => decide (e.kind = 2) && decide (e.index = 1) && decide (leNat (e.value.take 1) = c)
  let hit := (d.groups.filter fun g => decide (g.2.st = .granted) && names g.2).map Prod.fst
  let d := hit.foldl (fun d n => d.finishGroup x n .aborted Config.aborted 0) d
  if k.staged && k.group.isSome then d.setCanopy c { k with group := none, drain := none, drains := [] } else d

/-- A Faulted member freezes a job (R405): facets and gateways held, flits discarded and counted, descriptors aborted, plans dropped; the
step in progress keeps its outcome until the rejoin settles it (R406), what was staged goes. -/
def Dev.freeze (d : Dev) (x : Ctx) (j : Nat) : Dev :=
  match tget d.jobs j with
  | none => d
  | some b =>
    let lost := d.jobFlits j b
    let d := (d.count (0x5340 + j) 9 lost).setNum (0x5340 + j) 7 x.time.beat
    let d := b.facets.foldl (fun (d : Dev) (n : Nat) => d.adjFacet n fun f =>
      { f with frozen := true, iq := [], oq := [], bufs := [], arriving := [], grps := [] }) d
    let d : Dev := { d with legs := tmap d.legs fun k l => if k / 4096 = j then { l with tx := [], backlog := [], rx := [] } else l }
    let d := ((d.abortDescs j b).abortReconf x b.comp).answerPlans x j Config.range
    d.adjJob j fun b => { b with
      iced := true, plans := [], early := [], reruns := [], staged := none
      aborts := b.aborts ++ (match b.staged with | some st => st.origin.toList | none => []) }

/-! The end of the freeze. -/

/-- The discarded step will run again under its own serial; the host's STEP completes ABORTED instead (R405, R424). -/
def Job.settleUndone (b : Job) (now : Nat) : Job :=
  match b.undone with
  | none => b
  | some st =>
    match st.origin with
    | some o => { b with undone := none, aborts := b.aborts ++ [o] }
    | none => { b with undone := none, staged := some { st with start := now }, serial := (st.serial + 65535) % 65536 }

/-- The step in progress at the freeze becomes the discarded one. -/
def Job.discard (b : Job) : Job :=
  match b.step with
  | none => b
  | some st => { b with step := none, undone := some st, plans := [], early := [], reruns := [], doneBeats := [], doneFlags := [], results := [], held := false }

/-- Facets and gateways of a job start again from the beginning of their programs. -/
def Dev.unfreeze (d : Dev) (j : Nat) : Dev :=
  match tget d.jobs j with
  | none => d
  | some b =>
    let d := b.facets.foldl (fun (d : Dev) (n : Nat) => d.adjFacet n fun f => { f.startProgram d.execBeats true with frozen := false }) d
    (d.fillGateways b).setJob j { b with iced := false }

/-- STEPs that a freeze left open complete ABORTED at the lead (R424). -/
def Dev.answerAborts (d : Dev) (x : Ctx) (j : Nat) : Dev :=
  match tget d.jobs j with
  | none => d
  | some b =>
    let d := b.aborts.foldl (fun (d : Dev) (o : Origin) => (d.answerO x o Config.aborted).setNum (0x5400 + j) 3 Config.aborted) d
    d.adjJob j fun b => { b with aborts := [] }

/-- A job without restore work goes on once every leg that ends here is probed (R412). -/
def Dev.resumeCheck (d : Dev) (x : Ctx) (j : Nat) : Dev :=
  match tget d.jobs j with
  | none => d
  | some b =>
    let probed := d.legs.all fun l => decide (l.1 / 4096 ≠ j) || !l.2.endsAt b.rank || l.2.probed
    if b.iced && decide (b.phase = .none) && probed then
      ((d.unfreeze j).adjJob j fun b => b.settleUndone x.time.beat).answerAborts x j
    else d

end Sys2Proof.Machine
end

