-- ==== Sys2Proof/Machine/Bridle.lean ====
section
/-!
DEFINITION. The Bridle ports and legs (chapter 8): training, identification and conformance of links, loss of links, frames received
and acknowledged, credits, passing, PROBEs, the change of lanes.
-/

namespace Sys2Proof.Machine

/-! The wiring plan (Table 8.6). -/
def peFid (e : Nat) : Nat := bits e 255 192
def peReach (e : Nat) : Nat := bits e 153 152
def peLanes (e : Nat) : Nat := laneCode (bits e 151 150)

/-- Lanes this end offers on a port: the smaller of the profile's and the plan's (R254), the new profile's
from the Round boundary of a change on. -/
def Dev.lanesHere (d : Dev) (p : Nat) : Nat :=
  let n := peLanes (d.planEntry p)
  let prof := match d.ballast.profChange with | some c => c.profile | none => d.profile
  match Config.profileLanes prof with
  | some m => min m n
  | none => n

/-- The largest lane count of Table 8.1 that is not above n. -/
def laneStep (n : Nat) : Nat := if 16 ≤ n then 16 else if 8 ≤ n then 8 else if 4 ≤ n then 4 else 0

/-- Is a port enabled (0x2200 + p:15)? -/
def Dev.portOn (d : Dev) (p : Nat) : Bool := decide (d.num (0x2200 + p) 0x15 ≠ 0)

/-- The result a port reports (R263): CONFORM while Conforming or In service, UNPLANNED or WRONG while it stands Disabled for it, else
MISSING where it is planned. -/
def Dev.planResult (d : Dev) (p : Nat) : Nat :=
  let q := d.port p
  if q.st = .conforming ∨ q.st = .inService then 0
  else if q.st = .disabled ∧ (q.plan = 1 ∨ q.plan = 3) then q.plan
  else if pePlanned (d.planEntry p) then 2 else 4

/-- Required ports that are not In service (0x2000:08). -/
def Dev.requiredDown (d : Dev) : Nat :=
  (List.range 16).foldl (fun m p => if peReq (d.planEntry p) && decide ((d.port p).st ≠ .inService) then m + 2 ^ p else m) 0

/-- Milliseconds of a number of beats, rounded up. -/
def msOf (beats : Nat) : Nat := ceilDiv (beats * 128) 125000

/-- R266: in Training the device becomes Ready once every required port is In service and memory training is done; until then its plan
result is PLAN_MISMATCH and alert cause 3 is set. A device whose number is above that of a far end that is past Training stays in Training
(R17): the link to it is Held. -/
def Dev.evalTraining (d : Dev) (x : Ctx) : Dev :=
  if d.state ≠ .training then d
  else if d.boot.memDone && decide (d.requiredDown = 0) && (List.range 16).all (fun p => decide ((d.port p).st ≠ .held)) then
    (({ d with state := .ready }.setNum 0x2000 7 Config.ok).setNum 0x1420 3 (msOf (x.time.beat - d.boot.releasedAt))).serveState
  else (d.setNum 0x2000 7 Config.planMismatch).alert 3

/-! Loss of a port. -/

/-- Does a leg use a local port, at its source, at its destination, or at a hop on its way (R274)? -/
def legUses (tree : List TreeEntry) (own : Nat) (l : Leg) (p : Nat) : Bool :=
  if l.through.any fun t => decide (t.inPort = p) || decide (t.outPort = p) then true
  else if l.kind = 1 then (treeLinks tree own).any fun t => decide (t.1 = p)
  else (decide (l.srcRank = own) && decide (l.srcPort = p)) || (decide (l.dstRank = own) && decide (l.dstPort = p))

/-- Legs and tree links of every job on a port break; each job that loses one enters Faulted (R274, R403), and one that forms or loads is refused
with NO_TARGET (R180). -/
def Dev.breakPort (d : Dev) (x : Ctx) (p : Nat) : Dev :=
  d.jobs.foldl (fun d jb =>
    let j := jb.1
    match tget d.routes j with
    | none => d
    | some r =>
      if jb.2.st = .ended then d
      else
        let hit := d.legs.filter fun l => decide (l.1 / 4096 = j) && !l.2.broken && legUses r.tree jb.2.rank l.2 p
        let trees := ((treeLinks r.tree jb.2.rank).filter fun t => decide (t.1 = p)).length
        let n := hit.length + trees
        if n = 0 then d
        else
          let d := { d with legs := tmap d.legs fun k l => if hit.any (fun h => decide (h.1 = k)) then { l with broken := true } else l }
          let d := { d with routes := tset d.routes j { r with broken := r.broken + n } }
          let d := d.count (0x2280 + j) 3 n
          if jb.2.st = .forming ∨ jb.2.st = .loading then d.refuseJob x j Config.noTarget 0 true else d.jobFault x j Config.linkDown) d

/-- Does the leg of a board-space request leave this member on a port? -/
def Dev.requestOn (d : Dev) (p : Nat) (b : BoardReq) : Bool :=
  match tget d.legs b.leg, tget d.jobs (b.leg / 4096), tget d.routes (b.leg / 4096) with
  | some l, some j, some r => legUses r.tree j.rank l p
  | _, _, _ => false

/-- Board-space requests whose path goes down with a port complete LINK_DOWN (R170, R285). -/
def Dev.loseBoard (d : Dev) (p : Nat) : Dev :=
  (d.board.filter fun b => d.requestOn p b.2).foldl (fun d b =>
    let d := { d with board := terase d.board b.1 }.count 0x4070 4 1
    match b.2.user with
    | .gondola g => d.emit (.gondola g Config.linkDown [])
    | .engine e n el =>
      if b.2.kind = 0 then d.readReply e n el b.2.addr Config.linkDown []
      else d.writeReply e n el b.2.len Config.linkDown) d

/-- A profile change is over when the clock, memory and every port are done. -/
def Dev.profTidy (d : Dev) : Dev :=
  match d.ballast.profChange with
  | some p =>
    if !p.held && p.vddDone && p.clockDone && p.gddr && p.lanes.isEmpty then { d with ballast := { d.ballast with profChange := none } } else d
  | none => d

/-- A profile change need not wait for a port any more: its lanes have changed, or its link is gone (R254, R380). -/
def Dev.lanesDone (d : Dev) (p : Nat) : Dev :=
  if (d.port p).changing then
    let pc := d.ballast.profChange.map fun c => { c with lanes := c.lanes.filter fun i => decide (i ≠ p) }
    ({ d with ballast := { d.ballast with profChange := pc } }.setPort p { d.port p with changing := false }).profTidy
  else d

/-- A port in a state, with nothing of its link kept but the out slots that are held. -/
def Port.fresh (q : Port) (st : LinkState) (plan since : Nat) : Port := { Port.reset with st := st, plan := plan, since := since, slots := q.slots }

/-- A port goes Down (R262): the event counts, everything on the link breaks. -/
def Dev.portDown (d : Dev) (x : Ctx) (p : Nat) : Dev :=
  let d := d.lanesDone p
  let q := d.port p
  let d := d.setPort p { q.fresh .down q.plan x.time.beat with offset := q.offset, farNum := q.farNum, farPlace := q.farPlace }
  (((d.loseBoard p).breakPort x p).count (0x2200 + p) 0x11 1).evalTraining x

/-- A port goes to electrical idle: Disabled, or Idle (Table 8.5). -/
def Dev.portQuiet (d : Dev) (x : Ctx) (p : Nat) (st : LinkState) (plan : Nat) : Dev :=
  let d := d.lanesDone p
  let q := d.port p
  let d := d.setPort p (q.fresh st plan 0)
  if q.st = .inService then (d.loseBoard p).breakPort x p else d

/-- Port p starts again from Idle, or stays Disabled where it is not enabled. -/
def Dev.portIdle (d : Dev) (x : Ctx) (p : Nat) : Dev := d.portQuiet x p (if d.portOn p then .idle else .disabled) 4

/-! Training and identification (Table 8.5). -/

/-- A device that is Placed or later. -/
def DevState.placed? (s : DevState) : Bool := decide (3 ≤ s.code) && decide (s.code ≤ 7)

/-- SIGNAL_DETECTED: an enabled Idle port of a device that is Placed or later trains; after a failed attempt not before 64 beats. -/
def execSignalDetected (port : Nat) (s : State) : Host.Outcome State Fault Refusal :=
  onDev s fun x d =>
    let q := d.port port
    if d.alive && decide (port < 16) && decide (q.st = .idle) && d.portOn port && d.state.placed? &&
        (decide (q.since = 0) || decide (q.since + 64 ≤ x.time.beat)) then
      d.setPort port { q with st := .training, since := x.time.beat }
    else d

/-- The IDENTITY frame of a port (Table 8.4). -/
def Dev.identityFrame (d : Dev) (x : Ctx) (p : Nat) : Frame :=
  let c := leBytes 8 x.fuse.number ++ leBytes 1 (d.num 0x2000 1) ++ leBytes 1 (d.num 0x2000 2) ++
    leBytes 1 (d.num 0x2000 3) ++ leBytes 2 (d.num 0x2000 4) ++ leBytes 1 (d.num 0x2000 5) ++ leBytes 1 p ++
    leBytes 1 (d.lanesHere p) ++ leBytes 1 (peReach (d.planEntry p)) ++ leBytes 1 d.state.code
  { idleFrame with typ := 4, ctl := c }

/-- Round trip in ns, rounded up to whole slots, and F′ (R257). -/
def Port.measure (q : Port) (lanes flight : Nat) (residual : Int) (rtt : Nat) : Port :=
  let q := { q with lanes := lanes, flight := flight % 256, residual := residual, rtt := ceilDiv rtt 16 * 16 }
  { q with usable := q.frames }

/-- LANES_LOCKED: flight time and round trip are measured, IDENTITY is sent. -/
def execLanesLocked (port lanes flight : Nat) (residual : Int) (rtt : Nat) (s : State) : Host.Outcome State Fault Refusal :=
  onDev s fun x d =>
    let q := d.port port
    let n := laneStep (min lanes (d.lanesHere port))
    if d.alive && decide (q.st = .training) && decide (0 < n) then
      (d.setPort port { q.measure n flight residual rtt with st := .identifying, since := x.time.beat }).emit
        (.frame port (d.identityFrame x port))
    else d

/-- TRAINING_TIMEOUT: the attempt counts, the next comes after 64 beats. -/
def execTrainingTimeout (port : Nat) (s : State) : Host.Outcome State Fault Refusal :=
  onDev s fun x d =>
    let q := d.port port
    if d.alive && decide (q.st = .training) then
      (d.setPort port { q with st := .idle, since := x.time.beat }).count (0x2200 + port) 6 1
    else d

/-- Far placement as 0x2200 + p:04 shows it, from an IDENTITY payload. -/
def farPlaceOf (c : List Byte) : Nat :=
  let b (i : Nat) : Nat := (c.getD i 0).toNat
  (b 11 + 256 * b 12) * 2 ^ 48 + b 8 * 2 ^ 32 + b 9 * 2 ^ 24 + b 10 * 2 ^ 16 + b 13 * 2 ^ 8 + b 14

/-- Does a far end match a wiring-plan entry (R264)? -/
def planMatches (e : Nat) (c : List Byte) : Bool :=
  let b (i : Nat) : Nat := (c.getD i 0).toNat
  decide (b 8 = bits e 175 171) && decide (b 9 = bits e 170 166) && decide (b 10 = bits e 165 161) &&
  decide (b 11 + 256 * b 12 = bits e 191 176) && decide (b 13 = peSlot e) && decide (b 14 = bits e 160 157) &&
  (decide (peFid e = 0) || decide (peFid e = leNat (c.take 8))) && decide (b 16 = peReach e)

/-- Corrected symbols of a frame on a port whose lanes are locked (R255). -/
def Dev.corrected (d : Dev) (p fec : Nat) : Dev := if fec = 0 ∨ (d.port p).speaks = false then d else d.count (0x2200 + p) 0x0B fec

/-- IDENTITY (R264, Table 8.5): Conforming where the entry is planned and the far end matches; else Disabled. On a link that was
identified, another far end takes it Down (R262). -/
def execIdentity (port : Nat) (frame : Frame) (fec : Nat) (s : State) : Host.Outcome State Fault Refusal :=
  onDev s fun x d =>
    let d := if d.alive && decide (frame.typ = 4) then d.corrected port fec else d
    let q := d.port port
    let c := frame.ctl
    if port = 16 then d.tetherFrame x frame fec
    else if !d.alive || decide (frame.typ ≠ 4) then d
    else if q.st = .identifying then
      let e := d.planEntry port
      let offered := (c.getD 15 0).toNat
      let q := { q with farNum := leNat (c.take 8), farPlace := farPlaceOf c, farLanes := offered, farState := (c.getD 17 0).toNat,
                        lanes := laneStep (min q.lanes offered), since := x.time.beat }
      let q := { q with usable := q.frames }
      if !pePlanned e then (d.setPort port (q.fresh .disabled 1 0)).evalTraining x
      else if planMatches e c then (d.setPort port { q with st := .conforming, plan := 0, farBeat := none }).evalTraining x
      else ((d.setPort port { q.fresh .disabled 3 0 with farNum := q.farNum, farPlace := q.farPlace }).alert 2).evalTraining x
    else if q.st = .inService ∧ (leNat (c.take 8) ≠ q.farNum ∨ farPlaceOf c ≠ q.farPlace) then d.portDown x port
    else d

/-- LOSS_OF_SIGNAL: In service, Identifying, Conforming and Held go Down (R262). -/
def execLossOfSignal (port : Nat) (s : State) : Host.Outcome State Fault Refusal :=
  onDev s fun x d =>
    let st := (d.port port).st
    if d.alive && (decide (st = .inService) || decide (st = .identifying) || decide (st = .conforming) || decide (st = .held)) then
      d.portDown x port
    else d

/-- MARKER_LOSS: 16 beats without a good MARKER. -/
def execMarkerLoss (port : Nat) (s : State) : Host.Outcome State Fault Refusal :=
  onDev s fun x d =>
    let q := d.port port
    if d.alive && decide (q.st = .inService) && decide (q.lastMarker + 16 ≤ x.time.beat) then
      (d.portDown x port).count (0x2200 + port) 0x0F 16
    else d

/-- HEARTBEAT_LOSS: 65 beats without a HEARTBEAT. -/
def execHeartbeatLoss (port : Nat) (s : State) : Host.Outcome State Fault Refusal :=
  onDev s fun x d =>
    let q := d.port port
    if d.alive && decide (q.st = .inService) && decide (q.lastHeart + 65 ≤ x.time.beat) then
      (d.portDown x port).count (0x2200 + port) 0x0F 1
    else d

/-- RESEND_LIMIT: a SEQ was resent 8 times without acknowledgement (R260). -/
def execResendLimit (port : Nat) (s : State) : Host.Outcome State Fault Refusal :=
  onDev s fun x d =>
    let q := d.port port
    if d.alive && decide (q.st = .inService) && q.resends.any (fun r => decide (8 ≤ r.2)) then d.portDown x port else d

/-- SKEW_LIMIT: the residual phase was beyond the limit for 64 beats (R19). -/
def execSkewLimit (port : Nat) (s : State) : Host.Outcome State Fault Refusal :=
  onDev s fun x d =>
    let q := d.port port
    if d.alive && decide (q.st = .inService) && decide (64 ≤ q.skewRun) then d.portDown x port else d

/-- DOWN_RETRY: 64 beats after Down an enabled port is Idle again. -/
def execDownRetry (port : Nat) (s : State) : Host.Outcome State Fault Refusal :=
  onDev s fun x d =>
    let q := d.port port
    if d.alive && decide (q.st = .down) && d.portOn port && decide (q.since + 64 ≤ x.time.beat) then
      d.setPort port (q.fresh .idle 4 0)
    else d

/-! Beat numbers of far ends (R17, R18, Table 8.5), at a beat boundary that begins beat now. -/

/-- The far end's beat number now, from its last marker. -/
def Port.farNow (q : Port) (now : Nat) : Option Nat := q.farBeat.map fun n => n + (now - q.lastMarker)

/-- Is a far end Ready, Serving or Moored? -/
def Port.farPast (q : Port) : Bool := decide (5 ≤ q.farState) && decide (q.farState ≤ 7)

/-- The beat number and port that a device in Training adopts (R17): none where nothing lies ahead of its own. -/
def Dev.adoption (d : Dev) (now : Nat) : Option (Nat × Nat) :=
  let fars := (List.range 16).filterMap fun p =>
    let q := d.port p
    if q.st = .conforming ∨ q.st = .inService then (q.farNow now).map fun n => (n, q.farPast, p) else none
  let pool := if fars.any (fun f => f.2.1) then fars.filter fun f => f.2.1 else fars
  let best := pool.foldl (fun m f => max m f.1) 0
  if d.state = .training ∧ now < best then (pool.find? fun f => decide (f.1 = best)).map fun f => (best, f.2.2) else none

/-- Conforming links are put In service, held or left (Table 8.5). shift is how far the number jumped by adoption. -/
def Dev.conform (d : Dev) (now own : Nat) : Dev :=
  let past := decide (5 ≤ d.state.code) && decide (d.state.code ≤ 7)
  (List.range 16).foldl (fun d p =>
    let q := d.port p
    match q.st, q.farNow now with
    | .conforming, some n =>
      if n = own then d.setPort p { q with st := .inService, since := own, lastMarker := own, lastHeart := own, farBeat := some own, skewRun := 0 }
      else
        let far := q.farPast
        if (past && far) || (far && decide (n < own)) || (past && decide (own < n)) then
          (d.setPort p { q with st := .held, since := own, offset := (n : Int) - (own : Int) }).eff (.time .mismatch)
        else d
    | _, _ => d) d

/-! Frames received (R259, R260, R268). -/

/-- The leg that passes this member by an out port with a slot there. -/
def Dev.throughOut (d : Dev) (p s : Nat) : Option (Leg × Through) :=
  d.legs.findSome? fun l => (l.2.through.find? fun t => decide (t.outPort = p) && l.2.mask.testBit ((s + 64 - t.outAdv) % 64)).map fun t => (l.2, t)

/-- The leg that passes this member by an in port with a slot there. -/
def Dev.throughIn (d : Dev) (p s : Nat) : Option Through :=
  d.legs.findSome? fun l => l.2.through.find? fun t => decide (t.inPort = p) && l.2.mask.testBit ((s + 64 - t.inAdv) % 64)

/-- The job whose formation slot of a tree link a frame arrives in, with the link's ports that lead on (R279). -/
def Dev.formAt (d : Dev) (p s : Nat) : Option (List Nat) :=
  d.routes.findSome? fun r =>
    match tget d.jobs r.1 with
    | some b =>
      let links := (treeLinks r.2.tree b.rank).map Prod.fst
      if b.st ≠ .ended ∧ links.contains p = true ∧ r.2.mask.testBit s = true ∧ ((d.port p).slot s).testBit 63 = true ∧
          bits ((d.port p).slot s) 60 55 = r.1 ∧ bits ((d.port p).slot s) 51 40 = 0xFFF then some (links.filter fun q => decide (q ≠ p)) else none
    | none => none

/-- ACK, RETRY and credits of a good frame, and its corrected symbols. -/
def Dev.portTake (d : Dev) (p fec : Nat) (f : Frame) : Dev :=
  let d := d.corrected p fec
  let d := d.setPort p ((d.port p).ackedBy f)
  if f.crcnt = 0 then d
  else match d.passRecs.find? fun r => decide (prOutPort r = p) && decide (prOutSlot r = f.crslot) with
    | some r =>
      let i := prInPort r
      d.setPort i { d.port i with owed := tmod (d.port i).owed (prInSlot r) 0 (· + f.crcnt) }
    | none =>
      match d.throughOut p f.crslot with
      | some (l, t) =>
        let s := lowSlot l.mask t.inAdv
        d.setPort t.inPort { d.port t.inPort with owed := tmod (d.port t.inPort).owed s 0 (· + f.crcnt) }
      | none =>
        match d.legs.find? fun l => decide ((tget l.2.credits p).isSome) && l.2.mask.testBit f.crslot with
        | some (k, l) =>
          (match tget d.jobs (k / 4096), tget d.routes (k / 4096) with
           | some b, some r => match legIn r.tree b.rank l with
             | some q => d.creditUp k q p f.crcnt
             | none => { d with legs := tset d.legs k { l with credits := tmod l.credits p 0 (· + f.crcnt) } }
           | _, _ => { d with legs := tset d.legs k { l with credits := tmod l.credits p 0 (· + f.crcnt) } })
        | none => d

/-- The leg whose frames arrive on port p in slot s, with its job. -/
def Dev.legAt (d : Dev) (p s : Nat) : Option (Nat × Leg) :=
  d.legs.find? fun l =>
    match tget d.jobs (l.1 / 4096), tget d.routes (l.1 / 4096) with
    | some b, some r => decide (b.st ≠ .ended) && decide (legIn r.tree b.rank l.2 = some p) && l.2.inSlot s
    | _, _ => false

/-- A PROBE reached its destination (R273, R274): it counts if the job tag, leg and source rank are the leg's. -/
def Dev.probed (d : Dev) (x : Ctx) (k : Nat) (l : Leg) (f : Frame) : Dev :=
  let tag := match tget d.routes (k / 4096) with | some r => r.tag | none => 0
  if leNat (f.ctl.take 8) = tag ∧ leNat ((f.ctl.drop 8).take 2) = k % 4096 ∧ leNat ((f.ctl.drop 10).take 2) = l.srcRank then
    ({ d with legs := tset d.legs k { l with probed := true, lastProbe := x.time.beat } }.formCheck x (k / 4096)).resumeCheck x (k / 4096)
  else d

/-- A frame waits for a slot of a port that begins at slot number ready or later. -/
def Dev.awaitSlot (d : Dev) (p s ready : Nat) (f : Frame) : Dev :=
  d.setPort p { d.port p with pass := (d.port p).pass ++ [⟨s, ready, { f with slot := s }⟩] }

/-- A frame that passes waits for an out slot that begins at least 2 slots after its arrival; a PROBE has taken one hop more (R272). -/
def Dev.pushPass (d : Dev) (p s : Nat) (f : Frame) : Dev :=
  let f := if f.typ = 5 then { f with ctl := lset f.ctl 12 (f.ctl.getD 12 0 + 1) } else f
  (d.awaitSlot p s (d.slotAt + 2) f).peak 0x2100 3 ((d.port p).pass.length + 1)

/-- A frame goes on to several ports in its own slot, if every pass buffer has room. -/
def Dev.pushAll (d : Dev) (ports : List Nat) (f : Frame) : Option Dev :=
  if ports.any fun o => decide (1024 ≤ (d.port o).pass.length) then none else some (ports.foldl (fun d o => d.pushPass o f.slot f) d)

/-- The leg key of a job's compartment with confidentiality, as the identity of key material (R283, R370). -/
def Dev.legSecret (d : Dev) (b : Job) : Nat := match b.linkSlot.bind fun s => tget d.keys s with | some k => k.key | none => 0

/-- The flits of a frame under the leg's key: the IV is the LEG number in [95:84] and LCTR in [63:0] (R283); the same again decrypts. -/
def cryptFlits (key leg lctr : Nat) (fs : List Flit) : List Flit :=
  let bs := cipher key (leg % 4096 * 2 ^ 84 + lctr % 2 ^ 64) (fs.flatMap fun f => leBytes 64 f.pay)
  (List.range fs.length).map fun i => { (fs.getD i ⟨0, 0⟩) with pay := leNat ((bs.drop (64 * i)).take 64) }

/-- The additional authenticated data of a frame: LCTR, C, NFL, COMP, TEPOCH and the three sidebands (R283). -/
def frameAad (f : Frame) : List Byte :=
  leBytes 8 f.lctr ++ [if f.enc then 1 else 0, BitVec.ofNat 8 f.flits.length, BitVec.ofNat 8 f.comp, BitVec.ofNat 8 f.tepoch] ++
  (List.range 3).flatMap fun i => leBytes 2 (match f.flits[i]? with | some t => t.sb | none => 0)

/-- A frame of a leg with confidentiality as it leaves: ciphertext and tag (R283). -/
def sealLegFrame (f : Frame) (key leg : Nat) : Frame :=
  let g := { f with flits := cryptFlits key leg f.lctr f.flits }
  { g with gtag := Config.gcmTag key (leg % 4096 * 2 ^ 84 + f.lctr % 2 ^ 64) (frameAad g ++ g.flits.flatMap fun t => leBytes 64 t.pay) % 2 ^ 128 }

/-- A frame leaves the FIFO (R259): into the pass buffer of another job's leg, of a leg of this job that only passes here, of the formation multicast
or of a multicast leg that goes on, as it is; into a leg's buffer; or into PROBE handling; none while it has no place. The flits of board-space
and multicast legs stay in the leg's buffer until the message they spell is taken. -/
def Dev.placeFrame (d : Dev) (x : Ctx) (p : Nat) (tagOk : Bool) (f : Frame) : Option Dev :=
  match d.passRecs.find? fun r => decide (prInPort r = p) && decide (prInSlot r = f.slot) with
  | some r => if 1024 ≤ (d.port (prOutPort r)).pass.length then none else some (d.pushPass (prOutPort r) (prOutSlot r) f)
  | none =>
   match d.throughIn p f.slot with
   | some t =>
    if 1024 ≤ (d.port t.outPort).pass.length then none else some (d.pushPass t.outPort ((f.slot + 64 + t.outAdv - t.inAdv) % 64) f)
   | none =>
   match d.formAt p f.slot with
   | some ports => d.pushAll ports f
   | none =>
    match d.legAt p f.slot with
    | none => some (d.count 0x2100 4 1)
    | some (k, l) =>
      let j := k / 4096
      match tget d.jobs j with
      | none => some d
      | some b =>
        let onward := match tget d.routes j with
          | some r => if l.kind = 1 then legPorts r.tree b.rank 1 l.srcRank l.srcPort else []
          | none => []
        if f.typ = 5 then (d.pushAll onward f).map fun d => d.probed x k l f
        else if b.iced then some (d.count (0x5340 + j) 9 1)
        else if f.tepoch ≠ d.num (0x4100 + b.comp) 8 then some (d.count (0x2200 + p) 0x10 1)
        else if l.enc && !tagOk then some ((d.count (0x2030 + b.comp) 2 1).jobFault x j Config.authFail)
        else if l.rxb < l.rx.length + f.flits.length then none
        else
          let fs := if l.enc then cryptFlits (d.legSecret b) k f.lctr f.flits else f.flits
          (d.pushAll onward f).map fun d => { d with legs := tset d.legs k { l with rx := l.rx ++ fs } }

/-- Frames leave a port's FIFO in order, none before it is due, each acknowledged as it leaves. -/
def Dev.drainFifo (x : Ctx) (p : Nat) : Nat → Dev → Dev
  | 0, d => d
  | n + 1, d =>
    let q := d.port p
    match q.fifo with
    | [] => d
    | r :: rest =>
      if x.time.beat < r.due then d
      else match d.placeFrame x p r.ok r.frame with
      | none => d
      | some d => Dev.drainFifo x p n (d.setPort p { d.port p with fifo := rest, acked := r.frame.seq })

/-- A sequenced frame arrives (R259, R260). -/
def Dev.sequenced (d : Dev) (x : Ctx) (p : Nat) (tagOk : Bool) (due : Nat) (f : Frame) : Dev :=
  let q := (d.port p).receive tagOk due { f with flits := f.flits.take 3 }
  Dev.drainFifo x p q.fifo.length (d.setPort p q)

/-- A bad frame: discarded and counted; on a link In service RETRY goes out with the next frame (R255, R258, R260). -/
def Dev.badFrame (d : Dev) (p uncorrectable fec : Nat) : Dev :=
  let q := d.port p
  if !q.speaks then d
  else
    let d := ((if q.st = .inService then d.setPort p { q with retryOut := true } else d).corrected p fec).count (0x2200 + p) 0x0D 1
    if uncorrectable = 0 then d else d.count (0x2200 + p) 0x0C uncorrectable

/-- A DATA frame arrives while gust is armed: how many came on the port in this beat before it (R456). -/
def Dev.hear (d : Dev) (x : Ctx) (p : Nat) : Nat × Dev :=
  let q := d.port p
  let n := if q.heardBeat = x.time.beat then q.heard else 0
  if d.gust.armed then (n, d.setPort p { q with heardBeat := x.time.beat, heard := n + 1 }) else (0, d)

/-- DATA: a good DATA frame of a link In service; in Moored the link carries none (R263). Control 3 of gust delays the frames of selected ports
and makes some of them bad, but none of the formation slots, which are control slots (Table 15.2). On port 16 it is a frame of Tether (R288). -/
def execData (port : Nat) (frame : Frame) (tagOk : Bool) (fec : Nat) (s : State) : Host.Outcome State Fault Refusal :=
  onDev s fun x d =>
    if port = 16 then d.tetherFrame x frame fec
    else if d.alive && decide ((d.port port).st = .inService) && decide (frame.typ = 0) then
      let touched := (d.formAt port frame.slot).isNone
      let (i, d) := d.hear x port
      if touched && d.gustCrc x port i then (d.count 0x6000 6 1).badFrame port 0 fec
      else (d.portTake port fec frame).sequenced x port tagOk (if touched then x.time.beat + d.gustDelay port else 0) frame
    else d

/-- IDLE, of a Bridle port or, as port 16, of Tether. -/
def execIdle (port : Nat) (frame : Frame) (fec : Nat) (s : State) : Host.Outcome State Fault Refusal :=
  onDev s fun x d =>
    if port = 16 then d.tetherFrame x frame fec
    else if d.alive && decide ((d.port port).st = .inService) && decide (frame.typ = 1) then d.portTake port fec frame else d

/-- MARKER (R19, R261): flight time, residual phase, the far beat number; each excursion of the phase of a link In service counts once, and so
do missed markers. -/
def execMarker (port : Nat) (frame : Frame) (flight : Nat) (residual : Int) (fec : Nat) (s : State) : Host.Outcome State Fault Refusal :=
  onDev s fun x d =>
    let q := d.port port
    if port = 16 then d.tetherFrame x frame fec
    else if !d.alive || decide (frame.typ ≠ 2) || !q.speaks then d
    else
      let d := if q.st = .inService then d.portTake port fec frame else d.corrected port fec
      let q := d.port port
      let now := x.time.beat
      let far := min (2 ^ 64 - 1) (leNat (frame.ctl.take 8) + flight / 64)
      let beyond := decide ((d.num 0x2010 5 : Int) * 1000 < residual) || decide (residual < -((d.num 0x2010 5 : Int) * 1000))
      let missed := if q.st = .inService then now - q.lastMarker - 1 else 0
      let run := if beyond && decide (q.st = .inService) then q.skewRun + 1 else 0
      let d := d.setPort port { q with flight := flight % 256, residual := residual, farBeat := some far, lastMarker := now, skewRun := run }
      let d := if missed = 0 then d else d.count (0x2200 + port) 0x0F missed
      if decide (run ≠ 0) && decide (q.skewRun = 0) then d.count (0x2200 + port) 9 1 else d

/-- HEARTBEAT_FRAME (R262): the far end's state and profile; a Held link goes Idle once its far end is in Training (Table 8.5). -/
def execHeartbeatFrame (port : Nat) (frame : Frame) (fec : Nat) (s : State) : Host.Outcome State Fault Refusal :=
  onDev s fun x d =>
    let q := d.port port
    if port = 16 then d.tetherFrame x frame fec
    else if !d.alive || decide (frame.typ ≠ 3) || !q.speaks then d
    else
      let d := if q.st = .inService then d.portTake port fec frame else d.corrected port fec
      let q := d.port port
      let st := (frame.ctl.getD 8 0).toNat
      let now := x.time.beat
      let missed := if q.st = .inService then (now - q.lastHeart - 1) / 64 else 0
      let d := if missed = 0 then d else d.count (0x2200 + port) 0x0F missed
      if q.st = .held ∧ st = 4 then d.setPort port (q.fresh .idle 4 0)
      else d.setPort port { q with farState := st, farProfile := (frame.ctl.getD 9 0).toNat, lastHeart := now }

/-- PROBE (R274): sequenced as DATA; it runs on every link In service, in Moored too. -/
def execProbe (port : Nat) (frame : Frame) (fec : Nat) (s : State) : Host.Outcome State Fault Refusal :=
  onDev s fun x d =>
    if port = 16 then d.tetherFrame x frame fec
    else if d.alive && decide ((d.port port).st = .inService) && decide (frame.typ = 5) then
      (d.portTake port fec frame).sequenced x port true 0 frame
    else d

/-- BAD_FRAME (R255, R258, R260): 256 bytes that a codeword spoilt which FEC cannot correct, or that spell no frame, are discarded and counted; a
sequenced frame whose SEQ is not the expected one is discarded. RETRY goes out with the next frame. Port 16 is Tether. -/
def execBadFrame (port : Nat) (raw : List Byte) (uncorrectable fec : Nat) (s : State) : Host.Outcome State Fault Refusal :=
  onDev s fun _ d =>
    let good := if uncorrectable = 0 then readFrame raw else none
    if !d.alive then d
    else match good with
      | none => if port = 16 then d.tetherBad uncorrectable fec else d.badFrame port uncorrectable fec
      | some f =>
        let q := d.port port
        if port < 16 ∧ q.st = .inService ∧ (f.typ = 0 ∨ f.typ = 5) ∧ f.seq ≠ q.expected then
          (d.setPort port { q with retryOut := true }).corrected port fec
        else d

/-! Frames sent. -/

/-- Send a frame that is not sequenced. -/
def Dev.sendControl (d : Dev) (p : Nat) (f : Frame) : Dev :=
  let (q, f) := (d.port p).sendPlain f
  (d.setPort p q).emit (.frame p f)

/-- Send a sequenced frame; it is kept until it is acknowledged. -/
def Dev.sendSequenced (d : Dev) (p : Nat) (f : Frame) : Dev :=
  let (q, f) := (d.port p).sendNew f
  (d.setPort p q).emit (.frame p f)

/-- A job in recovery sends and expects PROBEs once its new legs are reserved (R404, R408, R412). -/
def Job.probing (b : Job) : Bool := decide (b.st = .faulted) && (decide (b.phase = .rejoining) || decide (b.phase = .restoring))

/-- PROBE_SEND (R273, R274): from Forming, once every member has confirmed, and while the job runs; a Faulted job sends none (R404). -/
def execProbeSend (job leg : Nat) (s : State) : Host.Outcome State Fault Refusal :=
  onDev s fun x d =>
    let k := legKey job leg
    match tget d.jobs job, tget d.legs k, tget d.routes job with
    | some b, some l, some r =>
      let ports := legPorts r.tree b.rank l.kind l.srcRank l.srcPort
      -- where a port changes its lanes or has frames to resend, the PROBE waits behind them (R254, R260)
      let waits := ports.any fun p => (d.port p).changing || !(d.port p).resend.isEmpty
      let ok := b.probing || decide (b.st = .running) || decide (b.st = .draining) || decide (b.st = .loading) ||
        (decide (b.st = .forming) && decide (b.confirmed.length + 1 = b.slice))
      let up := ports.all fun p => decide ((d.port p).st = .inService) && decide ((d.port p).unacked.length < 1024)
      if d.alive && ok && decide (l.srcRank = b.rank) && !l.broken && up then
        let slot := ((List.range 64).find? fun s => l.mask.testBit s).getD 0
        let f : Frame := { idleFrame with
          typ := 5, slot := slot, comp := b.comp, tepoch := d.num (0x4100 + b.comp) 8,
          ctl := leBytes 8 r.tag ++ leBytes 2 leg ++ leBytes 2 l.srcRank ++ [0] }
        let d := if waits then ports.foldl (fun d p => d.awaitSlot p slot 0 f) d else ports.foldl (fun d p => d.sendSequenced p f) d
        { d with legs := tset d.legs k { l with lastSent := x.time.beat } }
      else d
    | _, _, _ => d

/-- LEG_BROKEN (R274): 96 beats without a PROBE. -/
def execLegBroken (job leg : Nat) (s : State) : Host.Outcome State Fault Refusal :=
  onDev s fun x d =>
    let k := legKey job leg
    match tget d.jobs job, tget d.legs k with
    | some b, some l =>
      if d.alive && (b.probing || decide (b.st = .running) || decide (b.st = .draining)) && l.endsAt b.rank && !l.broken &&
          decide (l.lastProbe + 96 ≤ x.time.beat) then
        ({ d with legs := tset d.legs k { l with broken := true } }.count (0x2280 + job) 3 1).jobFault x job Config.linkDown
      else d
    | _, _ => d

/-! The change of lanes with a profile (R254, R380). -/

/-- LANE_CHANGE_DONE: the port has its new lane count and has measured its flight time again. -/
def execLaneChangeDone (port lanes flight : Nat) (residual : Int) (rtt : Nat) (s : State) : Host.Outcome State Fault Refusal :=
  onDev s fun _ d =>
    let q := d.port port
    let here := d.lanesHere port
    let n := laneStep (min lanes (if q.farLanes = 0 then here else min here (max q.farLanes lanes)))
    if d.alive && q.changing then
      (d.setPort port (q.measure n flight residual rtt)).lanesDone port
    else d

end Sys2Proof.Machine
end

