-- ==== Sys2Proof/Machine/Array.lean ====
section
/-!
DEFINITION. The MAC array (R34 to R51, R82, R102): tile commands, passes, operand feeds, completion and drain.
-/

namespace Sys2Proof.Machine

/-- Fields of a tile command (Table 2.12). -/
def tcAfmt (w : Nat) : Nat := bits w 124 122
def tcBfmt (w : Nat) : Nat := bits w 121 119
def tcAcc (w : Nat) : Bool := w.testBit 118
def tcAsrc (w : Nat) : Bool := w.testBit 116
def tcAq (w : Nat) : Nat := bits w 115 113
def tcBsrc (w : Nat) : Bool := w.testBit 112
def tcBq (w : Nat) : Nat := bits w 111 109
def tcAaddr (w : Nat) : Nat := bits w 108 90
def tcBaddr (w : Nat) : Nat := bits w 89 71
def tcAstep (w : Nat) : Int := signed 16 (bits w 70 55)
def tcBstep (w : Nat) : Int := signed 16 (bits w 54 39)
def tcMask (w : Nat) : Nat := bits w 38 36
def tcValid (w : Nat) : Bool := w.testBit 35
def tcVsel (w : Nat) : Nat := bits w 34 31
def tcSa (w : Nat) : Nat := bits w 30 28
def tcSb (w : Nat) : Nat := bits w 27 25

/-- K / 32 of a shape (Table 3.5). -/
def kBlocks (sh : Nat) : Nat :=
  match sh with
  | 0 => 2
  | 1 => 8
  | 2 => 4
  | 3 => 4
  | 4 => 2
  | 5 => 32
  | _ => 0

/-- Bytes of a block of 32 elements with its scale (R82, Table 2.1). -/
def blockBytes (fmt : Nat) : Nat :=
  match fmt with
  | 0 => 17
  | 1 | 2 | 3 => 33
  | 6 => 64
  | _ => 32

/-- Bytes of A that one pass takes: 16 rows over the full K. -/
def aBytes (w : Nat) : Nat := kBlocks (tcShape w) * 16 * blockBytes (tcAfmt w)
/-- Bytes of B that one pass takes: 64 columns over the full K. -/
def bBytes (w : Nat) : Nat := kBlocks (tcShape w) * 64 * blockBytes (tcBfmt w)

/-- A start or advance in lines taken modulo facet memory. -/
def stepAddr (a : Nat) (step : Int) (n : Nat) : Nat := (((a : Int) + step * (n : Int) * 128) % (0x80000 : Int)).toNat

/-- The row mask of pass p (R50). -/
def passRowMask (f : Facet) (w p : Nat) : Nat :=
  let m := bits (f.active.prog.masks.getD (tcMask w) 0) 15 0
  let g := p / colGroups (tcShape w)
  if tcValid w then
    (List.range 16).foldl (fun a i => if m.testBit i && decide (i + 16 * g < f.valid.getD (tcVsel w) 0) then a + 2 ^ i else a) 0
  else m

/-- The column mask of a tile command (R50). -/
def passColMask (f : Facet) (w : Nat) : Nat := bits (f.active.prog.masks.getD (tcMask w) 0) 79 16

/-- One feed takes what its queue gives: a kept operand is copied once the queue holds it whole, any other takes flits as they
come (R48, R102). Answers the feed and how many flits it dequeued. -/
def Feed.pull (f : Facet) (a : Feed) : Feed × Nat × Nat :=
  match a.queue with
  | none => (a, 0, 0)
  | some q =>
    let miss := a.need - a.have_.length
    if miss = 0 then (a, 0, 0)
    else
      let fl := f.iqOf q
      let want := (miss + 63) / 64
      let got := fl.take want
      let bytes := got.flatMap fun t => leBytes 64 t.pay
      if a.keep then
        if got.length = want then ({ a with have_ := (a.have_ ++ bytes).take a.need }, q, 0) else (a, q, 0)
      else ({ a with have_ := a.have_ ++ bytes }, q, got.length)

/-- Is a feed complete? -/
def Feed.full (a : Feed) : Bool := decide (a.need ≤ a.have_.length)

/-- Feed the passes in order: a pass's operands enter before the next pass's. Surplus bytes of a flit go on to the next pass of
the same stream, or are padding. -/
def Dev.feedPasses (n : Nat) : Nat → List Pass → List Pass → Dev → Dev
  | 0, _, _, d => d
  | _, done, [], d => d.adjFacet n fun f => { f with passes := done }
  | k + 1, done, p :: rest, d =>
    let (a, qa, ka) := Feed.pull (d.facet n) p.a
    let d := if ka = 0 then d else (d.popIq n qa ka).2
    let (b, qb, kb) := Feed.pull (d.facet n) p.b
    let d := if kb = 0 then d else (d.popIq n qb kb).2
    let extraA := if a.more then a.have_.drop a.need else []
    let extraB := if b.more then b.have_.drop b.need else []
    let a' := { a with have_ := a.have_.take a.need }
    let b' := { b with have_ := b.have_.take b.need }
    if a'.full && b'.full then
      let rest := match rest with
        | [] => []
        | r :: rs => { r with a := { r.a with have_ := if extraA.isEmpty then r.a.have_ else extraA },
                              b := { r.b with have_ := if extraB.isEmpty then r.b.have_ else extraB } } :: rs
      Dev.feedPasses n k (done ++ [{ p with a := { a' with more := false }, b := { b' with more := false } }]) rest d
    else d.adjFacet n fun f => { f with passes := done ++ [{ p with a := a, b := b }] ++ rest }

/-- Give the array the operands its queues hold. -/
def Dev.feed (d : Dev) (n : Nat) : Dev :=
  let ps := (d.facet n).passes
  d.feedPasses n (ps.length + 1) [] ps

/-- Queue the passes of a tile from pass p on (R44): memory operands are read now, queue operands feed later. -/
def Dev.addPasses (d : Dev) (x : Ctx) (n w aAddr bAddr p : Nat) : Nat → Dev
  | 0 => d
  | k + 1 =>
    let sh := tcShape w
    let cg := colGroups sh
    let rg := rowGroups sh
    let last := decide (k = 0)
    let f := d.facet n
    let (aBs, d) := if tcAsrc w then ([], d) else d.progRead x n (aAddr + p / cg * aBytes w) (aBytes w)
    let (bBs, d) := if tcBsrc w then ([], d) else d.progRead x n (bAddr + p % cg * bBytes w) (bBytes w)
    let fa : Feed := ⟨aBs, aBytes w, if tcAsrc w then some (tcAq w) else none, decide (p % cg + 1 < cg), decide (cg = 1) && !last⟩
    let fb : Feed := ⟨bBs, bBytes w, if tcBsrc w then some (tcBq w) else none, decide (p / cg + 1 < rg), decide (rg = 1) && !last⟩
    let ps : Pass := ⟨passBank f w p, w, fa, fb, passRowMask f w p, passColMask f w⟩
    (d.adjFacet n fun f => { f with passes := f.passes ++ [ps] }).addPasses x n w aAddr bAddr (p + 1) k

/-- The current bank after a tile issues (R47). -/
def nextBank (f : Facet) (w : Nat) : Nat :=
  match passes (tcShape w) with
  | 1 => if tcDrn w then 1 - f.curBank % 2 else f.curBank
  | 2 => if tcDrn w then 0 else f.curBank
  | 4 => 0
  | _ => f.curBank

/-- ISSUE (R82): the tile's passes start, in order; the addresses advance. The bundle stalls while the first pass's bank waits to be
drained (Facet.arrayStall). -/
def execIssue (facet : Nat) (s : State) : Host.Outcome State Fault Refusal :=
  onDev s fun x d =>
    let f := d.facet facet
    if bits f.aop 31 28 = 1 then
      d.doOp x facet (d.mayArray x facet) fun d =>
        let i := bits f.aop 27 22
        let w := f.tile
        let c := tgetD f.tileIssues i 0
        let d := d.addPasses x facet w (stepAddr (tcAaddr w) (tcAstep w) c) (stepAddr (tcBaddr w) (tcBstep w) c) 0
          (passes (tcShape w))
        if !d.alive then d else
        let d := d.adjFacet facet fun f =>
          { f with curBank := nextBank f w, tileIssues := tset f.tileIssues i (c + 1) }
        (d.feed facet).adjFacet facet Facet.endA
    else d

/-- Element e of a block as a code. -/
def blockElem (fmt : Nat) (blk : List Byte) (e : Nat) : Nat :=
  match fmt with
  | 0 => let b := (blk.getD (e / 2) 0).toNat; if e % 2 = 0 then b % 16 else b / 16
  | 6 => leNat ((blk.drop (2 * e)).take 2)
  | _ => (blk.getD e 0).toNat

/-- The scale code of a block (R82). -/
def blockScale (fmt : Nat) (blk : List Byte) : Nat :=
  match fmt with
  | 0 => (blk.getD 16 0).toNat
  | _ => (blk.getD 32 0).toNat

/-- Block kb of row or column i of an operand whose pass holds n of them: K block by K block (assumption 32). -/
def operandBlock (fmt n : Nat) (bs : List Byte) (kb i : Nat) : List Byte :=
  (bs.drop ((kb * n + i) * blockBytes fmt)).take (blockBytes fmt)

/-- One cell adds one block (R38 to R42). -/
def cellBlock (af bf : Nat) (acc : Lane) (a b : List Byte) : Lane :=
  if af = 6 then
    (List.range 32).foldl (fun acc e => f32Add acc (f32Mul (bf16ToF32 (blockElem 6 a e)) (bf16ToF32 (blockElem 6 b e)))) acc
  else
    let ea := (List.range 32).map fun e => elemOf af (blockElem af a e)
    let eb := (List.range 32).map fun e => elemOf bf (blockElem bf b e)
    f32Add acc (blockRound af bf (isMx af && isMx bf) (blockScale af a) (blockScale bf b) (blockSum ea eb))

/-- The accumulator of cell (i, j) after a pass (R41): blocks in ascending K from the start value. -/
def cellPass (w kbs : Nat) (a b : List Byte) (start : Lane) (i j : Nat) : Lane :=
  (List.range kbs).foldl (fun acc kb =>
    cellBlock (tcAfmt w) (tcBfmt w) acc (operandBlock (tcAfmt w) 16 a kb i) (operandBlock (tcBfmt w) 64 b kb j)) start

/-- The bank after a pass (R46, R47, R50): a masked cell holds +0; with DRN the bank waits to be drained. -/
def passBankAfter (f : Facet) (p : Pass) (old : Bank) : Bank :=
  let w := p.cmd
  let acc := (List.range 16).map fun i => (List.range 64).map fun j =>
    if p.rowMask.testBit i && p.colMask.testBit j then
      cellPass w (kBlocks (tcShape w)) p.a.have_ p.b.have_ (if tcAcc w then (old.acc.getD i []).getD j 0 else 0) i j
    else 0
  { st := if tcDrn w then .ready else .free
    acc := acc
    rowMask := p.rowMask
    colMask := p.colMask
    fp8 := decide (tcAfmt w = 4) || decide (tcAfmt w = 5)
    sa := f.active.prog.scales.getD (tcSa w) 0
    sb := f.active.prog.scales.getD (tcSb w) 0
    nextRow := 0 }

/-- PASS_COMPLETE: the oldest pass, if it uses this bank, has all its operands and the bank is not waiting to be drained, is
complete; with DRN its bank goes to the vector engine (R45, R46). -/
def execPassComplete (facet bank : Nat) (s : State) : Host.Outcome State Fault Refusal :=
  onDev s fun x d =>
    if d.executes x && (d.facet facet).powered && !(d.facet facet).held && !(d.facet facet).frozen then
      let d := d.feed facet
      let f := d.facet facet
      match f.passes with
      | [] => d
      | p :: rest =>
        if decide (p.bank = bank) && p.a.full && p.b.full && decide ((f.bank bank).st = .free) then
          let k := passBankAfter f p (f.bank bank)
          let f := { f.setBank bank k with passes := rest }
          d.setFacet facet (if tcDrn p.cmd then { f with drainQ := f.drainQ ++ [bank] } else f)
        else d
    else d

end Sys2Proof.Machine
end

