-- ==== Sys2Proof/Machine/Flags.lean ====
section
/-!
DEFINITION. The flags of the exact add (R67 to R74): lanes of a window, CLMP, NANF and OVF, the window's summary, the vector flag
register, arrivals.
-/

namespace Sys2Proof.Machine

/-- Fields of a window register (Table 2.7). -/
def winBase (w : Nat) : Nat := bits w 95 77
def winLanes (w : Nat) : Nat := bits w 76 61
def winF (w : Nat) : Int := signed 8 (bits w 60 53)
def winB (w : Nat) : Nat := bits w 52 46
def winDiscard (w : Nat) : Bool := w.testBit 45

/-- m × 2^e as an integer, to nearest even. -/
def rneInt (m : Nat) (e : Int) : Nat :=
  if e ≥ 0 then m * 2 ^ e.toNat
  else
    let k := (-e).toNat
    let a := m >>> k
    let rem := m % 2 ^ k
    let half := 2 ^ (k - 1)
    if rem > half ∨ (rem = half ∧ a % 2 = 1) then a + 1 else a

/-- An addend in units of 2^−F (R67): its integer and whether it was clamped; none for a NaN. -/
def addend (fbits : Int) (b : Nat) (x : Lane) : Option (Int × Bool) :=
  let lim : Int := (2 ^ b : Nat)
  match f32Dec x with
  | .nan => none
  | .inf s => some (if s then -lim else lim - 1, true)
  | .fin s m e =>
    let v := smant s (rneInt m (e + fbits))
    if v < -lim then some (-lim, true) else if v > lim - 1 then some (lim - 1, true) else some (v, false)

/-- A lane after one exact add, and the flags it raised: bit 0 CLMP, bit 1 NANF, bit 2 OVF (R67, R68, Table 2.6). -/
def laneAdd (fbits : Int) (b : Nat) (lane : Nat) (x : Lane) : Nat × Nat :=
  match addend fbits b x with
  | none => (Nat.lor lane (2 ^ 97), 2)
  | some (a, clamped) =>
    let top : Int := (2 ^ 95 : Nat)
    let v := signed 96 (bits lane 95 0) + a
    let ovf := decide (v > top - 1) || decide (v < -top)
    let v := if v > top - 1 then top - 1 else if v < -top then -top else v
    let raised := (if clamped then 1 else 0) + (if ovf then 4 else 0)
    ((v % (2 ^ 96 : Nat)).toNat + Nat.lor (bits lane 127 96) raised * 2 ^ 96, raised)

/-- The flags a lane carries. -/
def laneFlags (lane : Nat) : Nat := bits lane 98 96

/-- A lane as FP32 (R70): RNE(VALUE × 2^−F). -/
def laneValue (fbits : Int) (lane : Nat) : Lane := f32OfInt (signed 96 (bits lane 95 0)) (-fbits) false

/-- Local address of lane i of a window of facet n. -/
def laneAddr (n w i : Nat) : Nat := facetAddr n (winBase w + 16 * i)

/-- The 128 bits of a lane as memory holds them. -/
def laneBits (m : MemSys) (n w i : Nat) : Nat := leNat (m.bytes (laneAddr n w i) 16)

/-- Is a word of the lane POISON? -/
def lanePoison (m : MemSys) (n w i : Nat) : Bool := m.anyPoison (laneAddr n w i) 16

/-- Flags raised by adds go to the window's summary (R69). -/
def Facet.raise (f : Facet) (w fl : Nat) : Facet := let r := f.win w; f.setWin w { r with flags := Nat.lor r.flags fl }

/-- Exact-add values into lanes first, first + 1, … of window number wn of facet n; a lane beyond LANES takes nothing (assumption
27), a POISON lane stays POISON; an arriving group that meets one gives no status and faults no job (R65 names no such reader; assumption
176). Each addend carries whether it takes part. Answers the device and whether POISON was met. -/
def Dev.exactAdd (d : Dev) (x : Ctx) (n wn first : Nat) (vs : List (Bool × Lane)) : Dev × Bool :=
  let w := (d.facet n).active.prog.windows.getD wn 0
  let one (acc : Dev × Bool × Nat) (v : Bool × Lane) : Dev × Bool × Nat :=
    let (d, bad, i) := acc
    if !v.1 || decide (winLanes w ≤ i) then (d, bad, i + 1)
    else
      let a := laneAddr n w i
      let d := d.eccBytes x a 16
      if !d.alive then (d, bad, i + 1)
      else if lanePoison x.mem n w i then (d, true, i + 1)
      else
        let (l, fl) := laneAdd (winF w) (winB w) (laneBits x.mem n w i) v.2
        let d := d.memOp (.write a (leBytes 16 l))
        (if fl = 0 then d else d.adjFacet n fun f => f.raise wn fl, bad, i + 1)
  let (d, bad, _) := vs.foldl one (d, false, first)
  (d, bad)

/-- A group that was applied counts as one arrival (R74). -/
def Facet.arrive (f : Facet) (w : Nat) : Facet :=
  let r := f.win w
  f.setWin w { r with arrivals := satAdd (2 ^ 32 - 1) r.arrivals 1 }

end Sys2Proof.Machine
end

