-- ==== Sys2Proof/Machine/Control.lean ====
section
/-!
DEFINITION. The control operations of a bundle (Table 2.14, R80, R81), and NOP of the three units.
-/

namespace Sys2Proof.Machine

/-- A control operation with opcode o acts on facet n. -/
def Dev.ctlOp (d : Dev) (x : Ctx) (n o : Nat) (g : Facet → Nat → Dev → Dev) : Dev :=
  let f := d.facet n
  if cOpc f.cop = o then d.doOp x n (d.mayControl x n) fun d => g f f.cop d else d

/-- NOP of a unit: the operation is done. -/
def execNop (facet : Nat) (unit : OpUnit) (s : State) : Host.Outcome State Fault Refusal :=
  onDev s fun x d =>
    let f := d.facet facet
    match unit with
    | .array => if bits f.aop 31 28 = 0 then d.doOp x facet (d.mayArray x facet) fun d => d.adjFacet facet Facet.endA else d
    | .vector => if vOpc f.vop = 0 then d.doOp x facet (d.mayVector x facet) fun d => d.adjFacet facet Facet.endV else d
    | .control => if cOpc f.cop = 0 then d.doOp x facet (d.mayControl x facet) fun d => d.adjFacet facet Facet.endC else d

/-- The row of 64 lanes that 256 bytes hold. -/
def bytesRow (bs : List Byte) : Row :=
  ⟨(List.range 64).map fun i => BitVec.ofNat 32 (leNat ((bs.drop (4 * i)).take 4)), 2 ^ 64 - 1⟩

/-- The address of S[a] as LD and ST use it: the port moves aligned lines (R57); what the bits [6:0] of an address do the manual does
not say, here they are dropped (assumption 174). -/
def lineAddr (v : Nat) : Nat := v / 128 * 128

/-- LD: rows of tile register d from facet memory at S[a], 256 bytes a row; a row number past 15 wraps (assumption 25). -/
def execLd (facet : Nat) (s : State) : Host.Outcome State Fault Refusal :=
  onDev s fun x d => d.ctlOp x facet 0x01 fun f w d =>
    let cnt := bits (cImm w) 13 10 + 1
    let start := bits (cImm w) 9 6
    let (bs, d) := d.progRead x facet (lineAddr (f.sreg (cA w))) (256 * cnt)
    if !d.alive then d else
    let d := (List.range cnt).foldl (fun d i =>
      d.adjFacet facet fun f => f.setTrow (cD w % 8) ((start + i) % 16) (bytesRow ((bs.drop (256 * i)).take 256))) d
    d.adjFacet facet Facet.endC

/-- The writes of one row at offset a of facet n (R51, R57): every 64-bit word with a valid lane is written whole, a masked lane
of it keeping its bytes (assumption 33). -/
def rowWrites (m : MemSys) (n a : Nat) (row : Row) : List (Nat × List Byte) :=
  if row.mask % 2 ^ 64 = 2 ^ 64 - 1 then
    [(facetAddr n a, (List.range 64).flatMap fun i => leBytes 4 (row.lane i).toNat)]
  else
    (List.range 32).filterMap fun k =>
      if !row.ok (2 * k) && !row.ok (2 * k + 1) then none
      else
        let p := facetAddr n (a + 8 * k)
        let half (i : Nat) : List Byte := if row.ok i then leBytes 4 (row.lane i).toNat else m.bytes (p + 4 * (i % 2)) 4
        some (p, half (2 * k) ++ half (2 * k + 1))

/-- ST: the rows of tile register d to facet memory at S[a], lanes as masked. -/
def execSt (facet : Nat) (s : State) : Host.Outcome State Fault Refusal :=
  onDev s fun x d => d.ctlOp x facet 0x02 fun f w d =>
    let cnt := bits (cImm w) 13 10 + 1
    let start := bits (cImm w) 9 6
    let a := lineAddr (f.sreg (cA w))
    let ws := (List.range cnt).flatMap fun i => rowWrites x.mem facet (a + 256 * i) (f.trow (cD w % 8) ((start + i) % 16))
    let d := ws.foldl (fun d p => d.memOp (.write p.1 p.2)) d
    d.adjFacet facet Facet.endC

/-- SADDI: S[d] ← S[a] + imm, imm signed. -/
def execSaddi (facet : Nat) (s : State) : Host.Outcome State Fault Refusal :=
  onDev s fun x d => d.ctlOp x facet 0x03 fun f w d =>
    let v := (((f.sreg (cA w) : Nat) : Int) + signed 14 (cImm w)) % (2 ^ 64 : Nat)
    d.adjFacet facet fun f => (f.setSreg (cD w) v.toNat).endC

/-- LOOP: if S[a] ≠ 0, count it down and branch to bundle imm[10:0]. -/
def execLoop (facet : Nat) (s : State) : Host.Outcome State Fault Refusal :=
  onDev s fun x d => d.ctlOp x facet 0x04 fun f w d =>
    if f.sreg (cA w) = 0 then d.adjFacet facet Facet.endC
    else d.adjFacet facet fun f => { f.setSreg (cA w) (f.sreg (cA w) - 1) with next := bits (cImm w) 10 0 }.endC

/-- END: the iteration ends with its bundle (R79). -/
def execEndIteration (facet : Nat) (s : State) : Host.Outcome State Fault Refusal :=
  onDev s fun x d => d.ctlOp x facet 0x05 fun _ _ d =>
    d.adjFacet facet fun f => { f with ended := true }.endC

/-- SWAIT: the bundle issues once swaitClear holds; it stalls till then. -/
def execSwait (facet : Nat) (s : State) : Host.Outcome State Fault Refusal :=
  onDev s fun x d => d.ctlOp x facet 0x06 fun _ _ d => d.adjFacet facet Facet.endC

/-- SSIG: sync counter imm grows by S[a]. -/
def execSsig (facet : Nat) (s : State) : Host.Outcome State Fault Refusal :=
  onDev s fun x d => d.ctlOp x facet 0x07 fun f w d =>
    (d.addSync (bits (cImm w) 12 0) (f.sreg (cA w))).adjFacet facet Facet.endC

/-- A fetch-add of n bytes by the program (R66): S[d] takes the old value, the sum wraps; a POISON word stays POISON and S[d] takes
a free value. Address bits below the operand's alignment are dropped (assumption 174). -/
def Dev.progFetchAdd (d : Dev) (x : Ctx) (facet nb : Nat) (f : Facet) (w : Nat) : Dev :=
  let a := f.sreg (cA w) / nb * nb
  let (bs, d) := d.progRead x facet a nb
  if !d.alive then d else
  let old := leNat bs
  let p := facetAddr facet a
  let d := if x.mem.poisoned p then d
    else d.memOp (.write (p / 8 * 8)
      ((x.mem.bytes (p / 8 * 8) (p % 8)) ++ leBytes nb ((old + f.sreg (cB w)) % 2 ^ (8 * nb)) ++
        x.mem.bytes (p + nb) (8 - nb - p % 8)))
  d.adjFacet facet fun f => (f.setSreg (cD w) old).endC

/-- FADD32. -/
def execFadd32 (facet : Nat) (s : State) : Host.Outcome State Fault Refusal :=
  onDev s fun x d => d.ctlOp x facet 0x08 fun f w d => d.progFetchAdd x facet 4 f w

/-- FADD64. -/
def execFadd64 (facet : Nat) (s : State) : Host.Outcome State Fault Refusal :=
  onDev s fun x d => d.ctlOp x facet 0x09 fun f w d => d.progFetchAdd x facet 8 f w

/-- WAITL: the bundle issues once waitlClear holds; it stalls till then. -/
def execWaitl (facet : Nat) (s : State) : Host.Outcome State Fault Refusal :=
  onDev s fun x d => d.ctlOp x facet 0x0A fun _ _ d => d.adjFacet facet Facet.endC

/-- WAITW: the bundle issues once waitwClear holds; it stalls till then. -/
def execWaitw (facet : Nat) (s : State) : Host.Outcome State Fault Refusal :=
  onDev s fun x d => d.ctlOp x facet 0x0B fun _ _ d => d.adjFacet facet Facet.endC

end Sys2Proof.Machine
end

