-- ==== Sys2Proof/Machine/Queue.lean ====
section
/-!
DEFINITION. What a facet meets besides its own operations: the start of an iteration, the end of a stall, arriving flits and
credits, exact-add groups (R21, R72 to R79, R91).
-/

namespace Sys2Proof.Machine

/-- The number of the iteration that nominally runs now (R79). -/
def Dev.nominal (d : Dev) (f : Facet) : Nat := d.execBeats - f.startExec

/-- LAG (Table 2.15). -/
def Dev.lag (d : Dev) (f : Facet) : Nat := d.nominal f - f.iter

/-- ITERATION_START (R79): the next iteration starts at the later of its nominal start and the end of the one before. None starts
while the configuration it belongs to is about to flip (R119). -/
def execIterationStart (facet : Nat) (s : State) : Host.Outcome State Fault Refusal :=
  onDev s fun x d =>
    let f := d.facet facet
    let flipping := match d.facetComp facet with
      | some c =>
        let k := d.canopyOf c
        decide (k.st = .flipping) && k.staged && (match k.job with | some j => decide (d.facetJob facet = some j) | none => true)
      | none => true
    if d.executes x && f.powered && decide (f.run = .idle) && f.started && f.active.valid && !f.held && !f.frozen && !flipping &&
       decide (f.iter ≤ d.nominal f) then
      d.setFacet facet { f with run := .running, pc := 0, next := 1, doneA := false, doneV := false, doneC := false,
                                issued := false, counted := false, vrow := 0, ended := false, stall := .none, sIssue := f.s }
    else d

/-- Has the condition of a stall cleared (R21)? -/
def Dev.stallClear (d : Dev) (f : Facet) : Bool :=
  match f.stall with
  | .none => false
  | .iqEmpty q => decide (4 * ((vSources f.vop).filter fun c => decide (c = q + 8)).length ≤ (f.iqOf q).length)
  | .oqFull q => f.poisonSeen || f.oqRoom q
  | .bank b => !f.bankBusy b
  | .accEmpty => !f.drainQ.isEmpty
  | .sync => swaitClear d f
  | .waitl => waitlClear f
  | .waitw => waitwClear f

/-- STALL_RELEASE (R21): the bundle goes on where it stood. -/
def execStallRelease (facet : Nat) (s : State) : Host.Outcome State Fault Refusal :=
  onDev s fun x d =>
    if d.runs x facet && d.stallClear (d.facet facet) then d.adjFacet facet fun f => { f with stall := .none } else d

/-- FLIT_ARRIVAL (R76): the oldest flit on its way to a queue of the facet. A bubble is dropped, a flit of the other epoch is
discarded and counted, a flit for a full queue or a held facet waits. A flit that has left its switch enters the queue in a skipped or held
beat too: of what stands still then R27 names programs, engines, arrays and switches (assumption 177). -/
def execFlitArrival (facet : Nat) (s : State) : Host.Outcome State Fault Refusal :=
  onDev s fun x d =>
    let f := d.facet facet
    if !(d.alive && f.powered && !f.held && !f.frozen) then d
    else match f.arriving with
      | [] => d
      | (q, t) :: rest =>
        let f' := { f with arriving := rest }
        if !flitV t then d.setFacet facet f'
        else if flitE t != f.epoch then
          let d := d.setFacet facet { f' with epochDisc := satAdd (2 ^ 32 - 1) f.epochDisc 1 }
          match d.routedJob facet 167 152 with
          | some j => d.count (0x5440 + j) 0x08 1
          | none => d
        else if (f.iqOf q).length < 64 then
          let d := d.setFacet facet { f' with iq := tset f.iq q (f.iqOf q ++ [t]) }
          if d.executes x then d.feed facet else d
        else d

/-- CREDIT_RETURN (R91): a credit on its way reaches the sending switch. -/
def execCreditReturn (facet queue : Nat) (s : State) : Host.Outcome State Fault Refusal :=
  onDev s fun x d =>
    let f := d.facet facet
    if d.executes x && f.powered && !f.held && !f.frozen && decide (0 < tgetD f.creditFly queue 0) then
      d.setFacet facet { f with creditFly := tset f.creditFly queue (tgetD f.creditFly queue 0 - 1),
                                credits := tset f.credits queue (f.credit queue + 1) }
    else d

/-! Exact-add groups (Table 2.8). -/
def grpSerial (h : Nat) : Nat := bits h 127 112
def grpOffset (h : Nat) : Nat := bits h 95 64
def grpCount (h : Nat) : Nat := bits h 63 48
def grpOp (h : Nat) : Nat := bits h 47 40
def grpWin (h : Nat) : Nat := bits h 39 36

/-- What becomes of a group (R73, R74): 0 applied, 1 stale, 2 consumed by a discard window. -/
def grpClass (f : Facet) (h : Nat) : Nat :=
  let w := f.active.prog.windows.getD (grpWin h) 0
  if grpSerial h ≠ (f.win (grpWin h)).serial ∨ grpOp h ≠ 1 ∨ winLanes w < grpOffset h + grpCount h ∨ grpOffset h % 8 ≠ 0 then 1
  else if winDiscard w then 2 else 0

/-- The group's last flit has gone: count it (R73, R74). -/
def Dev.grpEnd (d : Dev) (n q h cls : Nat) : Dev :=
  let d := d.adjFacet n fun f =>
    let f := { f with grps := terase f.grps q }
    if cls = 1 then { f with staleGrp := satAdd (2 ^ 32 - 1) f.staleGrp 1 }
    else if cls = 2 then { f with discGrp := satAdd (2 ^ 32 - 1) f.discGrp 1 }
    else f.arrive (grpWin h)
  if cls = 1 then
    match d.routedJob n 167 152 with
    | some j => d.count (0x5440 + j) 0x07 1
    | none => d
  else d

/-- Absorb the flits of the group that stands at the head of queue q, fuel above their number. A group in progress is listed in
grps with its header and 4 × addends done + class. -/
def Dev.grpFlits (x : Ctx) (n q : Nat) : Nat → Dev → Dev
  | 0, d => d
  | k + 1, d =>
    let f := d.facet n
    match f.iqOf q with
    | [] => d
    | t :: _ =>
      let d := (d.popIq n q 1).2
      match tget f.grps q with
      | none =>
        let h := t.pay
        let c := grpClass f h
        if flitL t then d.grpEnd n q h c
        else Dev.grpFlits x n q k (d.adjFacet n fun f => { f with grps := tset f.grps q (h, c) })
      | some (h, v) =>
        let c := v % 4
        let done := v / 4
        let vs := (List.range 16).map fun i => (decide (done + i < grpCount h), (flitLanes t).getD i 0)
        let d := if c = 0 then (d.exactAdd x n (grpWin h) (grpOffset h + done) vs).1 else d
        if flitL t then d.grpEnd n q h c
        else Dev.grpFlits x n q k (d.adjFacet n fun f => { f with grps := tset f.grps q (h, (done + 16) * 4 + c) })

/-- EXACT_ADD_GROUP (R73): the group at the head of the queue is applied or discarded as far as its flits have come; with its last
flit it counts. -/
def execExactAddGroup (facet queue : Nat) (s : State) : Host.Outcome State Fault Refusal :=
  onDev s fun x d =>
    let f := d.facet facet
    if d.alive && f.powered && f.active.valid && !f.held && !f.frozen && decide (queue < 8) then
      Dev.grpFlits x facet queue ((f.iqOf queue).length + 1) d
    else d

end Sys2Proof.Machine
end

