-- ==== Sys2Proof/Machine/Slot.lean ====
section
/-!
DEFINITION. One slot of a beat (R22, R85 to R91, R267, R268): what every switch output, gateway and Bridle out port carries in it.
-/

namespace Sys2Proof.Machine

/-- A switch output on a circuit's route: logical row and column, direction (0 N, 1 E, 2 S, 3 W, 4 local), slot advance from the
first hop. -/
structure Hop where
  row : Nat
  col : Nat
  dir : Nat
  adv : Nat
  deriving DecidableEq, Repr

/-- Slot advance of a hop from a physical column in a direction: 3 across the Keel bridge, else 1 (R89). -/
def hopAdvance (pcol dir : Nat) : Nat := if (pcol = 15 ∧ dir = 1) ∨ (pcol = 16 ∧ dir = 3) then 3 else 1

/-- The outputs of a route from a logical place on; base is the physical column of logical column 0. It ends with the first local
output, or where it leaves the array. -/
def routeFrom (rec_ base : Nat) : Nat → Nat → Nat → Nat → Nat → List Hop
  | 0, _, _, _, _ => []
  | n + 1, i, row, col, adv =>
    let h := crHop rec_ i
    let here : Hop := ⟨row, col, h, adv⟩
    if h = 4 ∨ 4 < h then [here]
    else
      let adv' := adv + hopAdvance (base + col) h
      match h with
      | 0 => if row = 0 then [here] else here :: routeFrom rec_ base n (i + 1) (row - 1) col adv'
      | 2 => if row = 31 then [here] else here :: routeFrom rec_ base n (i + 1) (row + 1) col adv'
      | 1 => if 31 ≤ base + col then [here] else here :: routeFrom rec_ base n (i + 1) row (col + 1) adv'
      | _ => if col = 0 then [here] else here :: routeFrom rec_ base n (i + 1) row (col - 1) adv'

/-- How far a gateway circuit moves before its local output: south and east, as signed numbers. -/
def routeShift (rec_ : Nat) : Nat → Nat → Int → Int → Int × Int
  | 0, _, s, e => (s, e)
  | n + 1, i, s, e =>
    match crHop rec_ i with
    | 0 => routeShift rec_ n (i + 1) (s - 1) e
    | 1 => routeShift rec_ n (i + 1) s (e + 1)
    | 2 => routeShift rec_ n (i + 1) (s + 1) e
    | 3 => routeShift rec_ n (i + 1) s (e - 1)
    | _ => (s, e)

/-- The outputs of a circuit on column groups gs; a circuit from a gateway enters at row 0 from the north, at row 31 from the south. -/
def circuitHops (gs : List Nat) (rec_ : Nat) : List Hop :=
  let w := max 1 (4 * gs.length)
  let base := 4 * (gs.head?).getD 0
  if crSrc rec_ = 0xFFFF then
    let (s, e) := routeShift rec_ 64 0 0 0
    let row := ((crDst rec_ / w : Nat) : Int) - s
    let col := ((crDst rec_ % w : Nat) : Int) - e
    routeFrom rec_ base 64 0 row.toNat col.toNat 0
  else routeFrom rec_ base 64 0 (crSrc rec_ / w) (crSrc rec_ % w) 0

/-- The physical facet of a hop. -/
def Hop.facet (h : Hop) (gs : List Nat) : Nat := h.row * 32 + 4 * (gs.head?).getD 0 + h.col

/-! Slot-table entries (Table 3.2). -/

/-- The field of output dir in slot-table entry w. -/
def outField (w dir : Nat) : Nat :=
  match dir with
  | 0 => bits w 11 0
  | 1 => bits w 23 12
  | 2 => bits w 35 24
  | 3 => bits w 47 36
  | _ => bits w 59 48
def ofEn (f : Nat) : Bool := f.testBit 11
def ofSrc (f : Nat) : Nat := bits f 10 8
def ofQueue (f : Nat) : Nat := bits f 7 5

/-- The switch that an output in direction dir of facet n joins, with the side it enters by (R86); none at the edge. -/
def neighbour (n dir : Nat) : Option (Nat × Nat) :=
  let row := n / 32
  let col := n % 32
  match dir with
  | 0 => if row = 0 then none else some (n - 32, 2)
  | 1 => if col = 31 then none else some (n + 1, 3)
  | 2 => if row = 31 then none else some (n + 32, 0)
  | 3 => if col = 0 then none else some (n - 1, 1)
  | _ => none

/-- Does a facet's switch advance (R27, R119)? -/
def Facet.switching (f : Facet) : Bool := f.powered && f.active.valid && !f.held && !f.frozen

/-- The circuit and leg by which facet n's output dir leaves through a gateway in slot s, for its job. -/
def Dev.gatewayLeg (d : Dev) (n dir s : Nat) : Option (Nat × Leg × Nat × List Nat) :=
  (d.facetJob n).bind fun j => (tget d.jobs j).bind fun b =>
    let cs := b.info.circuits
    (List.range cs.length).findSome? fun i =>
      let r := cs.getD i 0
      match (circuitHops b.groups r).getLast? with
      | some h =>
        if crDst r = 0xFFFF ∧ h.facet b.groups = n ∧ h.dir = dir ∧ (crSlots r).testBit ((s + 64 - h.adv % 64) % 64) then
          (d.legs.find? fun l => decide (l.1 / 4096 = j) && decide (l.2.srcRank = b.rank) && decide (l.2.srcCirc = i)).map fun l =>
            (l.1, l.2, r, b.groups)
        else none
      | none => none

/-- Take up to k flits that output dir of facet n may carry in slot s from source src (R87, R89, R91). A facet that has read POISON emits none of
its own (R65). -/
def Dev.outTake (d : Dev) (n src q s k : Nat) : List Flit × Dev :=
  let f := d.facet n
  if src = 4 then
    if f.poisonSeen then ([], d) else
    let m := min k (min (f.credit q) (f.oqOf q).length)
    ((f.oqOf q).take m, d.setFacet n { f with oq := tset f.oq q ((f.oqOf q).drop m), credits := tset f.credits q (f.credit q - m) })
  else
    let buf := tgetD f.bufs src []
    let due := (buf.filter fun t => decide (t.1 = s)).take k
    let rest := buf.filter (fun t => decide (t.1 ≠ s)) ++ ((buf.filter fun t => decide (t.1 = s)).drop k)
    (due.map Prod.snd, d.setFacet n { f with bufs := tset f.bufs src rest })

/-- One output of one switch in slot s. -/
def Dev.switchOut (cap s n dir : Nat) (d : Dev) : Dev :=
  let f := d.facet n
  let e := outField (f.active.slots.getD s 0) dir
  if !ofEn e || (dir = 4 && ofSrc e = 4) then d
  else if dir = 4 then
    let (ts, d) := d.outTake n (ofSrc e) 0 s cap
    d.adjFacet n fun f => { f with arriving := f.arriving ++ ts.map fun t => (ofQueue e, t) }
  else match neighbour n dir with
    | some (m, side) =>
      let (ts, d) := d.outTake n (ofSrc e) (ofQueue e) s cap
      let due := (s + hopAdvance (n % 32) dir) % 64
      d.adjFacet m fun g => { g with bufs := tset g.bufs side (tgetD g.bufs side [] ++ ts.map fun t => (due, t)) }
    | none =>
      if dir = 1 ∨ dir = 3 then d
      else match d.gatewayLeg n dir s with
        | none => d
        | some (k, l, r, gs) =>
          let (ts, d) := d.outTake n (ofSrc e) (ofQueue e) s (min cap (l.txb - l.tx.length))
          let d := { d with legs := tadj d.legs k fun l => { l with tx := l.tx ++ ts } }
          -- the gateway takes the flits: their credits go back to the sending facet
          d.adjFacet (physFacet gs (crSrc r)) fun g => { g with creditFly := tmod g.creditFly (crSrcq r) 0 (· + ts.length) }

/-- The gateway puts flits of a leg into its circuit in the circuit's first-hop slots, against credits (R90, R91, R268). -/
def Dev.gatewayIn (cap s : Nat) (d : Dev) (k : Nat) : Dev :=
  match tget d.legs k, tget d.jobs (k / 4096), tget d.routes (k / 4096) with
  | some l, some b, some rt =>
    let r := b.info.circuits.getD l.dstCirc 0
    match legIn rt.tree b.rank l, (circuitHops b.groups r).head? with
    | some p, some h =>
      let n := physFacet b.groups (crDst r)
      let key := n * 8 + crDstq r
      let m := min cap (min l.rx.length (tgetD d.gwCredits key 0))
      if l.kind ≠ 0 ∨ crSrc r ≠ 0xFFFF ∨ b.iced ∨ m = 0 ∨ (crSlots r).testBit s = false ∨ (d.facet (h.facet b.groups)).switching = false then d
      else
        let side := if crSrcq r < 8 then 0 else 2
        let d := d.adjFacet (h.facet b.groups) fun f =>
          { f with bufs := tset f.bufs side (tgetD f.bufs side [] ++ (l.rx.take m).map fun t => (s, t)) }
        let d := { d with legs := tset d.legs k { l with rx := l.rx.drop m }, gwCredits := tset d.gwCredits key (tgetD d.gwCredits key 0 - m) }
        d.oweCredits p l m
    | _, _ => d
  | _, _, _ => d

/-! Bridle out ports. -/

/-- One DATA frame of a leg on its ports. -/
def Dev.legFrame (d : Dev) (s k : Nat) (ports : List Nat) (comp : Nat) : Option Dev :=
  match tget d.legs k with
  | none => none
  | some l =>
    let credit := ports.foldl (fun m p => min m (tgetD l.credits p 0)) 3
    let m := min (min 3 credit) l.tx.length
    if m = 0 ∨ ports.any (fun p => decide (1024 ≤ (d.port p).unacked.length) || decide ((d.port p).st ≠ .inService) || (d.port p).changing ||
        !(d.port p).resend.isEmpty) then none
    else
      let f : Frame := { idleFrame with
        typ := 0, enc := l.enc, slot := s, comp := comp, tepoch := d.num (0x4100 + comp) 8,
        lctr := if l.enc then l.lctr else 0, flits := l.tx.take m }
      let f := if l.enc then (match tget d.jobs (k / 4096) with | some b => sealLegFrame f (d.legSecret b) k | none => f) else f
      let l := { l with
        tx := l.tx.drop m, lctr := if l.enc then (l.lctr + 1) % 2 ^ 64 else l.lctr,
        credits := ports.foldl (fun t p => tset t p (tgetD t p 0 - m)) l.credits }
      some (ports.foldl (fun d p => d.sendSequenced p f) { d with legs := tset d.legs k l.refill })

/-- Up to n frames of a leg; the number sent. -/
def Dev.legFrames (s k : Nat) (ports : List Nat) (comp : Nat) : Nat → Nat → Dev → Nat × Dev
  | 0, sent, d => (sent, d)
  | n + 1, sent, d =>
    match d.legFrame s k ports comp with
    | none => (sent, d)
    | some d => Dev.legFrames s k ports comp n (sent + 1) d

/-- Resend up to n frames of a port in order (R260). -/
def Dev.resendFrames (p : Nat) (probesOnly : Bool) : Nat → Nat → Dev → Nat × Dev
  | 0, sent, d => (sent, d)
  | n + 1, sent, d =>
    let q := d.port p
    match q.resend with
    | [] => (sent, d)
    | k :: rest =>
      match q.unacked.find? fun u => decide (u.seq = k) with
      | none => Dev.resendFrames p probesOnly n sent (d.setPort p { q with resend := rest })
      | some f =>
        if probesOnly && decide (f.typ ≠ 5) then (sent, d)
        else
          let (q, f) := q.sendAgain f rest
          let d := (d.setPort p q).emit (.frame p f)
          Dev.resendFrames p probesOnly n (sent + 1) (d.count (0x2200 + p) 0x0E 1)

/-- Up to n frames of a port's pass buffer that wait for slot s and may leave by now; the number sent. None goes before frames that are to be
resent (R260). -/
def Dev.passFrames (p s : Nat) (probesOnly : Bool) : Nat → Nat → Dev → Nat × Dev
  | 0, sent, d => (sent, d)
  | n + 1, sent, d =>
    let q := d.port p
    match q.pass.find? fun w => decide (w.slot = s) && decide (w.ready ≤ d.slotAt) && (!probesOnly || decide (w.frame.typ = 5)) with
    | none => (sent, d)
    | some w =>
      if 1024 ≤ q.unacked.length ∨ !q.resend.isEmpty then (sent, d)
      else Dev.passFrames p s probesOnly n (sent + 1) ((d.setPort p { q with pass := q.pass.erase w }).sendSequenced p w.frame)

/-- Up to n control messages of a port that wait for slot s and may leave by now, one to a frame (R275); the number sent. A slot that another job
or a pass record holds is none of their job's. -/
def Dev.sendCtl (p s : Nat) : Nat → Nat → Dev → Nat × Dev
  | 0, sent, d => (sent, d)
  | n + 1, sent, d =>
    let q := d.port p
    let free (m : CtlMsg) : Bool :=
      !(q.slot s).testBit 63 || (decide (bits (q.slot s) 62 61 = 2) && decide (bits (q.slot s) 60 55 = m.job % 64))
    match q.ctl.find? fun m => decide (m.slot = s) && decide (m.ready ≤ d.slotAt) && free m with
    | none => (sent, d)
    | some m => Dev.sendCtl p s n (sent + 1) ((d.setPort p { q with ctl := q.ctl.erase m }).emit (.control p m.job m.kind m.words))

/-- The next frame of the image in a formation slot of a job at the member that multicasts it: three flits of 64 bytes, the last with L (R279). -/
def Dev.imageFrame (d : Dev) (p s j : Nat) : Option Dev :=
  match tget d.images j, tget d.routes j, tget d.jobs j with
  | some img, some r, some b =>
    let done := tgetD r.imageSent p 0
    let all := ceilDiv img.length 64
    if b.imageRank ≠ b.rank ∨ (b.st = .loading ∧ b.phase = .rejoining) ∨ all ≤ done ∨ 1024 ≤ (d.port p).unacked.length ∨ !(d.port p).resend.isEmpty then none
    else
      let m := min 3 (all - done)
      let f : Frame := { idleFrame with
        typ := 0, slot := s, comp := b.comp, tepoch := d.num (0x4100 + b.comp) 8
        flits := (List.range m).map fun i =>
          ⟨leNat ((img.drop (64 * (done + i))).take 64), mkSb true false (decide (done + i + 1 = all)) 0⟩ }
      some ({ d with routes := tset d.routes j { r with imageSent := tset r.imageSent p (done + m) } }.sendSequenced p f)
  | _, _, _ => none

/-- Up to n frames of the image on a port; the number sent. -/
def Dev.imageFrames (p s j : Nat) : Nat → Nat → Dev → Nat × Dev
  | 0, sent, d => (sent, d)
  | n + 1, sent, d =>
    match d.imageFrame p s j with
    | none => (sent, d)
    | some d => Dev.imageFrames p s j n (sent + 1) d

/-- One out port in slot s (R267): resends first, then what holds the slot, else an IDLE frame. -/
def Dev.portOut (s : Nat) (d : Dev) (p : Nat) : Dev :=
  let q := d.port p
  if q.st ≠ .inService ∨ q.changing then d
  else
    let moored := decide (d.state = .moored)
    let n := q.frames
    let (a, d) := Dev.resendFrames p moored n 0 d
    let e := q.slot s
    let k := legKey (bits e 60 55) (bits e 51 40)
    let (b, d) := Dev.passFrames p s moored (n - a) 0 d
    let (c, d) :=
      if moored || !e.testBit 63 || decide (bits e 62 61 ≠ 0) || decide (a ≠ 0) then (0, d)
      else match tget d.legs k, tget d.jobs (k / 4096), tget d.routes (k / 4096) with
        | some l, some j, some r =>
          let ports := legPorts r.tree j.rank l.kind l.srcRank l.srcPort
          if j.iced || l.broken || decide (ports.head? ≠ some p) then (0, d)
          else Dev.legFrames s k ports j.comp (ports.foldl (fun m p => min m (d.port p).frames) n) 0 d
        | _, _, _ => (0, d)
    let (g, d) := Dev.sendCtl p s (n - a - b - c) 0 d
    let (h, d) :=
      if moored || !e.testBit 63 || decide (bits e 62 61 ≠ 2) || decide (bits e 51 40 ≠ 0xFFF) then (0, d)
      else Dev.imageFrames p s (bits e 60 55) (n - a - g) 0 d
    if a + b + c + g + h = 0 then d.sendControl p { idleFrame with slot := s } else d

/-- SLOT (R22, R87 to R91, R267, R268): slot index of the beat. The switches and gateways advance in executed beats only; the
Bridle out ports in every beat. -/
def execSlot (index : Nat) (s : State) : Host.Outcome State Fault Refusal :=
  onDev s fun x d =>
    if !d.alive || decide (63 < index) then d
    else
      let cap := Config.flitsPerSlot d.profile
      let d := { d with slotAt := 64 * x.time.beat + index }
      let d :=
        if d.executes x then
          let d := (tkeys d.legs).foldl (fun d k => d.gatewayIn cap index k) d
          (tkeys d.facets).foldl (fun d n =>
            if (d.facet n).switching then (List.range 5).foldl (fun d dir => d.switchOut cap index n dir) d else d) d
        else d
      let d := (List.range 16).foldl (fun d p => d.portOut index p) d
      (List.range 16).foldl (fun d p => if (d.port p).st = .inService then Dev.drainFifo x p (d.port p).fifo.length d else d) d

end Sys2Proof.Machine
end

