-- ==== Sys2Proof/Machine/Image.lean ====
section
/-!
DEFINITION. The canopy image as the loader reads it (R106 to R112, R159, R218, R269): sections, facet programs, the static schedule of
a program, circuits and the paths they form.
-/

namespace Sys2Proof.Machine

/-- A section-table entry (Table 3.8). -/
structure Sect where
  typ : Nat
  target : Nat
  off : Nat
  len : Nat
  digest : List Byte
  deriving DecidableEq, Repr

/-- The section table of an image. -/
def imageSects (img : List Byte) (h : Nat) : List Sect :=
  (List.range (hSections h)).map fun i =>
    let w := leNat ((img.drop (128 + 64 * i)).take 64)
    ⟨bits w 15 0, bits w 31 16, bits w 127 64, bits w 191 128, leBytes 32 (bits w 511 256)⟩

/-- The bytes of a section. -/
def Sect.bytes (s : Sect) (img : List Byte) : List Byte := (img.drop s.off).take s.len

/-- The first section of a type, as bytes; empty where the image has none. -/
def sectOf (img : List Byte) (ss : List Sect) (t : Nat) : List Byte :=
  match ss.find? fun s => decide (s.typ = t) with
  | some s => s.bytes img
  | none => []

/-- n-byte word i of a byte string from an offset. -/
def wordAt (bs : List Byte) (off n i : Nat) : Nat := leNat ((bs.drop (off + n * i)).take n)

/-! Facet programs (Table 2.10, Table 2.11). -/
def phBundles (b : List Byte) : Nat := bits (leNat (b.take 64)) 95 80
def phTiles (b : List Byte) : Nat := bits (leNat (b.take 64)) 79 72
def phWindows (b : List Byte) : Nat := bits (leNat (b.take 64)) 71 64
def phMaplen (b : List Byte) : Nat := bits (leNat (b.take 64)) 63 48
def phStatic (b : List Byte) : Nat := bits (leNat (b.take 64)) 47 32
def phVersion (b : List Byte) : Nat := bits (leNat (b.take 64)) 15 8

/-- Do a program section's counts and length agree? -/
def progShape (b : List Byte) : Bool :=
  decide (phVersion b = 1) && decide (1 ≤ phBundles b) && decide (phBundles b ≤ 2048) && decide (phTiles b ≤ 64) &&
  decide (phWindows b ≤ 16) && decide (b.length = 0x740 + 16 * phBundles b)

/-- A program section as read; port-map entries beyond MAPLEN read 0 (R78). -/
def readProg (b : List Byte) : Prog where
  static := phStatic b
  portMap := (List.range 352).map fun i => if i < phMaplen b then (b.getD (0x40 + i) 0).toNat else 0
  masks := (List.range 8).map fun i => wordAt b 0x1A0 16 i
  scales := (List.range 8).map fun i => BitVec.ofNat 32 (wordAt b 0x220 4 i)
  windows := (List.range (phWindows b)).map fun i => wordAt b 0x240 16 i
  tiles := (List.range (phTiles b)).map fun i => wordAt b 0x340 16 i
  bundles := (List.range (phBundles b)).map fun i => wordAt b 0x740 16 i

/-- Units of a bundle word (Table 2.13). -/
def bWait (b : Nat) : Nat := bits b 127 120
def bAop (b : Nat) : Nat := bits b 119 88
def bVop (b : Nat) : Nat := bits b 87 40
def bCop (b : Nat) : Nat := bits b 39 8

/-- The schedule of an iteration with no stalls (R79, R97): each bundle with its cycle, how it ended, the scalar registers after. -/
structure Walk where
  issues : List (Nat × Nat)
  cycles : Nat
  ended : Bool
  loaded : Bool
  s : List Nat
  taint : List Bool

/-- Follow a program from bundle pc at cycle cyc; loaded says that a LOOP tested a value from a fetch-add (R97). -/
def walkFrom (bundles : List Nat) : Nat → Nat → Nat → List Nat → List Bool → List (Nat × Nat) → Walk
  | 0, _, cyc, s, t, acc => ⟨acc.reverse, cyc, false, false, s, t⟩
  | n + 1, pc, cyc, s, t, acc =>
    match bundles[pc]? with
    | none => ⟨acc.reverse, cyc, false, false, s, t⟩
    | some b =>
      let at_ := cyc + bWait b
      let acc := (at_, b) :: acc
      let w := bCop b
      match cOpc w with
      | 0x03 =>
        let v := (((s.getD (cA w) 0 : Nat) : Int) + signed 14 (cImm w)) % (2 ^ 64 : Nat)
        walkFrom bundles n (pc + 1) (at_ + 1) (lset s (cD w) v.toNat) (lset t (cD w) (t.getD (cA w) false)) acc
      | 0x04 =>
        if t.getD (cA w) false then ⟨acc.reverse, at_ + 1, false, true, s, t⟩
        else if s.getD (cA w) 0 = 0 then walkFrom bundles n (pc + 1) (at_ + 1) s t acc
        else walkFrom bundles n (bits (cImm w) 10 0) (at_ + 1) (lset s (cA w) (s.getD (cA w) 0 - 1)) t acc
      | 0x05 => ⟨acc.reverse, at_ + 1, true, false, s, t⟩
      | 0x08 => walkFrom bundles n (pc + 1) (at_ + 1) s (lset t (cD w) true) acc
      | 0x09 => walkFrom bundles n (pc + 1) (at_ + 1) s (lset t (cD w) true) acc
      | _ => walkFrom bundles n (pc + 1) (at_ + 1) s t acc

/-- n iterations in a row, from registers of 0 (R81). -/
def walks (bundles : List Nat) : Nat → List Nat → List Bool → List Walk
  | 0, _, _ => []
  | n + 1, s, t =>
    let w := walkFrom bundles 1409 0 0 s t []
    if w.ended then w :: walks bundles n w.s w.taint else [w]

/-- The first n iterations of a program. -/
def Prog.walks (p : Prog) (n : Nat) : List Walk := Machine.walks p.bundles n (List.replicate 16 0) (List.replicate 16 false)

/-- Iterations that the loader follows of a program that sends circuits of these periods: at least 17, after which 16 registers carry no new
taint, and every period (R79, R97; assumption 170). -/
def loaderRuns (periods : List Nat) : Nat := periods.foldl max 17

/-- The first iteration of a program. -/
def Prog.walk (p : Prog) : Walk := walkFrom p.bundles 1409 0 0 (List.replicate 16 0) (List.replicate 16 false) []

/-- Is a vector opcode in Table 2.3? -/
def vopKnown (o : Nat) : Bool := decide (o ≤ 0x12) || decide (o = 0x18) || decide (o = 0x1C) || decide (o = 0x1D) || decide (o = 0x1E)

/-- Check OPCODE on one bundle (R80, Table 2.13, Table 2.14). -/
def bundleOk (b : Nat) : Bool :=
  let v := bVop b
  decide (bits (bAop b) 31 28 ≤ 1) && vopKnown (vOpc v) && decide (vD v ≤ 0x11) && decide (vA v ≤ 0x11) && decide (vB v ≤ 0x11) &&
  decide (vC v ≤ 0x11) && decide (cOpc (bCop b) ≤ 0x0B) && !(decide (vOpc v = 0x18) && decide (6 < vFn v))

/-- Tile commands that a walk issues, in order. -/
def Walk.tiles (w : Walk) (p : Prog) : List Nat :=
  w.issues.filterMap fun i => if bits (bAop i.2) 31 28 = 1 then p.tiles[bits (bAop i.2) 27 22]? else none

/-- Is a format pair permitted (R37)? -/
def pairOk (a b : Nat) : Bool :=
  (decide (a ≤ 3) && decide (b ≤ 3)) || ((decide (a = 4) || decide (a = 5)) && (decide (b = 4) || decide (b = 5))) ||
  (decide (a = 6) && decide (b = 6))

/-- Check SHAPE on one tile command (R37, R47, R102). -/
def tileOk (shapes w : Nat) : Bool :=
  decide (tcShape w ≤ 5) && shapes.testBit (tcShape w) && pairOk (tcAfmt w) (tcBfmt w) &&
  !(decide (tcShape w = 4) && (tcAcc w || !tcDrn w))

/-- A tile with ACC = 1 follows no tile of another pass count but after a drain (R47). -/
def chainOk : Option Nat → List Nat → Bool
  | _, [] => true
  | prev, w :: r =>
    let n := passes (tcShape w)
    let ok := match prev with | some m => !tcAcc w || decide (m = n) | none => true
    ok && chainOk (if tcDrn w then none else some n) r

/-- The port-map class of a cycle (R58). -/
def Prog.portClass (p : Prog) (cyc : Nat) : Nat := p.portMap.getD (cyc / 4) 0

/-- Check PORT_CLASS on one issued bundle: its own accesses, from its cycle on, lie in quanta of their class (R59): a line a cycle, two
cycles a line for an exact add and for a fetch-add (Table 2.5). The array's operand reads wait for an OPR quantum instead (R48). -/
def portOk (p : Prog) (i : Nat × Nat) : Bool :=
  let all (n cls : Nat) : Bool := (List.range n).all fun k => decide (p.portClass (i.1 + k) = cls)
  let w := bCop i.2
  let v := bVop i.2
  (match cOpc w with
   | 0x01 => all (2 * (bits (cImm w) 13 10 + 1)) 1
   | 0x02 => all (2 * (bits (cImm w) 13 10 + 1)) 2
   | 0x08 => all 2 4
   | 0x09 => all 2 4
   | _ => true) &&
  (match vOpc v with
   | 0x1C => all (16 * vRows v) 2
   | 0x1D => all (8 * vRows v) 1
   | 0x1E => all (8 * vRows v) 2
   | _ => true)

/-- Check BUFFER on one tile command (R57, R82). -/
def tileFits (w : Nat) : Bool :=
  (tcAsrc w || (decide (tcAaddr w % 128 = 0) && decide (tcAaddr w + rowGroups (tcShape w) * aBytes w ≤ 0x80000))) &&
  (tcBsrc w || (decide (tcBaddr w % 128 = 0) && decide (tcBaddr w + colGroups (tcShape w) * bBytes w ≤ 0x80000)))

/-- Check BUFFER on one window. -/
def windowFits (w : Nat) : Bool :=
  decide (winBase w % 128 = 0) && decide (1 ≤ winLanes w) && decide (winLanes w ≤ 32768) && decide (winBase w + 16 * winLanes w ≤ 0x80000)

/-- How many of a vector operation's operands it reads. -/
def vopReads (v : Nat) : List Nat :=
  match vOpc v with
  | 0x00 | 0x1D | 0x1E => []
  | 0x02 | 0x03 | 0x04 | 0x06 | 0x07 | 0x10 => [vA v, vB v]
  | 0x05 => [vA v, vB v, vC v]
  | _ => [vA v]

/-- Does an issued bundle write output queue q, or read input queue q? -/
def writesOq (q : Nat) (b : Nat) : Bool :=
  let v := bVop b
  decide (vOpc v ≠ 0) && decide (vOpc v ≠ 0x1C) && decide (vOpc v ≠ 0x1E) && decide (vD v = 8 + q)
def readsIq (p : Prog) (q : Nat) (b : Nat) : Bool :=
  (vopReads (bVop b)).any (fun c => decide (c = 8 + q)) ||
  (decide (bits (bAop b) 31 28 = 1) &&
    (match p.tiles[bits (bAop b) 27 22]? with
     | some w => (tcAsrc w && decide (tcAq w = q)) || (tcBsrc w && decide (tcBq w = q))
     | none => false))

/-- Flits that iterations write to an output queue: four a row (R97). -/
def flitsTo (q : Nat) (ws : List Walk) : Nat :=
  ws.foldl (fun n w => w.issues.foldl (fun n i => if writesOq q i.2 then n + 4 * vRows (bVop i.2) else n) n) 0

/-! Circuits (R94 to R101). -/

/-- The circuit records of a queue plan. -/
def planCircuits (b : List Byte) : List Nat := (List.range (bits (leNat (b.take 64)) 15 0)).map fun i => wordAt b 64 64 i

/-- The pass-through records of a queue plan (R95). -/
def planPasses (b : List Byte) : List Nat :=
  let n := bits (leNat (b.take 64)) 15 0
  (List.range (bits (leNat (b.take 64)) 31 16)).map fun i => wordAt b (64 + 64 * n) 16 i
def ptStore (r : Nat) : Nat := bits r 127 96
def ptHold (r : Nat) : Nat := bits r 95 64
def ptFacet (r : Nat) : Nat := bits r 63 48
def ptIq (r : Nat) : Nat := bits r 47 40
def ptOq (r : Nat) : Nat := bits r 39 32

/-- The side of a switch that a flit entering from a hop in direction dir comes in by. -/
def sideAfter (dir : Nat) : Nat := (dir + 2) % 4

/-- A reservation of one switch output in one slot: logical facet, slot, direction, field. -/
structure Resv where
  facet : Nat
  slot : Nat
  dir : Nat
  field : Nat
  circ : Nat
  deriving DecidableEq, Repr

/-- The outputs of a circuit with what each takes its flits from: source code and queue bits. -/
def hopFields (rec_ : Nat) : Nat → Nat → List Hop → List (Hop × Nat)
  | _, _, [] => []
  | src, q, h :: r =>
    let qb := if h.dir = 4 then crDstq rec_ % 8 else if src = 4 then q else 0
    (h, 2 ^ 11 + src * 2 ^ 8 + qb * 2 ^ 5) :: hopFields rec_ (sideAfter h.dir) 0 r

/-- Everything one circuit reserves on column groups gs. -/
def circuitResv (gs : List Nat) (i rec_ : Nat) : List Resv :=
  let w := 4 * gs.length
  let first := if crSrc rec_ = 0xFFFF then (if crSrcq rec_ < 8 then 0 else 2) else 4
  (hopFields rec_ first (crSrcq rec_ % 8) (circuitHops gs rec_)).flatMap fun hf =>
    (maskBits 64 (crSlots rec_)).map fun s => ⟨hf.1.row * w + hf.1.col, (s + hf.1.adv) % 64, hf.1.dir, hf.2, i⟩

/-- Check ROUTE on one circuit: every hop inside the placed columns, and its end where the record says. -/
def routeOk (gs : List Nat) (r : Nat) : Bool :=
  let w := 4 * gs.length
  let hops := circuitHops gs r
  let fromGate := decide (crSrc r = 0xFFFF)
  let toGate := decide (crDst r = 0xFFFF)
  let inside := hops.all fun h => decide (h.row < 32) && decide (h.col < w) && decide (h.dir ≤ 4) &&
    !(decide (h.dir = 1) && decide (h.col + 1 = w)) && !(decide (h.dir = 3) && decide (h.col = 0))
  let ends := match hops.getLast? with
    | none => false
    | some h =>
      if toGate then decide (crDstq r ≤ 15) && (if crDstq r < 8 then decide (h.dir = 0) && decide (h.row = 0) else decide (h.dir = 2) && decide (h.row = 31))
      else decide (h.dir = 4) && decide (h.row * w + h.col = crDst r) && decide (crDstq r ≤ 7) && (fromGate || decide (1 < hops.length))
  let starts := match hops.head? with
    | none => false
    | some h => if fromGate then decide (crSrcq r ≤ 15) && decide (h.row = if crSrcq r < 8 then 0 else 31) else decide (crSrcq r ≤ 7) && decide (crSrc r < 32 * w)
  inside && ends && starts && !(fromGate && toGate)

/-- No queue has two circuits (R90). -/
def queuesOk (cs : List Nat) : Bool :=
  let outs := (cs.filter fun r => decide (crSrc r ≠ 0xFFFF)).map fun r => crSrc r * 8 + crSrcq r
  let ins := (cs.filter fun r => decide (crDst r ≠ 0xFFFF)).map fun r => crDst r * 8 + crDstq r
  outs.eraseDups.length == outs.length && ins.eraseDups.length == ins.length

/-- An edge between facets of the circuit graph: a circuit, or two circuits with the Bridle leg between them (R98, R99). -/
structure Edge where
  src : Nat
  srcq : Nat
  dst : Nat
  dstq : Nat
  first : Nat
  elems : Nat
  cap : Nat
  dep : Nat
  fppIn : Nat
  deriving DecidableEq, Repr

/-- Capacity and depth of a circuit in its periods (R98). -/
def circCap (r : Nat) : Nat := ceilDiv ((if crSrc r = 0xFFFF then 0 else crOqlim r) + crCredits r) (max 1 (crFpp r))
def circDep (r : Nat) : Nat := ((if crSrc r = 0xFFFF then 0 else crOqlim r) + crCredits r) / max 1 (crFpp r)
def legDep (l : Nat) : Nat := (lrTxb l + lrRxb l) / max 1 (lrFpp l)

/-- The edges of an image's circuit graph. -/
def planEdges (cs legs : List Nat) : List Edge :=
  (List.range cs.length).flatMap fun i =>
    let r := cs.getD i 0
    if crSrc r = 0xFFFF then []
    else if crDst r ≠ 0xFFFF then [⟨crSrc r, crSrcq r, crDst r, crDstq r, i, 1, circCap r, circDep r, crFpp r⟩]
    else (legs.filter fun l => decide (lrSrcCirc l = i) && decide (lrDstCirc l < cs.length)).map fun l =>
      let e := cs.getD (lrDstCirc l) 0
      ⟨crSrc r, crSrcq r, crDst e, crDstq e, i, 3, circCap r + lrCapp l + circCap e, circDep r + legDep l + circDep e, crFpp e⟩

/-- A path: where it ends, by which queue, its measures, the facets it has met. -/
structure Path where
  dst : Nat
  dstq : Nat
  first : Nat
  elems : Nat
  cap : Nat
  dep : Nat
  fppIn : Nat
  seen : List Nat
  deriving DecidableEq, Repr

/-- Every extension of a path by up to n more edges, along pass-through records (R98). -/
def extend (es : List Edge) (pts : List Nat) : Nat → Path → List Path
  | 0, p => [p]
  | n + 1, p =>
    p :: (es.filter fun e => decide (e.src = p.dst) && !p.seen.contains e.dst).flatMap fun e =>
      match pts.find? fun t => decide (ptFacet t = p.dst) && decide (ptIq t = p.dstq) && decide (ptOq t = e.srcq) with
      | none => []
      | some t =>
        extend es pts n
          ⟨e.dst, e.dstq, p.first, p.elems + 1 + e.elems, p.cap + ceilDiv (ptHold t) (max 1 p.fppIn) + e.cap,
           p.dep + ptStore t / max 1 p.fppIn + e.dep, e.fppIn, e.dst :: p.seen⟩

/-- Every path from a facet. -/
def pathsFrom (es : List Edge) (pts : List Nat) (f : Nat) : List Path :=
  (es.filter fun e => decide (e.src = f)).flatMap fun e =>
    extend es pts es.length ⟨e.dst, e.dstq, e.first, e.elems, e.cap, e.dep, e.fppIn, [e.dst, f]⟩

/-- R99 on two paths of one fork and join: the short one is deep enough for the long one. -/
def pairDeep (a b : Path) : Bool :=
  let aShort := decide (a.elems < b.elems) || (decide (a.elems = b.elems) && (decide (a.cap < b.cap) ||
    (decide (a.cap = b.cap) && decide (a.first < b.first))))
  if aShort then decide (b.cap ≤ a.dep) else decide (a.cap ≤ b.dep)

/-- Check RECONVERGENCE (R99). -/
def reconverges (es : List Edge) (pts : List Nat) : Bool :=
  ((es.map Edge.src).eraseDups).all fun f =>
    let ps := pathsFrom es pts f
    ps.all fun a => ps.all fun b => decide (a.dst ≠ b.dst) || decide (a.first = b.first) || pairDeep a b

/-- Does a facet write its queue oq before it first reads its queue iq in an iteration (R100)? -/
def writesFirst (p : Prog) (iq oq : Nat) : Bool :=
  let is := p.walk.issues
  let r := is.findIdx fun i => readsIq p iq i.2
  let w := is.findIdx fun i => writesOq oq i.2
  decide (w < is.length) && decide (w < r)

/-- The cycles through facet f as lists of edges, each met once. -/
def cyclesFrom (es : List Edge) (f : Nat) : Nat → List Nat → Nat → List Edge → List (List Edge)
  | 0, _, _, _ => []
  | n + 1, seen, at_, acc =>
    (es.filter fun e => decide (e.src = at_)).flatMap fun e =>
      if e.dst = f then [(e :: acc).reverse]
      else if seen.contains e.dst then [] else cyclesFrom es f n (e.dst :: seen) e.dst (e :: acc)

/-- Check CYCLE (R100) on one cycle. -/
def cycleOk (progs : List Prog) (pts : List Nat) (c : List Edge) : Bool :=
  let next := c.drop 1 ++ c.take 1
  let pairs := List.zip c next
  let stores : List Nat := pairs.map fun p =>
    match pts.find? fun t => decide (ptFacet t = p.1.dst) && decide (ptIq t = p.1.dstq) && decide (ptOq t = p.2.srcq) with
    | some t => ptStore t / max 1 p.1.fppIn
    | none => 0
  (pairs.any fun p => writesFirst (progs.getD p.1.dst Prog.none) p.1.dstq p.2.srcq) &&
    decide (1 ≤ ((c.map Edge.dep ++ stores).foldl (fun (a b : Nat) => a + b) 0))

/-! Windows (Table 3.10), templates (R104), routing records (Table 6.1). -/
def ewWindow (e : Nat) : Nat := bits e 255 128
def ewExpect (e : Nat) : Nat := bits e 127 96
def ewRole (e : Nat) : Nat := bits e 71 64
def ewWin (e : Nat) : Nat := bits e 51 48
def ewFacet (e : Nat) : Nat := bits e 47 32
def ptlNum (t : Nat) : Nat := bits t 255 240
def ptlKind (t : Nat) : Nat := bits t 239 232
def ptlCount (t : Nat) : Nat := bits t 231 216
def ptlFirst (t : Nat) : Nat := bits t 215 200
def ptlFill (t : Nat) : Nat := bits t 199 192
def ptlOffset (t : Nat) : Nat := bits t 191 128
def ptlBase (t : Nat) : Nat := bits t 48 0
def rrLayer (r : Nat) : Nat := bits r 255 248
def rrCap (r : Nat) : Nat := bits r 239 224
def rrE (r : Nat) : Nat := bits r 223 216
def rrEpm (r : Nat) : Nat := bits r 215 208
def rrTopk (r : Nat) : Nat := bits r 207 200
def rrRouter (r : Nat) : Nat := bits r 199 184
def rrDispatch (r : Nat) : Nat := bits r 183 168
def rrReturn (r : Nat) : Nat := bits r 167 152
def rrCntctr (r : Nat) : Nat := bits r 151 139
def rrPlanctr (r : Nat) : Nat := bits r 138 126
def rrRetctr (r : Nat) : Nat := bits r 125 113
def rrCounts (r : Nat) : Nat := bits r 112 94
def rrRq (r : Nat) : Nat := bits r 93 91
def rrPlan (r : Nat) : Nat := bits r 90 72

/-- Entries of n bytes of a section that has no header. -/
def entriesOf (b : List Byte) (n : Nat) : List Nat := (List.range (b.length / n)).map fun i => wordAt b 0 n i

/-- Check WINDOW (R112, R68). -/
def windowsOk (progs : List Prog) (ews : List Nat) : Bool :=
  let total := progs.foldl (fun n p => n + p.windows.length) 0
  let keys := ews.map fun e => ewFacet e * 16 + ewWin e
  decide (ews.length = total) && keys.eraseDups.length == keys.length && ews.all fun e =>
    let p := progs.getD (ewFacet e) Prog.none
    decide (ewFacet e < progs.length) && decide (p.windows[ewWin e]? = some (ewWindow e)) && decide (ewRole e ≤ 3) &&
    (winDiscard (ewWindow e) == decide (ewRole e = 3)) && decide (bits (ewWindow e) 127 96 * 2 ^ winB (ewWindow e) ≤ 2 ^ 95) &&
    (decide (ewRole e ≠ 2) || ews.any fun f => decide (ewFacet f = ewFacet e) && decide (ewRole f = 3))

/-- Check R218 on one routing record. -/
def routingOk (h facets : Nat) (ews : List Nat) (r : Nat) : Bool :=
  let role (k : Nat) : Bool := ews.any fun e => decide (ewFacet e = rrReturn r) && decide (ewRole e = k)
  decide (rrE r = rrEpm r * hSlice h) && decide (2 ≤ rrE r) && (decide (rrTopk r = 1) || decide (rrTopk r = 2)) &&
  decide (rrCap r % 2 = 0) && decide (2 ≤ rrCap r) && decide (rrCap r ≤ 4096) && decide (ceilDiv (hRpg h) (rrCap r) ≤ hRounds h) &&
  decide (rrRouter r < facets) && decide (rrDispatch r < facets) && decide (rrReturn r < facets) && role 2 && role 3 &&
  decide (rrCntctr r ≠ rrPlanctr r) && decide (rrCntctr r ≠ rrRetctr r) && decide (rrPlanctr r ≠ rrRetctr r) &&
  decide (rrCntctr r < 1024) && decide (rrPlanctr r < 1024) && decide (rrRetctr r < 1024) &&
  decide (rrPlan r % 64 = 0) && decide (rrPlan r + 64 ≤ 0x80000) &&
  ews.all fun e => decide (ewFacet e ≠ rrReturn r) || decide (rrPlan r + 64 ≤ winBase (ewWindow e)) ||
    decide (winBase (ewWindow e) + 16 * winLanes (ewWindow e) ≤ rrPlan r)

/-- Check MANIFEST (R108, R218). -/
def manifestOk (h : Nat) (m : List Byte) (progs : List Prog) (maplens cs ews : List Nat) : Bool :=
  let n := progs.length
  let hd := leNat (m.take 64)
  let nc := cs.length
  let body := 64 + 4 * n + 2 * nc
  let base := (body + 63) / 64 * 64
  let nr := bits hd 39 32
  let rs := (List.range nr).map fun i => wordAt m base 32 i
  let layers := rs.map rrLayer
  decide (bits hd 15 0 = n) && decide (bits hd 31 16 = nc) && decide (m.length = base + 32 * nr) &&
  ((List.range n).all fun i =>
    let e := wordAt m 64 4 i
    decide (e % 65536 = (progs.getD i Prog.none).static) && decide (e / 65536 = maplens.getD i 0)) &&
  ((List.range nc).all fun i => decide (wordAt m (64 + 4 * n) 2 i % 128 = popCount 64 (crSlots (cs.getD i 0)))) &&
  (List.zip layers (layers.drop 1)).all (fun p => decide (p.1 < p.2)) && rs.all (routingOk h n ews)

/-- The routing records of a manifest. -/
def manifestRoutes (m : List Byte) (facets circuits : Nat) : List Nat :=
  let base := (64 + 4 * facets + 2 * circuits + 63) / 64 * 64
  (List.range (bits (leNat (m.take 64)) 39 32)).map fun i => wordAt m base 32 i

/-! The Bridle plan (R270). -/

/-- What a leg counts on each port: rank × 16 + port, with TXB, RXB and NSLOT; members and entries are the slice's device numbers and route
entries. -/
def legLoads (tree : List TreeEntry) (members entries : List Nat) (l : Nat) : List (Nat × Nat × Nat × Nat) :=
  if lrKind l = 1 then
    (List.range tree.length).flatMap fun r =>
      let outs := (legPorts tree r 1 (lrSrc l) (lrSrcPort l)).map fun p => (r * 16 + p, 0, 0, lrSlots l)
      if r = lrSrc l then (r * 16 + lrSrcPort l, lrTxb l, 0, 0) :: outs
      else match toward tree r (tree.length + 1) (lrSrc l) with
        | some p => (r * 16 + p, 0, lrRxb l, 0) :: outs
        | none => outs
  else
    let e := (entries.find? fun e => decide (reLeg e = lrLeg l)).getD 0
    (lrSrc l * 16 + lrSrcPort l, lrTxb l, 0, lrSlots l) :: (lrDst l * 16 + lrDstPort l, 0, lrRxb l, 0) ::
      ((legHops members l e).drop 1).filterMap fun h =>
        (members.findIdx? fun n => decide (n = h.dev)).map fun r => (r * 16 + h.at_.outPort, 0, 0, lrSlots l)

/-- Check BRIDLE_PLAN (R270); lanes is the profile's, if it sets one. -/
def bridleOk (h : Nat) (sec : List Byte) (cs : List Nat) (tree : List TreeEntry) (members entries : List Nat) (lanes : Option Nat) : Bool :=
  let legs := legRecords sec
  let pl := planLanes sec
  let nums := legs.map lrLeg
  let loads := legs.flatMap (legLoads tree members entries)
  let keys := (loads.map Prod.fst).eraseDups
  let sum (k : Nat) (f : Nat × Nat × Nat → Nat) : Nat := (loads.filter fun l => decide (l.1 = k)).foldl (fun n l => n + f l.2) 0
  decide (1 ≤ legs.length) && decide (legs.length ≤ 4096) && decide (pl ≠ 0) &&
  (match lanes with | some n => decide (pl ≤ n) | none => true) &&
  (List.zip nums (nums.drop 1)).all (fun p => decide (p.1 < p.2)) &&
  (legs.all fun l =>
    let multi := decide (lrKind l = 1)
    decide (lrKind l ≤ 2) && decide (lrSrc l < hSlice h) && (if multi then decide (lrDst l = 0xFFFF) else decide (lrDst l < hSlice h)) &&
    (match cs[lrSrcCirc l]? with | some r => decide (crDst r = 0xFFFF) && decide (crDstq r = lrSrcPort l) | none => false) &&
    (multi || (match cs[lrDstCirc l]? with | some r => decide (crSrc r = 0xFFFF) && decide (crSrcq r = lrDstPort l) | none => false)) &&
    decide (1 ≤ lrSlots l) && decide (lrSlots l ≤ 63) && decide (1 ≤ lrRxb l) &&
    decide (lrFpp l ≤ lrSlots l * Config.framesPerSlot pl * 3 * lrPeriod l) &&
    decide (lrCapp l = ceilDiv (lrTxb l + lrRxb l) (max 1 (lrFpp l)))) &&
  keys.all fun k => decide (sum k (fun v => v.1) ≤ 8192) && decide (sum k (fun v => v.2.1) ≤ 8192) && decide (sum k (fun v => v.2.2) ≤ 63)

end Sys2Proof.Machine
end

