-- ==== Sys2Proof/Machine/Loader.lean ====
section
/-!
DEFINITION. The loader (R110 to R115, Table 3.11): the checks in their order, relocation, the shadow copies.
-/

namespace Sys2Proof.Machine

/-- Check FORMAT (Table 3.11, R106, R107, R159). -/
def formatOk (img : List Byte) (h : Nat) : Bool :=
  let n := hSections h
  let ss := imageSects img h
  let facets := 128 * hColGroups h
  let perFacet := ss.filter fun s => decide (s.typ = 1) || decide (s.typ = 2)
  let keys := perFacet.map fun s => s.typ * 65536 + s.target
  let spans := (128, 64 * n) :: ss.map fun s => (s.off, s.len)
  decide (bits h 31 0 = 0x59504E43) && decide (bits h 47 32 = 1) && decide (bits h 63 48 = 128) && decide (hImgLen h = img.length) &&
  decide (img.length ≤ 2 ^ 26) && decide (1 ≤ n) && decide (n ≤ 4096) && decide (128 + 64 * n + 128 ≤ img.length) &&
  ss.all (fun s => decide (1 ≤ s.typ) && decide (s.typ ≤ 8) && decide (s.off % 64 = 0) && decide (s.off + s.len + 128 ≤ img.length)) &&
  ((List.range spans.length).all fun i => (List.range i).all fun k =>
    let a := spans.getD i (0, 0)
    let b := spans.getD k (0, 0)
    decide (a.1 + a.2 ≤ b.1) || decide (b.1 + b.2 ≤ a.1)) &&
  perFacet.all (fun s => decide (s.target < facets)) && keys.eraseDups.length == keys.length && decide (perFacet.length = 2 * facets) &&
  (ss.all fun s => decide (s.typ ≠ 1) || progShape (s.bytes img)) && (ss.all fun s => decide (s.typ ≠ 2) || decide (s.len = 512)) &&
  decide ((ss.filter fun s => decide (s.typ = 7)).length = 1) &&
  (ss.all fun s => decide (s.typ ≠ 4) || (decide (leNat ((img.drop s.off).take 2) ≠ 0) && decide (s.len = 64 + 64 * (leNat ((img.drop s.off).take 2)))))

/-- Is a signer on a compartment's list and active (R360)? -/
def signerOk (list signer : List Byte) : Bool :=
  (List.range (list.length / 40)).any fun i =>
    decide ((list.drop (40 * i)).take 32 = signer) && decide (list.getD (40 * i + 32) 0 = 1)

/-- The lowest run of free column groups that crosses the Keel bridge where KEEL says (R110). -/
def placeRun (free : List Nat) (n keel : Nat) : Option (List Nat) :=
  ((List.range 8).find? fun g =>
    (List.range n).all (fun i => free.contains (g + i)) &&
    (if keel = 0xFF then decide (g + n ≤ 4) || decide (4 ≤ g)
     else decide (g < 4) && decide (4 < g + n) && decide (16 - 4 * g = keel))).map fun g => (List.range n).map fun i => g + i

/-- A local address of an image as an address in the compartment's ranges (R111): facets by the placement, tier units in the order
in which the compartment owns them; none where it owns no such unit. -/
def Dev.relocate (d : Dev) (c : Nat) (gs : List Nat) (a : Nat) : Option Nat :=
  match regionOf a with
  | .facet n => if n < 128 * gs.length then some (physFacet gs n * 0x80000 + a % 0x80000) else none
  | .gddr n => (((List.range 16).filter fun u => decide (d.ownerBit 3 u = some c))[n]?).map fun u =>
      workBase + u * 0x100000000 + (a - workBase) % 0x100000000
  | .lp n => (((List.range 8).filter fun u => decide (d.ownerBit 4 u = some c))[n]?).map fun u =>
      restBase + u * 0x1800000000 + (a - restBase) % 0x1800000000
  | _ => none

/-- Replace bits [lo + n - 1 : lo] of a word. -/
def putBits (w lo n v : Nat) : Nat := w - bits w (lo + n - 1) lo * 2 ^ lo + v % 2 ^ n * 2 ^ lo

/-- An image descriptor after relocation (R111): its local addresses, its slot where it stays on this device, its counters. -/
def Dev.relocDesc (d : Dev) (c : Nat) (gs : List Nat) (w : Nat) : Option Nat :=
  let own := d.ownSlot % 8 * 2 ^ 49
  let far := decide (sdClass w = 2)
  let addr (a : Nat) (listed : Bool) : Option Nat :=
    if listed then some a
    else (d.relocate c gs (localOf a)).map fun b => if far then slotOf a * 2 ^ 49 + b else own + b
  match addr (sdSrc w) (sdPlist w && !sdPlside w), addr (sdDst w) (sdPlist w && sdPlside w) with
  | some s, some t =>
    let w := putBits (putBits w 460 52 s) 408 52 t
    let w := putBits (putBits (putBits w 141 13 (syncOf c (sdSync w))) 128 13 (syncOf c (sdDsync w))) 94 13 (syncOf c (sdWaitCtr w))
    some (putBits w 58 3 c)
  | _, _ => none

/-- Check DESCRIPTOR on one relocated descriptor (R159, R161): every address of its walk on this device lies in the compartment's ranges; p is the
job's page size. -/
def Dev.descOk (d : Dev) (c p w : Nat) : Bool :=
  let own := d.ownSlot
  let frame := 128 + p
  let srcN := if sdCodec w = 0 then 64 else if sdFmt w = 14 then frame else 8
  let dstN := if sdCodec w = 0 then 64 else if sdFmt w = 14 then frame else 65536
  let inside (a n : Nat) : Bool := if slotOf a = own then d.owns c (localOf a) n else decide (sdClass w = 2)
  sdKindOk w && decide (sdClass w ≤ 2) && decide (0 < sdTotal w) &&
  (List.range (sdTotal w)).all fun e =>
    let off := (List.range 5).foldl (fun (o : Int) k => o + (sdIdx w e k : Int) * sdS w k) 0
    let dst := if sdCodec w ≠ 0 then addOff (sdDst w) (e * (if sdFmt w = 14 then framePitch p else 65536) : Nat)
      else if sdDcnt w = 0 then addOff (sdDst w) (64 * e : Nat)
      else addOff (sdDst w) ((e / sdDcnt w : Nat) * sdDstr w + (e % sdDcnt w * 64 : Nat))
    ((sdPlist w && !sdPlside w) || inside (addOff (sdSrc w) off) srcN) && ((sdPlist w && sdPlside w) || inside dst dstN)

/-- What a passed image leaves: the column groups, each logical facet's copy, the rest. -/
structure Loaded where
  groups : List Nat
  copies : List Copy
  info : ImageInfo

/-- Stop with a sub-code unless a check holds. -/
def need (ok : Bool) (sub : Nat) : Except Nat Unit := if ok then .ok () else .error sub

/-- A facet program after relocation: the numbers in SWAIT and SSIG become the compartment's (R111). -/
def relocProg (c : Nat) (p : Prog) : Prog :=
  { p with bundles := p.bundles.map fun b =>
      if cOpc (bCop b) = 0x06 ∨ cOpc (bCop b) = 0x07 then putBits b 8 13 (syncOf c (bits (cImm (bCop b)) 12 0)) else b }

/-- The checks of Table 3.11 in order on an image for job j of compartment c. -/
def Dev.checkImage (d : Dev) (c j : Nat) (b : Job) (img : List Byte) (sigOk : Bool) : Except Nat Loaded := do
  let h := leNat (img.take 128)
  need (formatOk img h) 0x01
  let ss := imageSects img h
  let owned := (List.range 8).filter fun g => decide (d.ownerBit 2 g = some c)
  let facets := 128 * hColGroups h
  need (signerOk (d.blob (0x4100 + c) 0x0D) (hSigner h)) 0x02
  need sigOk 0x03
  need (ss.all fun s => digest32 (s.bytes img) == s.digest) 0x04
  need (decide ((d.catalog c).arch = []) || decide ((d.catalog c).arch = hArch h)) 0x05
  need ((hProfiles h).testBit d.profile) 0x06
  need (decide (facets ≤ 128 * owned.length)) 0x07
  let run := placeRun (d.freeGroups c) (hColGroups h) (hKeel h)
  need (run.isSome && decide (1 ≤ hColGroups h)) 0x08
  let gs := run.getD []
  need (decide (hSlice h = b.slice)) 0x09
  need (decide (hTps h ≤ 8192) && decide (hGroups h ≤ 64)) 0x0A
  let secOf (t l : Nat) : List Byte :=
    match ss.find? fun s => decide (s.typ = t) && decide (s.target = l) with | some s => s.bytes img | none => []
  let progs := (List.range facets).map fun l => readProg (secOf 1 l)
  let maplens := (List.range facets).map fun l => phMaplen (secOf 1 l)
  let qp := sectOf img ss 3
  let cs := planCircuits qp
  let runs := (List.range facets).map fun l =>
    (progs.getD l Prog.none).walks (loaderRuns ((cs.filter fun r => decide (crSrc r = l)).map crPeriod))
  let pts := planPasses qp
  let ews := entriesOf (sectOf img ss 6) 32
  let rawDescs := (let sd := sectOf img ss 4; (List.range (if sd = [] then 0 else leNat (sd.take 2))).map fun i => wordAt sd 64 64 i)
  let tls := entriesOf (sectOf img ss 5) 32
  let bsec := sectOf img ss 8
  let legs := legRecords bsec
  let tree := match tget d.routes j with | some r => r.tree | none => []
  let entries := match tget d.routes j with | some r => r.entries | none => []
  need (progs.all fun p => p.bundles.all bundleOk && p.portMap.all fun q => decide (q ≤ 4)) 0x0B
  need ((List.range facets).all fun l => let p := progs.getD l Prog.none
    p.tiles.all (tileOk (hShapes h)) && chainOk none ((runs.getD l []).flatMap fun w => w.tiles p)) 0x0C
  need ((runs.all fun ws => ws.all fun w => !w.loaded) && (cs.all fun r => decide (crSrc r = 0xFFFF) ||
    decide (flitsTo (crSrcq r) ((progs.getD (crSrc r) Prog.none).walks (crPeriod r)) = crFpp r))) 0x0D
  need ((List.range facets).all fun l => (runs.getD l []).all fun w =>
    w.ended && decide ((progs.getD l Prog.none).static = w.cycles) && decide (maplens.getD l 0 = ceilDiv w.cycles 4) &&
    decide (w.cycles ≤ 1408)) 0x0E
  need ((List.range facets).all fun l => (runs.getD l []).all fun w => w.issues.all (portOk (progs.getD l Prog.none))) 0x0F
  need (progs.all fun p => p.tiles.all tileFits && p.windows.all windowFits) 0x10
  let descs := rawDescs.filterMap (d.relocDesc c gs)
  need (decide (descs.length = rawDescs.length) && descs.all (d.descOk c b.pageSize)) 0x11
  need ((rawDescs.all fun w => decide (sdSync w < 1024) && decide (sdDsync w < 1024) && decide (sdWaitCtr w < 1024)) &&
    progs.all fun p => p.bundles.all fun b =>
    !(decide (cOpc (bCop b) = 0x06) || decide (cOpc (bCop b) = 0x07)) || decide (bits (cImm (bCop b)) 12 0 < 1024)) 0x12
  need (progs.all fun p => decide (p.static ≤ Config.cyclesPerBeat d.profile)) 0x13
  need (cs.all (routeOk gs) && queuesOk cs) 0x14
  let rs := (List.range cs.length).flatMap fun i => circuitResv gs i (cs.getD i 0)
  need ((List.range facets).all fun l =>
    let t := secOf 2 l
    let mine := rs.filter fun r => decide (r.facet = l)
    (List.range 64).all fun s =>
      let e := wordAt t 0 8 s
      (List.range 5).all fun dir =>
        let f := outField e dir / 32 * 32
        let hits := mine.filter fun r => decide (r.slot = s) && decide (r.dir = dir)
        !(ofEn (outField e dir) && decide (ofSrc (outField e dir) = dir)) &&
          (if hits = [] then !ofEn (outField e dir) else hits.any fun r => decide (r.field = f))) 0x15
  need (rs.all fun a => rs.all fun b =>
    decide (a.circ = b.circ) || decide (a.facet ≠ b.facet) || decide (a.slot ≠ b.slot) || decide (a.dir ≠ b.dir)) 0x16
  need (cs.all fun r => decide (crFpp r ≤ popCount 64 (crSlots r) * Config.flitsPerSlot d.profile * crPeriod r)) 0x17
  let creditOf (l q : Nat) : Nat :=
    match cs.find? fun r => decide (crDst r = l) && decide (crDstq r = q) with | some r => crCredits r | none => 0
  need ((cs.all fun r => decide (1 ≤ crCredits r) && decide (crCredits r ≤ 64) &&
      (decide (crSrc r = 0xFFFF) || (decide (1 ≤ crOqlim r) && decide (crOqlim r ≤ 64)))) &&
    (List.range facets).all fun l => (progs.getD l Prog.none).tiles.all fun w =>
      (!(tcAsrc w && decide (1 < colGroups (tcShape w))) || decide (ceilDiv (aBytes w) 64 ≤ creditOf l (tcAq w))) &&
      (!(tcBsrc w && decide (1 < rowGroups (tcShape w))) || decide (ceilDiv (bBytes w) 64 ≤ creditOf l (tcBq w)))) 0x18
  need (windowsOk progs ews) 0x19
  let es := planEdges cs legs
  need (reconverges es pts) 0x1A
  need ((List.range facets).all fun f => (cyclesFrom es f (es.length + 1) [f] f []).all (cycleOk progs pts)) 0x1B
  let tls' := tls.map fun t => (t, d.relocate c gs (ptlBase t))
  need ((tls'.all fun p =>
      let t := p.1
      decide (ptlKind t ≤ 2) && decide (1 ≤ ptlCount t) && decide (ptlCount t ≤ 4096) && (decide (ptlKind t ≠ 0) || decide (ptlCount t ≤ 64)) &&
      decide (ptlFill t < 16) && decide (ptlFirst t < rawDescs.length) &&
      (match p.2 with
       | some a => (match regionOf a with | .gddr _ => d.owns c a (16 * ptlCount t) | _ => false)
       | none => false)) &&
    (tls.map ptlNum).eraseDups.length == tls.length &&
    rawDescs.all fun w => !sdPlist w || tls.any fun t => decide (ptlNum t = sdPlnum w)) 0x1C
  need (manifestOk h (sectOf img ss 7) progs maplens cs ews) 0x1D
  need (decide (b.slice ≤ 1 ∧ bsec = []) || bridleOk h bsec cs tree b.members entries (Config.profileLanes d.profile)) 0x1E
  let copies := (List.range facets).map fun l =>
    let outs := (List.range cs.length).filter fun i => decide (crSrc (cs.getD i 0) = l)
    let ins := (List.range cs.length).filter fun i => decide (crDst (cs.getD i 0) = l)
    ({ valid := true
       prog := relocProg c (progs.getD l Prog.none)
       slots := (List.range 64).map fun s => wordAt (secOf 2 l) 0 8 s
       oq := outs.foldl (fun t i => let r := cs.getD i 0; tset t (crSrcq r) ⟨i, crCredits r, crOqlim r, crStream r⟩) []
       iq := ins.foldl (fun t i =>
         let r := cs.getD i 0
         tset t (crDstq r) ⟨i, decide (crSrc r = 0xFFFF), if crSrc r = 0xFFFF then crSrcq r else physFacet gs (crSrc r), crSrcq r⟩) [] } : Copy)
  return { groups := gs, copies := copies
           info := { digest := digest32 (img.take (128 + 64 * hSections h)), header := h, group0 := (gs.head?).getD 0, circuits := cs,
                     descs := descs, templates := tls'.map fun p => putBits p.1 0 49 (p.2.getD 0), windows := ews,
                     routing := manifestRoutes (sectOf img ss 7) facets cs.length, bridle := legs,
                     bridleLanes := planLanes bsec, statics := progs.map Prog.static } }

/-- The fixed fields of a pointer list, filled once from its template (R104): the fields that the fill mask does not select. -/
def Dev.fillFixed (d : Dev) (x : Ctx) (t : Nat) : Dev :=
  let a := ptlBase t
  let f := ptlFill t
  (List.range (ptlCount t)).foldl (fun d i =>
    let old := leNat (x.mem.bytes (a + 16 * i) 16)
    let w := if f.testBit 0 then old else putBits old 0 49 0
    let w := if f.testBit 1 then w else putBits w 91 21 0
    let w := if f.testBit 2 then w else putBits w 84 7 0
    let w := if f.testBit 3 then w else putBits (putBits w 112 16 0) 83 1 0
    d.memOp (.write (a + 16 * i) (leBytes 16 w))) d

/-- LOADER_COMPLETE (R113 to R115, R117, R178, R179): a load while a reconfiguration is staged completes BUSY; the first failed check ends the job IMAGE_REJECTED with its sub-code and leaves the
shadow copies not valid; an image that passes fills the shadow copies of the facets it is placed on. -/
def execLoaderComplete (job : Nat) (sigOk : Bool) (micros : Nat) (s : State) : Host.Outcome State Fault Refusal :=
  onDev s fun x d =>
    match tget d.jobs job, tget d.images job with
    | some b, some img =>
      let c := b.comp
      let k := d.canopyOf c
      if !d.alive || decide (b.st ≠ .loading) || b.passed then d
      else if d.shadowBusy c job then (d.tell job 0 [Config.busy, 0]).refuseJob x job Config.busy 0 false
      else if k.st ≠ .loading then d
      else
        let d := d.setNum (0x2310 + c) 9 micros
        match d.checkImage c job b img sigOk with
        | .error sub =>
          let d := (d.setNum (0x2310 + c) 8 (sub * 65536 + Config.imageRejected)).setCanopy c { k with st := .idle, shadow := ImageInfo.none }
          let d := (d.freeGroups c).foldl (fun d g => (List.range 128).foldl (fun d i =>
            let n := physFacet [g] i
            match tget d.facets n with
            | some f => d.setFacet n (f.setShadow { f.shadow with valid := false })
            | none => d) d) d
          (d.tell job 0 [Config.imageRejected, sub]).refuseJob x job Config.imageRejected sub false
        | .ok l =>
          let d := (List.range l.copies.length).foldl (fun d i =>
            d.adjFacet (physFacet l.groups i) fun f => f.setShadow (l.copies.getD i Copy.none)) d
          let d := l.info.templates.foldl (fun d t => d.fillFixed x t) d
          let cat := d.catalog c
          let d := if cat.arch = [] then d.setCatalog c { cat with arch := hArch l.info.header } else d
          let d := d.setNum (0x2310 + c) 8 0
          let d := d.setCanopy c { k with st := .shadowValid, shadow := l.info }
          let d := d.setJob job { b with passed := true, groups := l.groups }
          (d.tell job 0 [Config.ok, 0]).loadedCheck x job
    | _, _ => d

end Sys2Proof.Machine
end

