-- ==== Sys2Proof/Machine/Mgmt.lean ====
section
/-!
DEFINITION. What the management plane's commands share (chapters 10 and 11): replies and the journal records they wait for, the end
of a commit group, sessions and permits and their ends.
-/

namespace Sys2Proof.Machine

/-! Replies (Table 10.5, R311, R325, R334). -/

/-- The bytes of a reply: header, body, TAG. -/
def Reply.wire (r : Reply) : List Byte :=
  let fl := 1 + (if r.ndur then 4 else 0)
  let h := leBytes 1 1 ++ leBytes 1 r.op ++ leBytes 1 fl ++ leBytes 7 0 ++ leBytes 2 r.detail ++ leBytes 2 r.status ++
    leBytes 2 r.body.length ++ leBytes 4 r.group ++ leBytes 4 r.session ++ leBytes 8 r.seq
  h ++ r.body ++ (if r.tagged then leBytes 16 (Config.kmac r.session 9 (h ++ r.body)) else leBytes 16 0)

/-- A reply leaves: on the port, or into the reply buffer of its DICT command, whose completion carries the reply's status and length
(R311) and for a commit its commit-point beat (R325). -/
def Dev.sendReply (d : Dev) (x : Ctx) (r : Reply) : Dev :=
  let d := match tget d.sessions r.session with
    | some s =>
      let reps := s.replies.map fun (p : Nat × Option Reply) => if p.1 = r.seq then (p.1, some r) else p
      { d with sessions := tset d.sessions r.session { s with replies := reps } }
    | none => d
  match r.via with
  | .port _ => (d.emit (.reply r)).count 0x1200 9 1
  | .ring ring tag =>
    match d.cmd ring tag with
    | none => d
    | some c =>
      let n := 48 + r.body.length
      if efield c.entry 32 4 < n then d.answerV x ring tag Config.range 0 0 (n * 2 ^ 28)
      else
        let done := (decide (r.op = 0x20) || decide (r.op = 0x30)) && decide (r.status = Config.ok)
        let beat := if done then leNat ((r.body.drop 8).take 8) else x.time.beat
        (d.hostWrite (efield c.entry 24 8) r.wire).post
          ⟨tag, 0, beat, n * 2 ^ 28, eJob c.entry, 0, eOpcode c.entry, ring, 0, r.status, r.detail, true⟩

/-! Sessions and permits (R330 to R335, R349 to R351). -/

/-- A session closes (R335): its Open groups are aborted, its Granted groups go on without a reply. -/
def Dev.closeSession (d : Dev) (x : Ctx) (n : Nat) : Dev :=
  match tget d.sessions n with
  | none => d
  | some s =>
    let d := { d with groups := tmap d.groups fun _ g => if g.session = n then { g with asker := none } else g }
    let d := (d.groups.filter fun p => decide (p.2.session = n) && decide (p.2.st = .opened)).foldl
      (fun d p => d.finishGroup x p.1 .aborted Config.aborted 0) d
    { d with sessions := terase d.sessions n }.audit x n s.role 2 Config.ok 0 0 (viaCode s.via) 0 0

/-- A permit ends (R350): the maker sessions it admitted close, gust armed under it is disarmed at the next beat boundary. -/
def Dev.endPermit (d : Dev) (x : Ctx) (n : Nat) : Dev :=
  match tget d.permits n with
  | none => d
  | some p =>
    let d := { d with permits := terase d.permits n }
    let d := (d.sessions.filter fun s => decide (s.2.permit = some n)).foldl (fun (d : Dev) s => d.closeSession x s.1) d
    let d : Dev := if d.gust.armed && d.gust.permit == some n then { d with gust := { d.gust with disarmDue := true } } else d
    d.audit x 0 0xFF 8 Config.ok 0x1340 1 0xFF 0 p.kind

/-- PERMIT_EXPIRY (R350): the Round at which a permit's lifetime runs out has begun. -/
def execPermitExpiry (permit : Nat) (s : State) : Host.Outcome State Fault Refusal :=
  onDev s fun x d =>
    match tget d.permits permit with
    | none => d
    | some p => if d.boot.porstLow || decide (x.round < p.endRound) then d else d.endPermit x permit

end Sys2Proof.Machine
end

