-- ==== Sys2Proof/Machine/Compart.lean ====
section
/-!
DEFINITION. Compartments, keys, life cycle and tamper (chapter 11), and what SYSRST_N does to everything outside the always-on domain
(R429 to R431, Table 14.1), which a life-cycle transition does too (R355).
-/

namespace Sys2Proof.Machine

/-- The facets of the column groups in a mask. -/
def facetsOf (mask : Nat) : List Nat := (maskBits 8 mask).flatMap fun g => (List.range 128).map fun i => physFacet [g] i

/-- Facets are powered up, every word POISON (R64, R363). -/
def Dev.powerUp (d : Dev) (ns : List Nat) : Dev := ns.foldl (fun d n => (d.setFacet n Facet.reset).memOp (.poisonFacet n)) d

/-- Facets are gated without retention (R372). -/
def Dev.gate (d : Dev) (ns : List Nat) : Dev :=
  ns.foldl (fun d n => (d.setFacet n { Facet.reset with powered := false }).memOp (.poisonFacet n)) d

/-- The fused counts on which the sealing key depends (R357). -/
def Fuses.sealEpoch (f : Fuses) : Nat := f.transitions * 64 + f.tamper
/-- Sealing is disabled once all 32 tamper fuses are used (R356). -/
def Fuses.sealOff (f : Fuses) : Bool := decide (32 ≤ f.tamper)

/-- Change the ballast. -/
def Dev.adjBallast (d : Dev) (f : Ballast → Ballast) : Dev := { d with ballast := f d.ballast }

/-! Key slots (R365, Table 11.9). -/

/-- The slots of a compartment, lowest first. -/
def Dev.slotsOf (d : Dev) (c : Nat) : List Nat := maskBits 64 (d.num (0x4100 + c) 6)

/-- The lowest slot becomes the wrap slot, the next the page slot, the rest weight-set slots; a retired one stays retired (Table 11.9). -/
def Dev.fillSlots (d : Dev) (c page kw : Nat) : Dev :=
  let ss := d.slotsOf c
  { d with keys := (List.range ss.length).foldl (fun t i =>
      let s := ss.getD i 0
      if (tget t s).any fun k => decide (k.kind = 5) then t
      else tset t s (if i = 0 then ⟨1, 0, kw⟩ else if i = 1 then ⟨2, 0, page⟩ else ⟨3, 0, 0⟩)) d.keys }

/-- The 56 bytes of a compartment's public key. -/
def pubBytes (k : Nat) : List Byte := (List.range 56).map fun i => Config.publicKey k i

/-- The identity of KW: what compartment key, device, compartment and owner key give (R366, assumption 12). -/
def kwOf (priv number c : Nat) (owner : List Byte) : Nat := Config.kmac priv 3 (leBytes 8 number ++ leBytes 1 c ++ owner)

/-- Show KW's check value and state (R366, R367). -/
def Dev.showKw (d : Dev) (x : Ctx) (c kw st : Nat) : Dev :=
  (d.setNum (0x4100 + c) 0x0B (if st = 1 ∨ st = 3 then Config.kmac kw 1 (leBytes 8 x.fuse.number) else 0)).setNum (0x4100 + c) 0x0C st

/-- Seal the private key and KW of a compartment, or keep them held where sealing is disabled (R359, R366). -/
def Dev.sealComp (d : Dev) (x : Ctx) (c : Nat) : Dev :=
  let k := d.comp c
  if x.fuse.sealOff then d.setComp c { k with sealedKw := false }
  else (d.setComp c { k with sealedKw := true, sealEpoch := x.fuse.sealEpoch }).journal' x 0
    (.sealed c (k.kw.getD 0) k.priv x.fuse.sealEpoch)

/-- A compartment is created (R363). -/
def Dev.createComp (d : Dev) (x : Ctx) (c : Nat) : Dev :=
  let (priv, d) := d.draw
  let (page, d) := d.draw
  let d := (d.setJ x (0x4100 + c) 1 (.num 1)).setJ x (0x4100 + c) 9 (.bytes (pubBytes priv))
  let d := (d.powerUp (facetsOf (d.num (0x4100 + c) 2))).fillSlots c page 0
  let d := { d with sync := d.sync.filter fun p => decide (p.1 / 1024 ≠ c), catalogs := terase d.catalogs c,
                    canopy := terase d.canopy c, spill := terase d.spill c }
  ((d.setComp c { Comp.reset with priv := priv }).sealComp x c).showKw x c 0 0

/-- The key owner is set (R366). -/
def Dev.setOwner (d : Dev) (x : Ctx) (c : Nat) : Dev :=
  let k := d.comp c
  let kw := kwOf k.priv x.fuse.number c (d.blob (0x4100 + c) 0x0A)
  let d := d.setComp c { k with kw := some kw }
  let d := match d.slotsOf c with
    | s :: _ => { d with keys := tset d.keys s ⟨1, 0, kw⟩ }
    | [] => d
  (d.sealComp x c).showKw x c kw (if x.fuse.sealOff then 3 else 1)

/-- Key-store entries over all compartments (R368). -/
def Dev.storeCount (d : Dev) : Nat := d.comps.foldl (fun n p => n + p.2.store.length) 0

/-- A wrapped key record opens into the key store (R368). -/
def Dev.loadKey (d : Dev) (c : Nat) (rec_ : List Byte) : Dev :=
  let k := d.comp c
  d.setComp c { k with store := tset k.store (leNat (rec_.take 8)) ⟨Config.kmac (k.kw.getD 0) 4 (rec_.take 68), false⟩ }

/-- A wrapped link secret opens (R370). -/
def Dev.loadSecret (d : Dev) (c : Nat) (rec_ : List Byte) : Dev :=
  let k := d.comp c
  d.setComp c { k with linkSecret := some (Config.kmac (k.kw.getD 0) 5 (rec_.take 68)) }

/-- Does a lift use a WSID now? -/
def Dev.liftUses (d : Dev) (c wsid : Nat) : Bool :=
  (d.gens c).any fun r => decide (r.2.2.role ≠ 0) && decide (r.2.2.res = 1) && decide (r.2.2.wsid = wsid)

/-- A tombstone stays until no catalog record names its WSID (R371). -/
def Dev.tidyTombs (d : Dev) (c : Nat) : Dev :=
  let k := d.comp c
  if k.store.any fun p => p.2.tomb then
    d.setComp c { k with store := tfilter k.store fun w s =>
      !s.tomb || (d.gens c).any fun r => decide (r.2.2.role ≠ 0) && decide (r.2.2.wsid = w) }
  else d

/-- KEY_RETIRE at its commit point (R371). -/
def Dev.retireKeys (d : Dev) (x : Ctx) (c scope wsid : Nat) : Dev :=
  let k := d.comp c
  let hit (s : KeySlot) : Bool := if scope = 0 then decide (s.kind = 3) && decide (s.wsid = wsid) && decide (wsid ≠ 0) else
    decide (scope = 2) && decide (s.kind ≠ 0)
  let keys := (d.slotsOf c).foldl (fun t n => match tget t n with | some s => if hit s then tset t n ⟨5, 0, 0⟩ else t | none => t) d.keys
  let store := tmap k.store fun w s => if scope = 2 ∨ (scope = 0 ∧ w = wsid) then ⟨0, true⟩ else s
  let d := { d with keys := keys }.setComp c { k with store := store, linkSecret := if scope = 0 then k.linkSecret else none }
  (d.tidyTombs c).audit x 0 0xFF 9 Config.ok 4 0 0xFF 0 (c + scope * 256 + wsid * 2 ^ 64)

/-! Teardown (R372 to R375). -/

/-- The peers of a compartment's jobs that are not Ended, ascending, once each (R375). -/
def Dev.peersOf (d : Dev) (x : Ctx) (c : Nat) : List Nat :=
  ((d.jobs.filter fun p => decide (p.2.comp = c) && decide (p.2.st ≠ .ended)).flatMap fun p => p.2.members).foldl
    (fun l n => if n = x.fuse.number then l else sinsert l n) []

/-- A teardown step is journalled and audited (Table 11.11, R352). -/
def Dev.tearRecord (d : Dev) (x : Ctx) (c step unit : Nat) : Dev :=
  (d.journal' x 0 (.teardown c step unit)).audit x 0 0xFF 10 Config.ok 3 0 0xFF 0 (c + step * 256 + unit * 65536)

/-- The catalog commands of a compartment that wait complete KEY_RETIRED (R372). -/
def Dev.endCatalogCmds (d : Dev) (x : Ctx) (c : Nat) : Dev :=
  let d' := (d.schanges.filter fun s => decide (s.comp = c)).foldl (fun d s => match s.effect with
    | .load _ _ _ o => d.answerO x o Config.keyRetired
    | .swapCmd _ _ o => d.answerO x o Config.keyRetired
    | .evict _ _ _ o => d.answerO x o Config.keyRetired
    | _ => d) d
  { d' with schanges := d'.schanges.filter fun s => decide (s.comp ≠ c) }

/-- Every live winch descriptor tagged with a compartment is aborted; accesses in flight still report (R372, R373). -/
def Dev.abortTagged (d : Dev) (c : Nat) : Dev :=
  d.engines.foldl (fun d g =>
    (g.2.recs.filter fun r => decide (sdComp r.desc = c) && r.st.open).foldl (fun (d : Dev) (r : Rec) => d.abortRec g.1 r.num false) d) d

/-- The teardown commit point: steps 1 to 4 of R372 on one beat boundary. -/
def Dev.teardown (d : Dev) (x : Ctx) (c : Nat) : Dev :=
  let peers := d.peersOf x c
  let (n, d) := d.draw
  -- 1: key slots and key store
  let d := { d with keys := (d.slotsOf c).foldl (fun t s => tset t s ⟨5, 0, 0⟩) d.keys }
  let d := d.setComp c { d.comp c with store := [], linkSecret := none, kw := none }
  -- 2: jobs, catalog commands, descriptors
  let jobs := d.jobsWhere fun b => decide (b.comp = c) && decide (b.st ≠ .ended)
  let d := jobs.foldl (fun d j => d.killJob x j Config.keyRetired) d
  let d := (d.scans.filter fun p => decide (p.1 = c)).foldl (fun d p => d.answer x p.2.ring p.2.tag Config.keyRetired) d
  let d := { (d.endCatalogCmds x c) with catalogs := terase d.catalogs c, scans := terase d.scans c }
  let d := d.abortTagged c
  -- 3: epoch and Bridle slots
  let d := d.setJ x (0x4100 + c) 8 (.num ((d.num (0x4100 + c) 8 + 1) % 256))
  let d := (d.jobsWhere fun b => decide (b.comp = c)).foldl (fun d j => (d.releaseJob j).adjJob j fun b => { b with regionHeld := false }) d
  -- 4: facets and gondolas
  let d := d.gate (facetsOf (d.num (0x4100 + c) 2))
  let d := { d with canopy := terase d.canopy c, samp := tadj d.samp c fun q => { q with samples := 0, bins := [] } }
  let d := (d.setJ x (0x4100 + c) 1 (.num 2)).setComp c { d.comp c with tearStep := 1, tearBeat := x.time.beat, tearDraw := n }
  let d := d.setJ x (0x4100 + c) 0x11 (.num peers.length)
  let d := d.setJ x (0x4100 + c) 0x12 (.bytes (digest32 (peers.flatMap fun n => leBytes 8 n)))
  (List.range 4).foldl (fun d i => d.tearRecord x c (i + 1) 0) d

/-- Does a board-space request serve a descriptor of a compartment? -/
def Dev.accessOf (d : Dev) (c : Nat) (b : BoardReq) : Bool :=
  match b.user with
  | .engine e n _ => (match d.recOf e n with | some r => decide (sdComp r.desc = c) | none => false)
  | _ => false

/-- Board accesses of aborted descriptors of a compartment that have not been acknowledged. -/
def Dev.openAccesses (d : Dev) (c : Nat) : Nat := (d.board.filter fun b => d.accessOf c b.2).length

/-- TEARDOWN_WAIT_END (R373): every aborted descriptor has reported, or 4,096 beats have passed and each open access counts as
abandoned; scrub starts. -/
def execTeardownWaitEnd (comp : Nat) (s : State) : Host.Outcome State Fault Refusal :=
  onDev s fun x d =>
    let k := d.comp comp
    let open_ := d.openAccesses comp
    if !d.alive || decide (d.compState comp ≠ 2) || decide (k.tearStep ≠ 1) || decide (0 < open_ ∧ x.time.beat < k.tearBeat + 4096) then d
    else
      let d := if open_ = 0 then d else d.count 0x4180 4 open_
      let drop (r : Rec) : Rec :=
        if sdComp r.desc = comp then { r with remote := [], st := if r.st.live then .aborted else r.st } else r
      let d : Dev := { d with
        board := tfilter d.board fun _ b => !d.accessOf comp b
        engines := tmap d.engines fun _ g => { g with recs := g.recs.map drop } }
      (d.setComp comp { k with tearStep := 2, tearBeat := x.time.beat }).tearRecord x comp 5 0

/-- A quarantined compartment becomes Free: its number may be used again (R375). -/
def Dev.freeComp (d : Dev) (x : Ctx) (c : Nat) : Dev :=
  let d := (d.setJ x (0x4100 + c) 1 (.num 0)).setJ x (0x4100 + c) 7 (.num 0)
  let d := (d.setJ x (0x4100 + c) 9 (.bytes [])).setJ x (0x4100 + c) 0x0A (.bytes [])
  ((d.setNum (0x4100 + c) 0x0B 0).setNum (0x4100 + c) 0x0C 0).setComp c Comp.reset

/-- SCRUB_DONE (R374, R375): every unit of the compartment holds the pattern; units that failed to compare are out of service; the
compartment is Quarantined, and Free at once without peers. -/
def execScrubDone (comp badDevices badPackages : Nat) (s : State) : Host.Outcome State Fault Refusal :=
  onDev s fun x d =>
    let k := d.comp comp
    if !d.alive || decide (d.compState comp ≠ 2) || decide (k.tearStep ≠ 2) then d
    else
      let gs := maskBits 16 (d.num (0x4100 + comp) 3)
      let ps := maskBits 8 (d.num (0x4100 + comp) 4)
      let badG := gs.filter fun g => badDevices.testBit g
      let badP := ps.filter fun p => badPackages.testBit p
      let bad := badG.length + badP.length
      let d := gs.foldl (fun d g => (d.memOp (.scrub g k.tearDraw)).tearRecord x comp 6 g) d
      let d := ps.foldl (fun d p => (d.memOp (.scrub (16 + p) k.tearDraw)).tearRecord x comp 6 (16 + p)) d
      let d : Dev := { d with outUnits := (badG ++ badP.map (· + 16)).foldl sinsert d.outUnits }
      let d := badG.foldl (fun d g => d.setNum (0x4010 + g) 5 3) d
      let d := badP.foldl (fun d p => (d.setNum (0x4020 + p) 5 3).alert 1) d
      let d := d.setNum 0x4000 2 (d.num 0x4000 2 - 0x1800000000 * badP.length)
      let d := d.setJ x 0x4180 1 (.num (satAdd (2 ^ 32 - 1) (d.num 0x4180 1) 1))
      let d := if bad = 0 then d else d.setJ x 0x4180 2 (.num (satAdd (2 ^ 32 - 1) (d.num 0x4180 2) bad))
      let d := d.setJ x 0x4180 3 (.num (msOf (x.time.beat - k.tearBeat)))
      let d := d.setJ x (0x4100 + comp) 0x14 (.num (if bad = 0 then Config.ok else Config.poison))
      let d := { d with keys := (d.slotsOf comp).foldl terase d.keys }
      let d := (d.setJ x (0x4100 + comp) 1 (.num 3)).setComp comp { k with tearStep := 0, kw := none }
      let d : Dev := d.tearRecord x comp 7 0
      if d.num (0x4100 + comp) 0x11 = 0 then d.freeComp x comp else d

/-! The warm reset (R429 to R431, Table 14.1). -/

/-- Units of the tiers go from one state to another. -/
def Dev.tierStates (d : Dev) (a b : Nat) : Dev :=
  let d := (List.range 16).foldl (fun d g => if d.num (0x4010 + g) 5 = a then d.setNum (0x4010 + g) 5 b else d) d
  (List.range 8).foldl (fun d p => if d.num (0x4020 + p) 5 = a then d.setNum (0x4020 + p) 5 b else d) d

/-- Everything outside the always-on domain stops and is lost as the SYSRST_N column says; the tiers go into self-refresh. -/
def Dev.warm (d : Dev) (x : Ctx) : Dev :=
  let d := ((((d.loseJobs.dropRings).wipe x.fuse).disarm).idleLanes).failActionGroups x
  -- what the facets have counted stays in the count of corrected errors, which SYSRST_N keeps (R7)
  let d := d.count 0x1020 4 (d.facets.foldl (fun n f => n + f.2.eccCe) 0)
  let d := { d.dropEngines with
    facets := [], canopy := [], stepDue := [],
    ballast := { d.ballast with moored := .awake, mooredHold := false, emptied := false, exitAsked := false, profChange := none,
                                brakeOn := false, brakeCanopy := false, delayDone := false },
    boot := { d.boot with memDone := false } }
  let d := d.setNum 0x3200 1 0
  ((d.tierStates 1 2).memOp .poisonAll).memOp .markAllGranules

/-- Sealed material of a compartment in the journal, the latest: KW, private key, sealing epoch. -/
def Journal.sealedOf (j : Journal) (c : Nat) : Option (Nat × Nat × Nat) :=
  (j.recs ++ j.queue).foldl (fun a r => match r.pay with
    | .sealed k kw priv e => if k = c then some (kw, priv, e) else a
    | _ => a) (tget j.snapSealed c)

/-- Compartments return to their journalled state (R431): Active ones power up, draw a page key and reopen their keys; one that was
Tearing down goes on with its first unfinished step. -/
def Dev.restoreComps (d : Dev) (x : Ctx) : Dev :=
  (List.range 8).foldl (fun d c =>
    match d.compState c with
    | 1 =>
      let (page, d) := d.draw
      let d := d.powerUp (facetsOf (d.num (0x4100 + c) 2))
      let k := d.comp c
      let owner := decide (d.obj (0x4100 + c) 0x0A ≠ .bytes [])
      let kept := if k.sealedKw then none else k.kw
      let opened := match d.journal.sealedOf c with | some (kw, p, e) => if e = x.fuse.sealEpoch then some (kw, p) else none | none => none
      let kw := if kept.isSome then kept else if owner then opened.map Prod.fst else none
      let priv := match opened with | some (_, p) => p | none => k.priv
      let d := (d.fillSlots c page (kw.getD 0)).setComp c
        { k with kw := kw, priv := priv, store := [], linkSecret := none, sealedKw := opened.isSome && !kept.isSome }
      d.showKw x c (kw.getD 0) (if !owner then 0 else if kept.isSome then 3 else if opened.isSome then 1 else 2)
    | 2 =>
      let k := d.comp c
      { (d.gate (facetsOf (d.num (0x4100 + c) 2))) with keys := (d.slotsOf c).foldl (fun t s => tset t s ⟨5, 0, 0⟩) d.keys }.setComp c
        { k with tearStep := if k.tearStep = 0 then 1 else k.tearStep, tearBeat := x.time.beat }
    | _ => d) d

/-- Coordinates, board number and board slot are set (R265, Table 8.10). -/
def Dev.placementSet (d : Dev) : Bool :=
  decide (d.num 0x2000 1 ≠ 0xFF) && decide (d.num 0x2000 2 ≠ 0xFF) && decide (d.num 0x2000 3 ≠ 0xFF) &&
  decide (d.num 0x2000 4 ≠ 0xFFFF) && decide (d.num 0x2000 5 ≠ 0xFF)

/-- Booting is over where the placement is set (Table 14.2): Placed, and the time to placement is known. -/
def Dev.tryPlace (d : Dev) (x : Ctx) : Dev :=
  if d.state = .booting ∧ d.boot.stage = .done ∧ d.placementSet = true then
    { d with state := .placed }.setNum 0x1420 4 (msOf (x.time.beat - d.boot.replayAt))
  else d

/-- The brake takes hold: winch issue stops now, the canopy is held from the next beat boundary (R390). -/
def Dev.brake (d : Dev) (x : Ctx) : Dev :=
  let d := d.adjBallast fun b => { b with
    brakeOn := true, brakeFrom := if b.brakeOn then b.brakeFrom else x.time.beat, delayDone := false }
  (d.setNum 0x3200 1 1).alert 7

/-- The brake follows the level of BRAKE_N: a device that starts with the pin low is braked (R391). -/
def Dev.brakeLevel (d : Dev) (x : Ctx) : Dev := if d.ballast.brakeLow then d.brake x else d

/-- The restart after SYSRST_N or a life-cycle transition (R355, R435). -/
def Dev.restart (d : Dev) (x : Ctx) (cause : Nat) : Dev :=
  let d := { d with state := .booting, boot := { d.boot with stage := .done, releasedAt := x.time.beat, replayAt := x.time.beat,
                                                             memFrom := none, stopCause := 0 } }
  let d := (d.setNum 0x1420 1 cause).setNum 0x2000 7 Config.planMismatch
  let d := match d.boot.lateRecord with
    | some r => { d with boot := { d.boot with lateRecord := none } }.journal' x 0 (.failStop r)
    | none => d
  ((d.restoreComps x).brakeLevel x).tryPlace x

/-! Life cycle and tamper (R354 to R356). -/

/-- Secrets are wiped for tamper and the device stops (R356). -/
def Dev.tamper (d : Dev) (x : Ctx) (cause : Nat) : Dev :=
  if d.boot.porstLow then d
  else
    let d := ((d.wipe x.fuse).setNum 0x1300 5 cause).audit x 0 0xFF 7 Config.ok 0 0 0xFF 0 cause
    { d with boot := { d.boot with tamperDue := true } }.stop x 7 cause 0 0

/-- TAMPER_N low for 1 µs (R356). -/
def execTamperN (s : State) : Host.Outcome State Fault Refusal := onDev s fun x d => d.tamper x 2

/-- A glitch sensor trips (R356): 0 voltage, 1 clock, 2 temperature. -/
def execGlitchSensor (kind : Nat) (s : State) : Host.Outcome State Fault Refusal :=
  onDev s fun x d => if 2 < kind then d else d.tamper x (3 + kind)

/-- TAMPER_COUNTER_INCREMENT (R356): the fused counter rises within 2 ms of the wipe. -/
def execTamperCounterIncrement (s : State) : Host.Outcome State Fault Refusal :=
  onDev s fun _ d =>
    if d.boot.tamperDue && !d.boot.porstLow then { d with boot := { d.boot with tamperDue := false } }.eff (.fuse .tamper) else d

end Sys2Proof.Machine
end

