-- ==== Sys2Proof/Machine/Power.lean ====
section
/-!
DEFINITION. The ballast (chapter 12): regulators and profile changes, the cap loop and its lease, BRAKE_N, thermal limits, and the
Moored state.
-/

namespace Sys2Proof.Machine

/-- A number as 32 bits of two's complement. -/
def i32 (v : Int) : Nat := (v % (2 ^ 32 : Nat)).toNat

/-! Setpoints (R381 to R383). -/

/-- Put the setpoints of both rails out on AVSBus. -/
def Dev.setRails (d : Dev) (core sram : Nat) : Dev :=
  (((d.setNum 0x3500 2 core).setNum 0x3500 3 sram).emit (.avs 0 core)).emit (.avs 1 sram)

/-- The core setpoint of a profile with the offset in force. -/
def Dev.coreMv (d : Dev) (p : Nat) : Nat := ((Config.vddCore p : Int) + signed 32 (d.num 0x3500 0x0D)).toNat

/-- Both rails at the active profile's setpoints. -/
def Dev.profileRails (d : Dev) : Dev := d.setRails (d.coreMv d.profile) Config.vddSram

/-- Clamp to ±n. -/
def clampTo (n : Int) (v : Int) : Int := max (-n) (min n v)

/-- R383 at a Round boundary: the margins ask for a move; at most 10 mV of it is made, within ±30 mV of the base. -/
def Dev.trimCore (d : Dev) (margin : Int) : Dev :=
  if !d.alive || decide (d.ballast.moored ≠ .awake) || d.ballast.profChange.isSome then d
  else
    let off := clampTo 30 (signed 32 (d.num 0x3500 0x0D) + clampTo 10 margin)
    let d' := d.setNum 0x3500 0x0D (i32 off)
    if d'.num 0x3500 0x0D = d.num 0x3500 0x0D then d else (d'.setNum 0x3500 2 (d'.coreMv d.profile)).emit (.avs 0 (d'.coreMv d.profile))

/-- A profile change commits at a Round boundary (R380): the canopy is held, voltage or clock moves first, GDDR7 and lanes start. -/
def Dev.startProfile (d : Dev) (p : Nat) : Dev :=
  let old := d.profile
  if p = old then d
  else
    let raise := decide (Config.arrayClock old < Config.arrayClock p)
    let want (q : Nat) : Nat := let n := peLanes (d.planEntry q); match Config.profileLanes p with | some m => min m n | none => n
    let ports := (List.range 16).filter fun q => (d.port q).speaks &&
      decide (laneStep (min (want q) (if (d.port q).farLanes = 0 then want q else (d.port q).farLanes)) ≠ (d.port q).lanes)
    let d := d.adjBallast fun b => { b with
      profChange := some ⟨p, raise, false, false, true, decide (Config.gddrRate old = Config.gddrRate p), ports⟩ }
    let d := ports.foldl (fun d q => d.setPort q { d.port q with changing := true }) d
    if raise then (d.setNum 0x3500 2 (d.coreMv p)).emit (.avs 0 (d.coreMv p)) else d

/-- Change the profile change in progress. -/
def Dev.adjProf (d : Dev) (f : ProfChange → ProfChange) : Dev := d.adjBallast fun b => { b with profChange := b.profChange.map f }

/-- VDD_CORE_IN_TOLERANCE (R380): a raised VDD_CORE is in tolerance; the clock relock goes on. -/
def execVddCoreInTolerance (s : State) : Host.Outcome State Fault Refusal :=
  onDev s fun _ d => if d.alive then d.adjProf fun p => if p.raise then { p with vddDone := true } else p else d

/-- CLOCK_RELOCK (R380): the array clock is relocked, after VDD_CORE where the clock rises; where it falls VDD_CORE is lowered now. -/
def execClockRelock (s : State) : Host.Outcome State Fault Refusal :=
  onDev s fun _ d =>
    match d.ballast.profChange with
    | none => d
    | some p =>
      if !d.alive || p.clockDone || (p.raise && !p.vddDone) then d
      else
        let d := d.adjProf fun p => { p with clockDone := true, vddDone := true }
        if p.raise then d else (d.setNum 0x3500 2 (d.coreMv p.profile)).emit (.avs 0 (d.coreMv p.profile))

/-- GDDR7_RETRAINING_DONE (R137): the interfaces run at the new rate. -/
def execGddr7RetrainingDone (s : State) : Host.Outcome State Fault Refusal :=
  onDev s fun _ d =>
    match d.ballast.profChange with
    | none => d
    | some p =>
      if !d.alive || p.gddr then d
      else ((d.adjProf fun p => { p with gddr := true }).setNum 0x4000 3 (Config.gddrRate p.profile)).profTidy

/-! Telemetry and regulator faults (R382). The bits of STATUS_WORD are those of PMBus 1.4 (assumption 60). -/

/-- An output-voltage, output-current or over-temperature fault: VOUT_OV or IOUT_OC, an output-voltage condition without POWER_GOOD, or
a temperature or output condition with the output off. -/
def pmbFault (w : Nat) : Bool :=
  w.testBit 5 || w.testBit 4 || (w.testBit 15 && w.testBit 11) || ((w.testBit 15 || w.testBit 14 || w.testBit 2) && w.testBit 6)

/-- A warning: an output-voltage, output-current or temperature condition that is no fault. -/
def pmbWarn (w : Nat) : Bool := !pmbFault w && (w.testBit 15 || w.testBit 14 || w.testBit 2)

/-- What a STATUS_WORD of each rail leads to. -/
def Dev.pmbStatus (d : Dev) (x : Ctx) (core sram : Nat) : Dev :=
  let d := d.setNum 0x3500 0x0B (sram % 65536 * 65536 + core % 65536)
  if pmbFault core then d.stop x 5 0 0 (core % 65536)
  else if pmbFault sram then d.stop x 5 1 0 (sram % 65536)
  else if pmbWarn core || pmbWarn sram then
    let w := (if pmbWarn core then core % 65536 else 0) + (if pmbWarn sram then sram % 65536 * 65536 else 0)
    (d.setNum 0x3500 0x0C (Nat.lor (d.num 0x3500 0x0C) w)).alert 7
  else d

/-- The pilot runs the ballast: replay is done and PORST_N is high. -/
def Dev.pilotOn (d : Dev) : Bool := !d.boot.porstLow && decide (d.boot.stage = .done)

/-- PMBUS_POLL (R382): telemetry of both regulators, every 1 ms. -/
def execPmbusPoll (core sram : PmbusRead) (s : State) : Host.Outcome State Fault Refusal :=
  onDev s fun x d =>
    if !d.pilotOn then d
    else
      let d := ((d.setNum 0x3500 4 (core.vout % 65536)).setNum 0x3500 5 (core.iout % 65536)).setNum 0x3500 6 (core.pout % 65536)
      ((d.setNum 0x3500 7 (sram.vout % 65536)).setNum 0x3500 8 (sram.iout % 65536)).pmbStatus x core.status sram.status

/-- PMB_ALERT_N (R382): STATUS_WORD of both regulators is read. -/
def execPmbAlertN (coreStatus sramStatus : Nat) (s : State) : Host.Outcome State Fault Refusal :=
  onDev s fun x d => if d.pilotOn then d.pmbStatus x coreStatus sramStatus else d

/-- REGULATOR_TIMEOUT (R382): a regulator silent for 10 ms counts as faulted. -/
def execRegulatorTimeout (rail : Nat) (s : State) : Host.Outcome State Fault Refusal :=
  onDev s fun x d => if d.pilotOn && decide (rail < 2) then d.stop x 5 rail 0 0 else d

/-! The cap loop (R384 to R389, R392). -/

/-- The effective cap (R387), in W. -/
def Dev.effCap (d : Dev) : Nat :=
  let c := min (d.num 0x3100 1) (Config.envelope d.profile)
  if d.ballast.leaseOut then min c (d.num 0x3100 6) else c

/-- The smallest skip count at which the device meets a cap, if any (R384); powers in mW. -/
def capSkip (pOth pCan cap : Nat) : Option Nat := (List.range 16).find? fun s => decide (16 * pOth + (16 - s) * pCan ≤ 16000 * cap)

/-- The skip count for the next window from the cap loop and the thermal count. -/
def Dev.chooseSkip (d : Dev) : Dev :=
  let b := d.ballast
  let c := capSkip b.pOth b.pCan d.effCap
  let s := max (c.getD 15) (d.num 0x3100 0x0A)
  let d := (d.setNum 0x3100 9 (c.getD 15)).adjBallast fun b => { b with nextSkip := some s, capUnmet := c.isNone }
  if c.isNone then d.alert 7 else d

/-- The hottest of the readings: value and sensor. -/
def hottest (ts : List Lane) : Lane × Nat :=
  (List.range ts.length).foldl (fun m i => if f32Lt m.1 (ts.getD i 0) then (ts.getD i 0, i) else m) (ts.getD 0 0, 0)

/-- Sensors are sampled every beat (R392). -/
def Dev.sampleTemps (d : Dev) (ts : List Lane) : Dev :=
  let h := hottest ts
  ((d.setNum 0x3300 2 h.1.toNat).setNum 0x3300 3 h.2).setObj 0x3300 4 (.bytes ((lpad 80 0 ts).flatMap fun t => leBytes 4 t.toNat))

/-- The thermal skip count moves by at most one a window (R392). -/
def Dev.thermalSkip (d : Dev) : Dev :=
  let t : Lane := BitVec.ofNat 32 (d.num 0x3300 2)
  let thr := d.num 0x3300 1
  let s := d.num 0x3100 0x0A
  let s' := if !f32Lt t (f32OfInt (thr : Int) 0 false) then min 15 (s + 1)
    else if !f32Lt (f32OfInt ((thr - 3 : Nat) : Int) 0 false) t then s - 1 else s
  let d := d.setNum 0x3100 0x0A s'
  if s' = 0 then d else (d.count 0x3300 6 1).alert 8

/-- The choice in the last beat of a window (R384): power of the last window, s_thermal, s_cap; unmet windows count. -/
def Dev.windowChoice (d : Dev) (env : BeatEnv) : Dev :=
  let est := (env.pOth + env.pCan * (16 - d.ballast.skip) / 16) / 1000
  let d := (d.adjBallast fun b => { b with pOth := env.pOth, pCan := env.pCan }).setNum 0x3100 0x0B (min 65535 est)
  let d := (d.thermalSkip).chooseSkip
  if d.ballast.capUnmet then d.count 0x3100 0x0C 1 else d

/-- The cap or its limits changed: the effective cap follows, and a choice already made for the next window is made again. -/
def Dev.capChanged (d : Dev) : Dev :=
  let d := d.setNum 0x3100 2 d.effCap
  if d.ballast.nextSkip.isSome then d.chooseSkip else d

/-- At a beat boundary the hold of a profile change ends once voltage and clock are done; the new profile is in force, and its
envelope bounds the cap (R380, R387). -/
def Dev.endProfHold (d : Dev) : Dev :=
  match d.ballast.profChange with
  | some p =>
    if p.held && p.vddDone && p.clockDone then
      (((d.adjProf fun p => { p with held := false }).setNum 0x3000 2 p.profile).count 0x3000 3 1).profTidy.capChanged
    else d
  | none => d

/-- A lease starts or is renewed (R388): the whole length remains. -/
def Dev.startLease (d : Dev) : Dev :=
  ((d.setNum 0x3100 5 (d.num 0x3100 3)).adjBallast fun b => { b with leaseOut := false }).capChanged

/-- The lease runs out (R389). -/
def Dev.expireLease (d : Dev) : Dev :=
  if decide (d.num 0x3100 5 = 0) && !d.ballast.leaseOut then
    (((d.adjBallast fun b => { b with leaseOut := true }).count 0x3100 0x0D 1).alert 7).capChanged
  else d

/-- LEASE_EXPIRY (R388): the lease count has reached 0 at a Round boundary. -/
def execLeaseExpiry (s : State) : Host.Outcome State Fault Refusal :=
  onDev s fun _ d => if d.pilotOn then d.expireLease else d

/-- The lease at a Round boundary: a renewal that commits here, or one Round less (R388). -/
def Dev.leaseRound (d : Dev) : Dev :=
  if d.ballast.renewNow then (d.adjBallast fun b => { b with renewNow := false }).startLease
  else d.setNum 0x3100 5 (d.num 0x3100 5 - 1)

/-! BRAKE_N (R390, R391). -/

/-- BRAKE_N_FALL: in Moored it is only counted. -/
def execBrakeNFall (s : State) : Host.Outcome State Fault Refusal :=
  onDev s fun x d =>
    if d.boot.porstLow || d.ballast.brakeLow then d
    else
      let d := (d.adjBallast fun b => { b with brakeLow := true }).count 0x3200 2 1
      if !d.alive || decide (d.ballast.moored = .moored) || decide (d.ballast.moored = .exiting) then d else d.brake x

/-- BRAKE_N_RISE: the release delay runs from here. -/
def execBrakeNRise (s : State) : Host.Outcome State Fault Refusal :=
  onDev s fun x d => if d.ballast.brakeLow then d.adjBallast fun b => { b with brakeLow := false, highSince := x.time.beat } else d

/-- BRAKE_RELEASE_DELAY: BRAKE_N has been high for the release delay. -/
def execBrakeReleaseDelay (s : State) : Host.Outcome State Fault Refusal :=
  onDev s fun x d =>
    let b := d.ballast
    if b.brakeOn && !b.brakeLow && !b.delayDone && decide (b.highSince + d.num 0x3200 4 ≤ x.time.beat) then
      (d.adjBallast fun b => { b with delayDone := true }).setNum 0x3200 1 2
    else d

/-- BRAKE_HOLD_END: at a beat boundary whose number is a multiple of 16 the hold has ended (Dev.holds) and winch issue resumes. -/
def execBrakeHoldEnd (s : State) : Host.Outcome State Fault Refusal :=
  onDev s fun x d =>
    let b := d.ballast
    if b.brakeOn && !b.brakeLow && b.delayDone && decide (x.time.beat % 16 = 0) then
      let len := x.time.beat - (b.brakeFrom + 1)
      let d := d.adjBallast fun b => { b with brakeOn := false, brakeCanopy := false, delayDone := false }
      ((d.setNum 0x3200 1 0).setNum 0x3200 3 len).peak 0x3200 5 len
    else d

/-- THERMAL_TRIP (R393): THERMTRIP_N, electrical idle, and the thermal fail-stop. -/
def execThermalTrip (sensor : Nat) (s : State) : Host.Outcome State Fault Refusal :=
  onDev s fun x d =>
    if d.boot.porstLow then d
    else
      let d := { d with boot := { d.boot with thermtrip := true } }.emit (.pin "THERMTRIP_N" true)
      d.stop x 6 sensor 0 sensor

/-! Moored (R395 to R399, Table 12.11). -/

/-- A resident-facet bit of a job (R396). -/
def Dev.resident (d : Dev) (j l : Nat) : Bool := (leNat (d.blob (0x3440 + j) 1)).testBit l

/-- Resident facets of all jobs (0x3400:07). -/
def Dev.residents (d : Dev) : Nat := d.jobs.foldl (fun n p => n + popCount 1024 (leNat (d.blob (0x3440 + p.1) 1))) 0

/-- Are all winch engines empty? -/
def Dev.enginesEmpty (d : Dev) : Bool := d.engines.all fun e => e.2.recs.all fun r => !r.st.live

/-- The facets that a Running job holds, with whether each is resident. -/
def Dev.mooredFacets (d : Dev) : Tab Bool :=
  d.jobs.foldl (fun t p => if p.2.st ≠ .running then t else
    (List.range (128 * p.2.groups.length)).foldl (fun t l => tset t (physFacet p.2.groups l) (d.resident p.1 l)) t) []

/-- The Moored request 1 commits (R397): the device reports Moored; entry waits for the engines. -/
def Dev.enterMoored (d : Dev) (x : Ctx) : Dev :=
  if d.ballast.moored ≠ .awake then d
  else
    let from_ := d.state
    { d with state := .moored }.adjBallast fun b => { b with
      moored := .entering, mooredFrom := from_, mooredBeat := x.time.beat, emptied := false, mooredHold := false, exitAsked := false }

/-- Exit starts (R399): rails and clocks return. -/
def Dev.exitMoored (d : Dev) (x : Ctx) : Dev :=
  match d.ballast.moored with
  | .entering => d.adjBallast fun b => { b with exitAsked := true }
  | .moored => (d.adjBallast fun b => { b with moored := .exiting, mooredBeat := x.time.beat }).profileRails
  | _ => d

/-- ENGINES_EMPTY (R397, steps 2 to 6): within 4,096 beats the last winch engine is empty. Tiers enter self-refresh, links keep lane
0, facets are retained or gated, and shadow copies outside Running jobs are not valid. -/
def execEnginesEmpty (s : State) : Host.Outcome State Fault Refusal :=
  onDev s fun x d =>
    let b := d.ballast
    if !d.alive || decide (b.moored ≠ .entering) || b.emptied || !d.enginesEmpty || decide (b.mooredBeat + 4096 < x.time.beat) then d
    else
      let keep := d.mooredFacets
      let d := (tkeys d.facets).foldl (fun d n =>
        match tget keep n with
        | some true => d.adjFacet n fun f => { f with powered := false }
        | some false => (d.adjFacet n fun f => { f with powered := false }).memOp (.poisonFacet n)
        | none => d.gate [n]) d
      let noJob (c : Nat) : Bool := d.jobs.all fun (p : Nat × Job) => decide (p.2.comp ≠ c) || decide (p.2.st ≠ .running)
      let drop (c : Nat) (k : Canopy) : Canopy :=
        if k.st = .shadowValid ∧ noJob c = true then { k with st := .idle, shadow := ImageInfo.none } else k
      let d : Dev := { d with canopy := tmap d.canopy drop }
      let d := d.adjTether fun (t : Tether) => if t.st = .inService then { t with st := .moored } else t
      (d.tierStates 1 2).adjBallast fun b => { b with emptied := true, emptyBeat := x.time.beat }

/-- MOORED_ENTRY_ABANDON (R397): after 4,096 beats an engine still is not empty. -/
def execMooredEntryAbandon (s : State) : Host.Outcome State Fault Refusal :=
  onDev s fun x d =>
    let b := d.ballast
    if decide (b.moored ≠ .entering) || b.emptied || decide (x.time.beat < b.mooredBeat + 4096) then d
    else
      let d := { d with state := b.mooredFrom }.adjBallast fun b => { b with moored := .awake, exitAsked := false }
      (d.setNum 0x3400 1 0).setNum 0x3400 3 Config.busy

/-- Micro-seconds of a number of beats, rounded up. -/
def usOf (beats : Nat) : Nat := ceilDiv (beats * 128) 125

/-- MOORED_ENTRY_DONE (R397, step 7): the rails are at their Moored voltages. -/
def execMooredEntryDone (s : State) : Host.Outcome State Fault Refusal :=
  onDev s fun x d =>
    let b := d.ballast
    if decide (b.moored ≠ .entering) || !b.emptied || !b.mooredHold then d
    else
      let d := (d.setRails 500 600).adjBallast fun b => { b with moored := .moored }
      let d := (d.setNum 0x3400 4 (usOf (x.time.beat - b.emptyBeat))).count 0x3400 6 1
      if b.exitAsked then d.exitMoored x else d

/-- MOORED_EXIT_DONE (R399, R391): the device is in the state it held before; the canopy is released at the next beat boundary (Dev.holds), unless
BRAKE_N is low. -/
def execMooredExitDone (s : State) : Host.Outcome State Fault Refusal :=
  onDev s fun x d =>
    let b := d.ballast
    if b.moored ≠ .exiting then d
    else
      let d := { d with state := b.mooredFrom }.adjBallast fun b => { b with
        moored := .awake, emptied := false, exitAsked := false }
      let d := { d with facets := tmap d.facets fun _ f => { f with powered := true } }
      let d := (d.adjTether fun (t : Tether) => if t.st = .moored then { t with st := .inService } else t).tierStates 2 1
      let d := (d.setNum 0x3400 5 (usOf (x.time.beat - b.mooredBeat))).setNum 0x3400 3 Config.ok
      let d := d.serveState
      if b.brakeLow then (d.brake x).adjBallast fun b => { b with brakeCanopy := true } else d

end Sys2Proof.Machine
end

