-- ==== Sys2Proof/Machine/Boot.lean ====
section
/-!
DEFINITION. Reset, boot, firmware and the journal (chapter 14), power and rail loss (R472).
-/

namespace Sys2Proof.Machine

/-- Change the boot state. -/
def Dev.adjBoot (d : Dev) (f : Boot → Boot) : Dev := { d with boot := f d.boot }
/-- Change the journal. -/
def Dev.adjJournal (d : Dev) (f : Journal → Journal) : Dev := { d with journal := f d.journal }

/-! The two resets. -/

/-- What is in flash survives: durable records, the snapshot, the audit records that are durable. -/
def Journal.flash (j : Journal) : Journal :=
  let lost := j.queue.filterMap fun r => match r.pay with | .audit a => some a | _ => none
  { j with queue := [], audit := j.audit.filter fun a => !lost.contains a, compact := min 1 j.compact }

/-- PORST_N or power loss (Table 14.1): everything but fuses, flash and the level of pins; keep says whether always-on registers and a
fuse write under way live on. -/
def Dev.cold (d : Dev) (keep : Bool) : Dev :=
  let b := d.boot
  let d' : Dev := { Dev.reset with
    journal := d.journal.flash, draws := d.draws, out := d.out
    ballast := { Ballast.reset with brakeLow := d.ballast.brakeLow }
    boot := { Boot.reset with
      slot := b.slot, slotSigOk := b.slotSigOk, bpb0 := b.bpb0, bpb1 := b.bpb1, sysrstLow := b.sysrstLow
      fuseTarget := if keep then b.fuseTarget else none
      lateRecord := if keep then b.lateRecord else none } }
  let d' := (((d'.memOp .poisonAll).memOp .loseTiers).memOp .wipeSecure).eff (.time .clear)
  let d' := d.movePin (d'.emit (.pin "LP_RESET_N" true))
  if b.thermtrip then d'.emit (.pin "THERMTRIP_N" false) else d'

/-- PORST_N_ASSERTED (R428). -/
def execPorstNAsserted (s : State) : Host.Outcome State Fault Refusal := onDev s fun _ d => d.cold true

/-- POWER_LOSS (R472). -/
def execPowerLoss (s : State) : Host.Outcome State Fault Refusal := onDev s fun _ d => d.cold false

/-- RAIL_EXCURSION (R472): VDD_AON resets the device as PORST_N does, any other rail fail-stops it with cause 0x05. -/
def execRailExcursion (aon : Bool) (s : State) : Host.Outcome State Fault Refusal :=
  onDev s fun x d => if aon then d.cold true else d.stop x 5 0 0 0

/-- PORST_N_RELEASED (R433): the boot ROM runs. -/
def execPorstNReleased (s : State) : Host.Outcome State Fault Refusal :=
  onDev s fun x d =>
    if !d.boot.porstLow then d
    else
      let d := { d with state := .booting }.adjBoot fun b => { b with porstLow := false, stage := .rom, releasedAt := x.time.beat }
      d.setNum 0x1420 1 0

/-- SYSRST_N_ASSERTED (R429): no effect in Grounded; while the pilot still boots there is nothing outside it to stop. -/
def execSysrstNAsserted (s : State) : Host.Outcome State Fault Refusal :=
  onDev s fun x d =>
    if d.boot.sysrstLow then d
    else
      let d := d.adjBoot fun b => { b with sysrstLow := true }
      if d.boot.porstLow ∨ d.boot.stage ≠ .done then d else (d.count 0x1420 2 1).warm x

/-- SYSRST_N_RELEASED (R435, Table 14.2): the restart, unless Stopped by a thermal trip. -/
def execSysrstNReleased (s : State) : Host.Outcome State Fault Refusal :=
  onDev s fun x d =>
    if !d.boot.sysrstLow then d
    else
      let d := d.adjBoot fun b => { b with sysrstLow := false }
      if d.boot.porstLow ∨ d.boot.stage ≠ .done ∨ (d.state = .stopped ∧ d.boot.stopCause = 6) then d else d.restart x 1

/-! The management port's settings: the PHY (R337, R338) and the boot parameter block (R440). -/

/-- The subindices of 0x1200 that the boot parameter block holds, in order. -/
def portSubs : List Nat := [1, 2, 3, 4, 5, 6, 0x0E]

/-- An indirect write of a clause 45 register of MMD 31 of the PHY, by clause 22 registers 13 and 14 (R337; assumption 193). -/
def Dev.mdioWrite (d : Dev) (reg value : Nat) : Dev :=
  let phy := d.num 0x1200 0x0E
  [(13, 0x001F), (14, reg), (13, 0x401F), (14, value % 65536)].foldl (fun d w => d.emit (.mdio phy w.1 w.2)) d

/-- The PLCA settings of Table 10.11 go into the PHY, the enable bit last (R338; assumption 193). -/
def Dev.writePhy (d : Dev) : Dev :=
  let n (s : Nat) : Nat := d.num 0x1200 s
  (((({ d with boot := { d.boot with phyDue := false } }.mdioWrite 0xCA02 (n 3 * 256 + n 2)).mdioWrite 0xCA04 (n 4)).mdioWrite 0xCA05
    (n 5 * 256 + n 6)).mdioWrite 0xCA01 (n 1 * 0x8000))

/-- A boot parameter block with a sequence number. -/
def Dev.bpbBlock (d : Dev) (n : Nat) : List Byte :=
  let b := leBytes 4 0x50424F42 ++ leBytes 4 n ++ portSubs.flatMap fun s => leBytes 1 (d.num 0x1200 s)
  b ++ leBytes 4 (crc32 b)

/-- The sequence number of a valid copy of the block. -/
def bpbSeq (b : List Byte) : Option Nat :=
  if b.length = 19 ∧ leNat (b.take 4) = 0x50424F42 ∧ leNat (b.drop 15) = crc32 (b.take 15) then some (leNat ((b.drop 4).take 4)) else none

/-- One of the objects committed: the copy with the lower sequence number is written again, with the next number (R440); a copy that is not valid
counts as the lower one (assumption 194). -/
def Dev.writeBpb (d : Dev) : Dev :=
  let put0 (n : Nat) : Dev := d.adjBoot fun b => { b with bpb0 := d.bpbBlock n }
  let put1 (n : Nat) : Dev := d.adjBoot fun b => { b with bpb1 := d.bpbBlock n }
  match bpbSeq d.boot.bpb0, bpbSeq d.boot.bpb1 with
  | some a, some b => if a ≤ b then put0 (b + 1) else put1 (a + 1)
  | some a, none => put1 (a + 1)
  | none, some b => put0 (b + 1)
  | none, none => put0 1

/-- The valid copy with the higher number (R440). -/
def Boot.bpb (b : Boot) : Option (List Byte) :=
  match bpbSeq b.bpb0, bpbSeq b.bpb1 with
  | some m, some n => some (if m < n then b.bpb1 else b.bpb0)
  | some _, none => some b.bpb0
  | none, some _ => some b.bpb1
  | none, none => none

/-- The ROM brings the port up with the settings of the block; where no copy is valid it uses CSMA/CD and PHY address 0 (R436). -/
def Dev.romPort (d : Dev) : Dev :=
  match d.boot.bpb with
  | some b => ((List.range 7).foldl (fun d i => d.setNum 0x1200 (portSubs.getD i 0) ((b.getD (8 + i) 0).toNat)) d).writePhy
  | none => ((d.setNum 0x1200 1 0).setNum 0x1200 0x0E 0).writePhy

/-! Firmware images (R441, R442). -/
def fwLength (img : List Byte) : Nat := leNat ((img.drop 8).take 4)
def fwVersion (img : List Byte) : List Byte := ((img.drop 24).take 16).takeWhile fun b => decide (b ≠ 0)
def fwSigner (img : List Byte) : List Byte := (img.drop 72).take 57

/-- May firmware be signed by this key: an active entry of the list, or on a Blank device without one the maker root (R442)? -/
def Fuses.signerOk (f : Fuses) (key : List Byte) : Bool :=
  let g := digest32 key
  (f.signers.any fun s => decide (s.2 = 1) && decide (s.1 = g)) ||
  (decide (f.lifecycle = 0) && f.signers.all (fun s => decide (s.2 ≠ 1)) && decide (g = f.makerRoot))

/-- R442 in its order: 0, or the boot result of the first check that fails (0x1400:06). -/
def fwCheck (f : Fuses) (img : List Byte) (sigOk : Bool) : Nat :=
  let n := fwLength img
  if leNat (img.take 4) ≠ 0x4D524946 ∨ leNat ((img.drop 4).take 1) ≠ 1 ∨ n < 4096 ∨ 12582912 < n ∨
      leNat ((img.drop 12).take 4) + leNat ((img.drop 16).take 4) + 256 ≠ n ∨ img.length < n then 2
  else if !f.signerOk (fwSigner img) then 3
  else if !sigOk then 4
  else if digest32 ((img.take n).drop 256) ≠ (img.drop 40).take 32 then 5
  else 0

/-- The device is Grounded with a reason, and its port comes up (R436). -/
def Dev.ground (d : Dev) (reason : Nat) : Dev :=
  (({ d with state := .grounded }.adjBoot fun b => { b with stage := .grounded, claim := none, recv := [], recvTotal := 0 }).setNum 0x1400 6
    reason).romPort

/-- BOOT_ROM_DONE (R433, R439): flash discovery fails, or the firmware is copied. -/
def execBootRomDone (flashOk : Bool) (capacity : Nat) (s : State) : Host.Outcome State Fault Refusal :=
  onDev s fun _ d =>
    if d.boot.stage ≠ .rom ∨ d.boot.porstLow = true then d
    else if !flashOk then d.ground 1
    else (d.adjBoot fun b => { b with stage := .verify }).setNum 0x1410 0x0B capacity

/-- FIRMWARE_VERIFY (R442): the firmware starts, or the device is Grounded with the check that failed. -/
def execFirmwareVerify (sigOk : Bool) (s : State) : Host.Outcome State Fault Refusal :=
  onDev s fun x d =>
    if d.boot.stage ≠ .verify ∨ d.boot.porstLow = true then d
    else
      let r := fwCheck x.fuse d.boot.slot sigOk
      if r ≠ 0 then d.ground r
      else
        let d := d.adjBoot fun b => { b with stage := .replay, running := b.slot, replayAt := x.time.beat }
        ((if d.num 0x1400 6 = 6 then d else d.setNum 0x1400 6 0).setObj 0x1000 5 (.bytes (fwVersion d.boot.slot))).setObj 0x1400 8
          (.bytes (digest32 d.boot.slot))

/-! Journal replay (R449). -/

/-- What a run of records leaves in J objects, from a snapshot: a grant applies at its marker of status OK. -/
def replayObjs (snap : Tab Val) (recs : List JRec) : Tab Val :=
  (recs.foldl (fun (a : Tab Val × Tab (List (Nat × Val))) r =>
    match r.pay with
    | .grant _ es => (a.1, tset a.2 r.group es)
    | .marker _ st =>
      (if st = Config.ok then (tgetD a.2 r.group []).foldl (fun t e => tset t e.1 e.2) a.1 else a.1, terase a.2 r.group)
    | .outcome _ => (a.1, terase a.2 r.group)
    | .device es => (es.foldl (fun t e => tset t e.1 e.2) a.1, a.2)
    | .failStop f =>
      let n := match tget a.1 (okey 0x1020 1) with | some (.num n) => n | _ => 0
      let h := match tget a.1 (okey 0x1020 3) with | some (.bytes b) => b | _ => []
      let h := h ++ leBytes 64 f
      (tset (tset (tset a.1 (okey 0x1020 1) (.num (satAdd (2 ^ 32 - 1) n 1))) (okey 0x1020 2) (.bytes (leBytes 64 f))) (okey 0x1020 3)
        (.bytes (h.drop (h.length - 512))), a.2)
    | _ => a) (snap, [])).1

/-- The granted groups of a run of records without a marker or an outcome. -/
def openGrants (recs : List JRec) : List Nat :=
  recs.foldl (fun l r => match r.pay with
    | .grant .. => l ++ [r.group]
    | .marker .. => l.filter fun g => decide (g ≠ r.group)
    | .outcome _ => l.filter fun g => decide (g ≠ r.group)
    | _ => l) []

/-- The first unfinished teardown step of a compartment: 1 waits for descriptors, 2 scrubs. -/
def tearFrom (snap : Tab Nat) (recs : List JRec) (c : Nat) : Nat :=
  recs.foldl (fun a r => match r.pay with
    | .teardown k step _ => if k = c then (if step = 7 then 0 else if step < 5 then 1 else 2) else a
    | _ => a) (tgetD snap c 0)

/-- The last sealed material of each compartment. -/
def sealedFrom (snap : Tab (Nat × Nat × Nat)) (recs : List JRec) : Tab (Nat × Nat × Nat) :=
  recs.foldl (fun t r => match r.pay with | .sealed c kw p e => tset t c (kw, p, e) | _ => t) snap

/-- JOURNAL_REPLAY (R449, R431, R340, R381, R389): J objects return, grants without a marker are recorded ABORTED, compartments are
restored; the lease and the orphan timer start, the pilot takes over AVSBus, the PHY gets its PLCA settings (R338): one that does not answer is
counted. -/
def execJournalReplay (phyOk : Bool) (s : State) : Host.Outcome State Fault Refusal :=
  onDev s fun x d =>
    if d.boot.stage ≠ .replay ∨ d.boot.porstLow = true then d
    else
      let j := d.journal
      let vals := replayObjs j.snap j.recs
      -- what the ROM took from the boot parameter block was for Grounded only (R440)
      let d := portSubs.foldl (fun d s => d.setObj 0x1200 s (objDefault 0x1200 s)) d
      let d := (vals.foldl (fun d v => d.setObj (v.1 / 256) (v.1 % 256) v.2) d).writePhy
      let d := if phyOk then d else d.count 0x1200 0x0D 1
      let open_ := openGrants j.recs
      -- no pointer is valid before the first compaction writes one (R449)
      let d := if j.gen = 0 && !j.recs.isEmpty then d.alert 6 else d
      let d := open_.foldl (fun d g => d.journal' x g (.outcome Config.aborted)) d
      let d := ((d.setNum 0x1410 6 (msOf (x.time.beat - d.boot.replayAt))).setNum 0x1410 7 j.recs.length).setNum 0x1410 8 open_.length
      let d := match d.boot.lateRecord with
        | some r => (d.adjBoot fun b => { b with lateRecord := none }).journal' x 0 (.failStop r)
        | none => d
      -- the resting tier is lost: stripes are rebuilt from 0 (R419)
      let d := (List.range 8).foldl (fun d c => d.setNum (0x4200 + c) 9 0) d
      let d := (List.range 8).foldl (fun d c => let t := tearFrom j.snapTear j.recs c
        if t = 0 then d else d.setComp c { d.comp c with tearStep := t }) d
      let (n, d) := d.draw
      let d := d.setNum 0x1340 3 (Config.random n % 2 ^ 64)
      let (n, d) := d.draw
      let d := d.setNum 0x1000 8 (if x.fuse.number = 0 then 2 * 2 ^ 40 + Config.random n % 2 ^ 40 else 0)
      let d := (d.setNum 0x3000 2 (d.num 0x3000 1)).setNum 0x4000 3 (Config.gddrRate (d.num 0x3000 1))
      let d := { d with mgrBase := x.round, mgrRound := x.round }.adjBoot fun b => { b with stage := .done, replayAt := x.time.beat }
      (((d.profileRails.startLease).restoreComps x).brakeLevel x).tryPlace x

/-! Grounded (R436 to R438). -/

/-- RECOVERY_ANNOUNCE: every second in Grounded. -/
def execRecoveryAnnounce (s : State) : Host.Outcome State Fault Refusal :=
  onDev s fun _ d =>
    if d.boot.stage = .grounded then
      d.emit (.recoveryAnnounce (d.num 0x1400 6) (d.boot.recv.foldl (fun n p => n + p.2.length) 0))
    else d

/-- Byte strings laid over an image of n bytes, later ones over earlier; none where a byte is missing. -/
def coverBytes (n : Nat) (ps : List (Nat × List Byte)) : Option (List Byte) :=
  let bs := ps.foldl (fun (t : List (Option Byte)) p =>
    t.take p.1 ++ ((p.2.take (n - p.1)).map some) ++ t.drop (p.1 + p.2.length)) (List.replicate n none)
  if bs.all Option.isSome then some (bs.map fun b => b.getD 0) else none

/-- A frame of the management port that the device takes (R337, R339): untagged Ethernet II of at most 1,518 bytes with EtherType 0x86DD, from a
link-local source, in a packet that R339 does not drop. -/
def netOk (n : NetFrame) : Bool := !n.tagged && decide (n.etherType = 0x86DD) && decide (n.bytes ≤ 1518) && n.linkLocal && n.plain

/-- RECOVERY_WRITE (R437): a write at offset 0 claims the ROM and starts the image again. -/
def execRecoveryWrite (client offset total : Nat) (data : List Byte) (net : NetFrame) (s : State) : Host.Outcome State Fault Refusal :=
  onDev s fun _ d =>
    let b := d.boot
    if b.stage ≠ .grounded then d
    else if !netOk net then d.count 0x1200 0x0C 1
    else
      let st :=
        if b.claim.isSome && b.claim ≠ some client then Config.busy
        else if 12582912 < total ∨ total < offset + data.length ∨ data.length = 0 ∨ 1024 < data.length ∨
            (offset ≠ 0 ∧ (b.claim = none ∨ b.recvTotal ≠ total)) then Config.range
        else Config.ok
      let d := if st ≠ Config.ok then d
        else if offset = 0 then d.adjBoot fun b => { b with claim := some client, recvTotal := total, recv := [(0, data)] }
        else d.adjBoot fun b => { b with recv := b.recv ++ [(offset, data)] }
      d.emit (.recoveryReply client 0x51 st)

/-- RECOVERY_INSTALL (R438). -/
def execRecoveryInstall (client : Nat) (sigOk compareOk : Bool) (net : NetFrame) (s : State) : Host.Outcome State Fault Refusal :=
  onDev s fun x d =>
    if d.boot.stage ≠ .grounded then d
    else if !netOk net then d.count 0x1200 0x0C 1
    else match (if d.boot.recvTotal = 0 then none else coverBytes d.boot.recvTotal d.boot.recv) with
      | none => d.emit (.recoveryReply client 0x52 Config.range)
      | some img =>
        if fwCheck x.fuse img sigOk ≠ 0 then d.emit (.recoveryReply client 0x52 Config.authFail)
        else if !compareOk then
          (d.adjBoot fun b => { b with slot := [], slotSigOk := false }).emit (.recoveryReply client 0x52 Config.deviceFault)
        else
          let d := { d with state := .booting }.adjBoot fun b => { b with
            slot := img, slotSigOk := true, stage := .verify, claim := none, recv := [], recvTotal := 0 }
          (d.setNum 0x1400 6 6).emit (.recoveryReply client 0x52 Config.ok)

/-- RECOVERY_CLAIM_LAPSE: 60 s after the claim's last accepted message. -/
def execRecoveryClaimLapse (s : State) : Host.Outcome State Fault Refusal :=
  onDev s fun _ d => if d.boot.stage = .grounded then d.adjBoot fun b => { b with claim := none } else d

/-! Installing firmware (R443, Table 14.7). -/

/-- An install stage begins: it is shown and journalled. -/
def Dev.installAt (d : Dev) (x : Ctx) (st : Nat) : Dev :=
  (d.adjBoot fun b => { b with install := st }).journal' x 0 (.firmware st (digest32 (d.boot.staged.getD [])))

/-- The install is committed: the slot is erased. -/
def Dev.startInstall (d : Dev) (x : Ctx) : Dev :=
  (d.adjBoot fun b => { b with installFrom := x.time.beat, slot := [], slotSigOk := false }).installAt x 2

/-- ERASE_DONE. -/
def execEraseDone (s : State) : Host.Outcome State Fault Refusal :=
  onDev s fun x d => if d.boot.install = 2 then d.installAt x 3 else d

/-- PROGRAM_DONE. -/
def execProgramDone (s : State) : Host.Outcome State Fault Refusal :=
  onDev s fun x d =>
    if d.boot.install = 3 then (d.adjBoot fun b => { b with slot := b.staged.getD [], slotSigOk := true }).installAt x 4 else d

/-- READ_BACK_DONE. -/
def execReadBackDone (equal : Bool) (s : State) : Host.Outcome State Fault Refusal :=
  onDev s fun x d =>
    if d.boot.install ≠ 4 then d
    else if equal then
      ((d.installAt x 5).setNum 0x1400 7 (msOf (x.time.beat - d.boot.installFrom))).audit x 0 0xFF 11 Config.ok 0x1400 2 0xFF 0
        (leNat (digest32 (d.boot.staged.getD [])))
    else ((d.adjBoot fun b => { b with slot := [], slotSigOk := false }).installAt x 6).alert 6

/-! The journal (R445, R447). -/

/-- Bytes of a log (Table 14.5). -/
def logBytes : Nat := 3145728

/-- Compaction starts when the log passes 75 % of its size (R447). -/
def Dev.compactIfFull (d : Dev) (x : Ctx) : Dev :=
  if d.journal.compact = 0 ∧ 3 * logBytes < 4 * d.journal.used then d.adjJournal fun j => { j with compact := 1, compactFrom := x.time.beat } else d

/-- RECORD_DURABLE (R325, R445): the oldest record is programmed and read back, or its programming failed; the replies that wait for it
leave, with NDUR where a commit's marker is not durable. -/
def execRecordDurable (ok : Bool) (s : State) : Host.Outcome State Fault Refusal :=
  onDev s fun x d =>
    match d.journal.queue with
    | [] => d
    | r :: rest =>
      let d := d.adjJournal fun j => { j with queue := rest, recs := if ok then j.recs ++ [r] else j.recs }
      let d := if ok then d else (d.count 0x1410 9 1).alert 6
      let due := d.heldReplies.filter fun h => decide (h.1 ≤ r.seq)
      let d := { d with heldReplies := d.heldReplies.filter fun h => decide (r.seq < h.1) }
      let d := due.foldl (fun d h =>
        let lost := !ok && (decide (h.2.op = 0x20) || decide (h.2.op = 0x30)) && decide (h.2.status = Config.ok)
        if lost then (d.count 0x1100 8 1).sendReply x { h.2 with ndur := true } else d.sendReply x h.2) d
      -- the reply to the committing message has left: the PHY follows (R338)
      let d := if d.boot.phyDue && d.heldReplies.all (fun h => decide (h.2.op ≠ 0x20) && decide (h.2.op ≠ 0x30)) then d.writePhy else d
      d.compactIfFull x

/-- COMPACTION_CUT (R447): from here records go to the other area's log. -/
def execCompactionCut (s : State) : Host.Outcome State Fault Refusal :=
  onDev s fun _ d =>
    let j := d.journal
    if j.compact ≠ 1 then d
    else
      let last := match j.recs.getLast? with | some r => r.seq | none => j.snapSeq
      let again := decide (j.appendB ≠ j.area)
      d.adjJournal fun j => { j with compact := 2, cutSeq := last, appendB := !j.area, used := if again then j.used else 0 }

/-- COMPACTION_DONE (R447): the snapshot as of the cut is in force under a new pointer. -/
def execCompactionDone (s : State) : Host.Outcome State Fault Refusal :=
  onDev s fun x d =>
    let j := d.journal
    if j.compact ≠ 2 then d
    else
      let old := j.recs.filter fun r => decide (r.seq ≤ j.cutSeq)
      let open_ := openGrants old
      let keep := j.recs.filter fun r => decide (j.cutSeq < r.seq) || (match r.pay with | .grant .. => open_.contains r.group | _ => false)
      let tear := (List.range 8).foldl (fun t c => tset t c (tearFrom j.snapTear old c)) []
      let d := d.adjJournal fun j => { j with
        recs := keep, snap := replayObjs j.snap old, snapSealed := sealedFrom j.snapSealed old, snapTear := tear, snapSeq := j.cutSeq,
        gen := j.gen + 1, area := j.appendB, compact := 0 }
      (d.count 0x1410 4 1).setNum 0x1410 0x0A (msOf (x.time.beat - j.compactFrom))

end Sys2Proof.Machine
end

