-- ==== Sys2Proof/Machine/Gust.lean ====
section
/-!
DEFINITION. Gust, queue-depth sampling and JTAG (chapter 15), and the management port's link (R337 to R341).
-/

namespace Sys2Proof.Machine

/-! Gust (R451 to R456). -/

/-- Disarm every control (R452, R453). -/
def Dev.gustOff (d : Dev) : Dev := { d with gust := { d.gust with armed := false, disarmDue := false, permit := none } }.setNum 0x6000 2 0

/-- Bits that control 7 flips in the word of an address: in the resting tier the next two bursts meet them (R454). -/
def flipCode (a k : Nat) : Nat := match regionOf a with | .lp _ => 256 + k | _ => k

/-- Arm every control whose parameters are nonzero (R453); control 7 flips bits at the arm beat. -/
def Dev.gustOn (d : Dev) (x : Ctx) (permit : Option Nat) : Dev :=
  let d := { d with gust := ⟨true, x.time.beat, permit, false⟩ }.setNum 0x6000 4 x.time.beat
  let a := d.num 0x6000 0x17
  if d.num 0x6000 0x16 = 0 then d
  else (List.range (d.num 0x6000 0x19)).foldl (fun d i => d.memOp (.flip (a + 8 * i) (flipCode (a + 8 * i) (d.num 0x6000 0x18)))) d

/-- GUST_RUN_END: the run length is over. -/
def execGustRunEnd (s : State) : Host.Outcome State Fault Refusal :=
  onDev s fun x d =>
    let n := d.num 0x6000 5
    if d.gust.armed && decide (n ≠ 0) && decide (d.gust.beat + n ≤ x.time.beat) then d.gustOff else d

/-- SIMULATED_FAIL_STOP (control 8). -/
def execSimulatedFailStop (s : State) : Host.Outcome State Fault Refusal :=
  onDev s fun x d =>
    let n := d.num 0x6000 0x1A
    if d.gust.armed && decide (n ≠ 0) && decide (d.gust.beat + n ≤ x.time.beat) then (d.count 0x6000 6 1).stop x 0x0A 0 0 0 else d

/-! Sampling (R459, R460). -/

/-- Depth of queue q of a facet: IQ0 to IQ7, then OQ0 to OQ7. -/
def Facet.depth (f : Facet) (q : Nat) : Nat := if q < 8 then (f.iqOf q).length else (f.oqOf (q - 8)).length

/-- SAMPLE: at a beat boundary whose offset from the start is a multiple of the interval every queue of an Active compartment is binned. -/
def execSample (comp : Nat) (s : State) : Host.Outcome State Fault Refusal :=
  onDev s fun x d =>
    match tget d.samp comp with
    | none => d
    | some m =>
      let iv := max 1 (d.num (0x7010 + comp) 1)
      if !d.alive || decide (d.compState comp ≠ 1) || !m.on || decide (x.time.beat < m.from_) || decide ((x.time.beat - m.from_) % iv ≠ 0) then d
      else
        let fs := facetsOf (d.num (0x4100 + comp) 2)
        let bins := fs.foldl (fun t n => (List.range 16).foldl (fun t q =>
          tmod t (n * 272 + q * 17 + min 16 (ceilDiv ((d.facet n).depth q) 4)) 0 fun c => satAdd (2 ^ 32 - 1) c 1) t) m.bins
        { d with samp := tset d.samp comp { m with samples := satAdd (2 ^ 32 - 1) m.samples 1, bins := bins } }

/-! JTAG (R458). -/

/-- BYPASS. -/
def execBypass (s : State) : Host.Outcome State Fault Refusal := onDev s fun _ d => { d with tap := .bypass }
/-- IDCODE. -/
def execIdcode (s : State) : Host.Outcome State Fault Refusal :=
  onDev s fun _ d => { d with tap := .idcode }.emit (.tdo 0x17620C2D)
/-- SAMPLE/PRELOAD. -/
def execSamplePreload (s : State) : Host.Outcome State Fault Refusal := onDev s fun _ d => { d with tap := .samplePreload }

/-- A boundary-scan instruction takes effect only while Stopped or in SYSRST_N; else BYPASS runs in its place. -/
def Dev.scanTap (d : Dev) (t : Tap) : Dev := { d with tap := if d.state = .stopped ∨ d.boot.sysrstLow = true then t else .bypass }

/-- EXTEST. -/
def execExtest (s : State) : Host.Outcome State Fault Refusal := onDev s fun _ d => d.scanTap .extest
/-- CLAMP. -/
def execClamp (s : State) : Host.Outcome State Fault Refusal := onDev s fun _ d => d.scanTap .clamp
/-- EXTEST_PULSE. -/
def execExtestPulse (s : State) : Host.Outcome State Fault Refusal := onDev s fun _ d => d.scanTap .extestPulse
/-- EXTEST_TRAIN. -/
def execExtestTrain (s : State) : Host.Outcome State Fault Refusal := onDev s fun _ d => d.scanTap .extestTrain

/-- UNLOCK_EXCHANGE: signed under the maker root; in Deployed only while a maker-access permit lasts. -/
def execUnlockExchange (sigOk : Bool) (s : State) : Host.Outcome State Fault Refusal :=
  onDev s fun x d =>
    if sigOk && (decide (x.fuse.lifecycle ≠ 2) || d.permits.any fun p => decide (p.2.kind = 1)) then { d with unlocked := true } else d

/-! The management port's link (R338, R339). portState is 0x1200:0A, and 5 while duplicate-address detection runs. -/

/-- How the port runs when it is up: PLCA coordinator or follower, or CSMA/CD. -/
def Dev.portMode (d : Dev) : Nat := if d.num 0x1200 1 = 0 then 1 else if d.num 0x1200 2 = 0 then 3 else 2

/-- The port answers: it is up and no duplicate of its address was found. -/
def Dev.portUp (d : Dev) : Bool :=
  !d.boot.porstLow && (decide (d.boot.stage = .done) || decide (d.boot.stage = .grounded)) && decide (1 ≤ d.portState) && decide (d.portState ≤ 3)

/-- PHY_LINK_UP: duplicate-address detection starts. -/
def execPhyLinkUp (s : State) : Host.Outcome State Fault Refusal :=
  onDev s fun _ d => if !d.boot.porstLow && decide (d.portState = 0) then { d with portState := 5 } else d

/-- DUPLICATE_ADDRESS_DETECTION: on a duplicate the port stops sending until the next link-up. -/
def execDuplicateAddressDetection (duplicate : Bool) (s : State) : Host.Outcome State Fault Refusal :=
  onDev s fun _ d => if d.portState = 5 then { d with portState := if duplicate then 4 else d.portMode } else d

/-- PHY_LINK_DOWN. -/
def execPhyLinkDown (s : State) : Host.Outcome State Fault Refusal := onDev s fun _ d => { d with portState := 0 }

/-- PLCA_BEACON_LOSS: a follower falls back to CSMA/CD. -/
def execPlcaBeaconLoss (s : State) : Host.Outcome State Fault Refusal :=
  onDev s fun _ d => if d.portState = 2 then { d with portState := 1 }.count 0x1200 0x0B 1 else d

/-- PLCA_BEACON_SEEN: PLCA operation returns. -/
def execPlcaBeaconSeen (s : State) : Host.Outcome State Fault Refusal :=
  onDev s fun _ d => if d.portState = 1 ∧ d.portMode = 2 then { d with portState := 2 } else d

/-- NEIGHBOR_SOLICITATION: answered where the port takes its frame; any other is dropped and counted (R337, R339). -/
def execNeighborSolicitation (client : Nat) (net : NetFrame) (s : State) : Host.Outcome State Fault Refusal :=
  onDev s fun _ d =>
    if !d.portUp then d
    else if netOk net then ((d.count 0x1200 8 1).emit (.advertise client)).count 0x1200 9 1 else (d.count 0x1200 8 1).count 0x1200 0x0C 1

/-- ECHO_REQUEST. -/
def execEchoRequest (client : Nat) (net : NetFrame) (data : List Byte) (s : State) : Host.Outcome State Fault Refusal :=
  onDev s fun _ d =>
    if !d.portUp then d
    else if netOk net then ((d.count 0x1200 8 1).emit (.echo client data)).count 0x1200 9 1 else (d.count 0x1200 8 1).count 0x1200 0x0C 1

/-- ORPHAN_TIMEOUT (R340, R341): the last accepted HEARTBEAT, or the end of replay, is the orphan timeout old. -/
def execOrphanTimeout (s : State) : Host.Outcome State Fault Refusal :=
  onDev s fun x d =>
    if !d.pilotOn || decide (d.num 0x1220 2 = 1) || decide (x.round < max d.mgrRound d.mgrBase + d.num 0x1220 1) then d
    else ((d.setNum 0x1220 2 1).count 0x1220 5 1).alert 4

end Sys2Proof.Machine
end

