-- ==== Sys2Proof/Machine/Scan.lean ====
section
/-!
DEFINITION. Scan of facets (R124 to R128, R305, Tables 3.15 and 3.16) and the memory controllers' events (R139 to R142, R434).
-/

namespace Sys2Proof.Machine

/-! Scan records. -/

/-- Bytes of a scan record, with and without facet memory (R125). -/
def scanLen (withMem : Bool) : Nat := if withMem then 663552 else 131072
/-- Distance between records in a tier (R305). -/
def scanPitch (withMem rest : Bool) : Nat := if rest then framePitch (scanLen withMem) else scanLen withMem

/-- n words of 64-byte flit payloads of a queue. -/
def flitBytes (fs : List Flit) : List Byte := (lpad 64 ⟨0, 0⟩ fs).flatMap fun (t : Flit) => leBytes 64 t.pay
/-- Sidebands of a queue's 64 slots; an empty slot has V = 0. -/
def sideBytes (fs : List Flit) : List Byte := (lpad 64 ⟨0, 0⟩ fs).flatMap fun (t : Flit) => leBytes 2 t.sb

/-- Record bytes from 64 on (Table 3.15) of facet n; draw numbers the parts without a stated layout. -/
def scanBody (f : Facet) (m : MemSys) (n draw : Nat) (withMem : Bool) : List Byte :=
  let free (first k : Nat) : List Byte := (List.range k).map fun i => Config.scanByte draw (first + i)
  let tile := (List.range 128).flatMap fun i => ((f.trow (i / 16) (i % 16)).lanes).flatMap fun l => leBytes 4 l.toNat
  let acc := (f.bank0.acc ++ f.bank1.acc).flatMap fun r => r.flatMap fun l => leBytes 4 l.toNat
  let iqs := (List.range 8).map f.iqOf
  let oqs := (List.range 8).map f.oqOf
  let sides := (iqs ++ oqs).flatMap sideBytes
  let lo := n * 0x80000
  let marks := if withMem then leBytes 512 ((List.range 4096).foldl (fun w i => if m.lines.contains (lo / 128 + i) then w + 2 ^ i else w) 0)
    else List.replicate 512 0
  let memory := if withMem then
      m.bytes lo 0x80000 ++ leBytes 8192 ((List.range 65536).foldl (fun w i => if m.poisoned (lo + 8 * i) then w + 2 ^ i else w) 0)
    else []
  free 0x40 4032 ++ tile ++ acc ++ iqs.flatMap flitBytes ++ oqs.flatMap flitBytes ++ sides ++ free 0x1B800 8192 ++
    free 0x1D800 8192 ++ marks ++ List.replicate 1536 0 ++ memory

/-- A record header with VALID = 1 (Table 3.16). -/
def scanHeader (digest image : List Byte) (beat lfacet pfacet : Nat) (withMem : Bool) : Nat :=
  leNat digest % 2 ^ 256 * 2 ^ 256 + leNat (image.take 16) % 2 ^ 128 * 2 ^ 128 + beat % 2 ^ 64 * 2 ^ 64 + lfacet % 65536 * 2 ^ 48 +
  pfacet % 65536 * 2 ^ 32 + 2 ^ 25 + (if withMem then 2 ^ 24 else 0) + 2 ^ 16

/-- The page-key slot of a compartment (R152, R365). -/
def Dev.pageSlot (d : Dev) (c : Nat) : Nat :=
  ((d.slotsOf c).find? fun s => match tget d.keys s with | some k => decide (k.kind = 2) || decide (k.kind = 5) | none => false).getD 64

/-- The logical facets that a scan command names, for the job it names, if they exist (R124). -/
def Dev.scanFacets (d : Dev) (e : Nat) : Option (Job × List Nat) :=
  match tget d.jobs (eJob e) with
  | some b =>
    let first := efield e 8 2
    let k := efield e 10 2
    if b.st ≠ .ended ∧ first + k ≤ 128 * b.groups.length then some (b, (List.range k).map fun i => first + i) else none
  | none => none

/-- Do k records from an address on lie in the ranges of compartment c in a tier (R126, R305)? -/
def Dev.scanRange (d : Dev) (c a k : Nat) (withMem : Bool) : Bool :=
  (List.range k).all fun i =>
    let n := scanPitch withMem (inRest a)
    let p := a + i * n
    (match regionOf p with | .gddr _ => true | .lp _ => true | _ => false) && decide (d.accessStatus c p n = Config.ok)

/-- SCAN_OUT (R124, R126, R305): accepted; it waits while another scan of the compartment is in progress. -/
def execScanOut (ring tag : Nat) (s : State) : Host.Outcome State Fault Refusal :=
  onDev s fun x d =>
    if (tget d.scans (d.ringComp ring)).isSome then d
    else d.runCmd x ring tag (fun e => decide (eOpcode e = 0x50)) fun e d =>
      let c := d.ringComp ring
      let dst := efield e 16 8 % 2 ^ 49
      let fl := ebyte e 12
      match d.scanFacets e with
      | none => d.answer x ring tag Config.range
      | some (_, ls) =>
        if !d.scanRange c dst ls.length (fl.testBit 0) then d.answer x ring tag Config.accessDenied
        else { d with scans := tset d.scans c ⟨ring, tag, ls, fl.testBit 0, fl.testBit 1, dst, x.time.beat, none, ls⟩ }

/-- The job that a scan in progress names. -/
def Dev.scanJob (d : Dev) (k : Scan) : Option (Nat × Job) :=
  (d.cmd k.ring k.tag).bind fun c => (tget d.jobs (eJob c.entry)).map fun b => (eJob c.entry, b)

/-- SCAN_HOLD (R124): at the first beat boundary after the acceptance the facets and their switches are held; records that are not
committed have VALID = 0 (R127). -/
def execScanHold (comp : Nat) (s : State) : Host.Outcome State Fault Refusal :=
  onDev s fun x d =>
    match tget d.scans comp with
    | none => d
    | some k =>
      match d.scanJob k with
      | none => d
      | some (_, b) =>
        if !d.alive || k.heldAt.isSome || decide (x.time.beat ≤ k.accepted) then d
        else
          let rest := inRest k.dest
          let d := k.facets.foldl (fun d l => d.adjFacet (physFacet b.groups l) fun f => { f with held := true }) d
          let d := (List.range k.facets.length).foldl (fun d i =>
            d.memOp (.write (k.dest + i * scanPitch k.withMem rest) (List.replicate (if rest then 192 else 64) 0))) d
          { d with scans := tset d.scans comp { k with heldAt := some x.time.beat } }

/-- A scan record goes to a tier: plaintext in the working tier, a frame under the page key in the resting tier (R126, R148, R152); a record
with weight lines marks the granules it is written to (R153). -/
def Dev.storeRecord (d : Dev) (c j a : Nat) (rec_ : List Byte) (weights : Bool) : Dev :=
  if !inRest a then d.memOp (if weights then .writeMarked a rec_ else .write a rec_)
  else
    let key := match tget d.keys (d.pageSlot c) with | some k => k.key | none => 0
    let h := rec_.length / 4096 % 2048 * 2 ^ 164 + j % 256 * 2 ^ 156 + c % 8 * 2 ^ 153 + 0x4854 * 2 ^ 16 + 3 * 2 ^ 8 + 1
    let (d, frame) := d.sealFrame c key h rec_
    d.memOp (.write a frame)

/-- SCAN_RECORD_COMMIT (R125, R127): the record of one facet, named by its logical number, is written, its header last. After the
last, the command completes, and the facets stay held or resume at the next beat boundary. -/
def execScanRecordCommit (comp facet : Nat) (s : State) : Host.Outcome State Fault Refusal :=
  onDev s fun x d =>
    match tget d.scans comp with
    | none => d
    | some k =>
      match d.scanJob k, k.heldAt with
      | some (j, b), some beat =>
        if !d.winchOn || !k.todo.contains facet then d
        else
          let rest := inRest k.dest
          let n := physFacet b.groups facet
          let f := d.facet n
          let (st, _) := if rest then d.keyStatus (d.pageSlot comp) none true else (Config.ok, 0)
          let phys := k.facets.map fun l => physFacet b.groups l
          if st ≠ Config.ok then
            { d with scans := terase d.scans comp, resume := phys.foldl sinsert d.resume }.answer x k.ring k.tag st
          else
            let (draw, d) := d.draw
            let body := scanBody f x.mem n draw k.withMem
            let g := digest32 body
            let h := scanHeader g (d.canopyOf comp).active.digest beat facet n k.withMem
            let a := k.dest + (k.facets.idxOf facet) * scanPitch k.withMem rest
            let d := d.storeRecord comp j a (leBytes 64 h ++ body)
              (k.withMem && x.mem.touchesWeight (n * 0x80000) 0x80000)
            let kept : Facet := { f with startExec := d.nominal f }
            let d : Dev := { d with scanned := d.scanned ++ [(leNat g, kept)] }
            let todo := k.todo.filter fun l => decide (l ≠ facet)
            if todo ≠ [] then { d with scans := tset d.scans comp { k with todo := todo } }
            else
              let d : Dev := { d with scans := terase d.scans comp
                                      resume := if k.keepHeld then d.resume else phys.foldl sinsert d.resume }
              d.answer x k.ring k.tag Config.ok
      | _, _ => d

/-- The record at an address: none where the frame of the resting tier does not verify (R126, R128). -/
def Dev.fetchRecord (d : Dev) (x : Ctx) (c a : Nat) (withMem tagOk : Bool) : Option (List Byte) :=
  let n := scanLen withMem
  if !inRest a then some (x.mem.bytes a n)
  else
    let h := leNat (x.mem.bytes a 64)
    let (st, key) := d.keyStatus (d.pageSlot c) none tagOk
    if st ≠ Config.ok ∨ bits h 31 16 ≠ 0x4854 ∨ bits h 15 8 ≠ 3 ∨ bits h 174 164 * 4096 ≠ n then none
    else some (cipher key (bits h 383 288) (x.mem.bytes (a + 128) n))

/-- Free values of a record's parts that have no stated layout (Table 3.15), by the record's DIGEST. -/
def scanFree (g i : Nat) : Nat := Config.unstated (g * 2 ^ 20 + i)

/-- An operand of a pass out of a record: how much of it has entered is the record's own matter. -/
def scanFeed (g i need : Nat) : Feed :=
  { have_ := (List.range (scanFree g i % (need + 1))).map fun k => BitVec.ofNat 8 (scanFree g (i + 16 + k)), need := need
    queue := if (scanFree g (i + 1)).testBit 0 then some (scanFree g (i + 2) % 8) else none
    keep := (scanFree g (i + 3)).testBit 0, more := (scanFree g (i + 4)).testBit 0 }

/-- A pass out of a record's array pipeline. -/
def scanPass (g i : Nat) : Pass :=
  let w := scanFree g i % 2 ^ 128
  { bank := scanFree g (i + 1) % 2, cmd := w, a := scanFeed g (i + 16) (aBytes w), b := scanFeed g (i + 65536) (bBytes w)
    rowMask := scanFree g (i + 2) % 2 ^ 16, colMask := scanFree g (i + 3) % 2 ^ 64 }

/-- The state of a facet that the record of a DIGEST this device has not written gives (assumption 94): what Table 3.15 lays out is read; the
control state, switch buffers and array pipeline are the record's too, but the manual gives their bytes no layout, so they are free. -/
def scanParse (rec_ : List Byte) (g : Nat) : Facet :=
  let lane (o : Nat) : Lane := BitVec.ofNat 32 (leNat ((rec_.drop o).take 4))
  let row (o : Nat) : List Lane := (List.range 64).map fun i => lane (o + 4 * i)
  let u (i : Nat) : Nat := scanFree g i
  let yes (i : Nat) : Bool := (u i).testBit 0
  let queue (o q : Nat) : List Flit :=
    ((List.range 64).map fun i =>
      (⟨leNat ((rec_.drop (o + 4096 * q + 64 * i)).take 64),
        leNat ((rec_.drop (0x1B000 + 128 * (if o = 0xB000 then q else q + 8) + 2 * i)).take 2)⟩ : Flit)).filter flitV
  let bank (o i : Nat) : Bank :=
    { acc := (List.range 16).map fun r => row (o + 256 * r), st := if yes i then .ready else .free, rowMask := u (i + 1) % 2 ^ 16
      colMask := u (i + 2) % 2 ^ 64, fp8 := yes (i + 3), sa := BitVec.ofNat 32 (u (i + 4)), sb := BitVec.ofNat 32 (u (i + 5))
      nextRow := u (i + 6) % 16 }
  let ready := (if yes 300 then [0] else []) ++ (if yes 320 then [1] else [])
  { Facet.reset with
    run := if u 0 % 3 = 0 then .idle else if u 0 % 3 = 1 then .running else .halted
    started := true, pc := u 1 % 2048, iter := u 2, startExec := u 2 + u 3, next := u 4 % 2048
    doneA := yes 5, doneV := yes 6, doneC := yes 7, issued := yes 8, counted := yes 9, ended := yes 10, vrow := u 11 % 17
    vout := (List.range (u 12 % 5)).map fun i => ⟨u (13 + i) % 2 ^ 512, u (18 + i) % 2 ^ 16⟩
    vflags := u 30 % 8, curBank := u 31 % 2
    tregs := (List.range 128).foldl (fun t i => tset t i ⟨row (0x1000 + 256 * i), u (40 + i) % 2 ^ 64⟩) []
    bank0 := bank 0x9000 300, bank1 := bank 0xA000 320, drainQ := if yes 340 then ready else ready.reverse
    passes := (List.range (u 341 % 3)).map fun i => scanPass g (262144 * (i + 1))
    iq := (List.range 8).foldl (fun t q => tset t q (queue 0xB000 q)) []
    oq := (List.range 8).foldl (fun t q => tset t q (queue 0x13000 q)) []
    bufs := (List.range 5).foldl (fun t b => tset t b ((List.range (u (350 + b) % 25)).map fun i =>
      (u (400 + 100 * b + 3 * i) % 64, ⟨u (401 + 100 * b + 3 * i) % 2 ^ 512, u (402 + 100 * b + 3 * i) % 2 ^ 16⟩))) []
    s := (List.range 16).map fun i => BitVec.ofNat 64 (u (1000 + i))
    sIssue := (List.range 16).map fun i => BitVec.ofNat 64 (u (1020 + i))
    valid := (List.range 16).map fun i => u (1040 + i) % 65
    wins := (List.range 16).foldl (fun t w => tset t w ⟨u (1060 + w) % 65536, u (1080 + w) % 2 ^ 32, u (1100 + w) % 2 ^ 32, u (1120 + w) % 8⟩) []
    tileIssues := (List.range 64).foldl (fun t i => tset t i (u (1140 + i))) []
    credits := (List.range 8).foldl (fun t q => tset t q (u (1210 + q) % 256)) [] }

/-- A facet takes a record's state; its copies, epoch, counters and what is on its way to it stay its own. -/
def Facet.restore (f g : Facet) (startExec : Nat) : Facet :=
  { g with
    powered := f.powered, epoch := f.epoch, copy0 := f.copy0, copy1 := f.copy1, held := true, frozen := f.frozen
    poisonSeen := f.poisonSeen, startExec := startExec, arriving := f.arriving, creditFly := f.creditFly, cstall := f.cstall
    eccCe := f.eccCe, epochDisc := f.epochDisc, staleGrp := f.staleGrp, discGrp := f.discGrp }

/-- One facet's record is written back: state, and with MEM data, weight marks and poison bits (R128). -/
def Dev.scanBack (d : Dev) (n : Nat) (rec_ : List Byte) (withMem : Bool) : Dev :=
  let g := leNat (rec_.take 64) / 2 ^ 256
  let kept := match d.scanned.find? fun p => decide (p.1 = g) with | some p => p.2 | none => scanParse rec_ g
  let d := d.adjFacet n fun f => f.restore kept (d.execBeats - kept.startExec)
  if !withMem then d
  else
    let lo := n * 0x80000
    let d := d.memOp (.write lo ((rec_.drop 0x20000).take 0x80000))
    let marks := leNat ((rec_.drop 0x1F800).take 512)
    let poison := leNat ((rec_.drop 0xA0000).take 8192)
    let d := (maskBits 4096 marks).foldl (fun d i =>
      d.memOp (.writeMarked (lo + 128 * i) ((rec_.drop (0x20000 + 128 * i)).take 128))) d
    (maskBits 65536 poison).foldl (fun d i => d.memOp (.poisonWord (lo / 8 + i))) d

/-- SCAN_IN (R128, R305): held facets take their records back and resume at the next beat boundary. -/
def execScanIn (ring tag : Nat) (tagOk : Bool) (s : State) : Host.Outcome State Fault Refusal :=
  onDev s fun x d =>
    if (tget d.scans (d.ringComp ring)).isSome then d
    else d.runCmd x ring tag (fun e => decide (eOpcode e = 0x51)) fun e d =>
      let c := d.ringComp ring
      let src := efield e 16 8 % 2 ^ 49
      let withMem := (ebyte e 12).testBit 0
      match d.scanFacets e with
      | none => d.answer x ring tag Config.range
      | some (b, ls) =>
        let phys := ls.map fun l => physFacet b.groups l
        if !d.scanRange c src ls.length withMem then d.answer x ring tag Config.accessDenied
        else if phys.any fun n => !(d.facet n).held then d.answer x ring tag Config.range
        else
          let recs := (List.range ls.length).map fun i =>
            d.fetchRecord x c (src + i * scanPitch withMem (inRest src)) withMem tagOk
          if recs.any Option.isNone then d.answer x ring tag Config.authFail
          else
            let recs := recs.filterMap id
            let image := leNat ((d.canopyOf c).active.digest.take 16) % 2 ^ 128
            let fits (p : List Byte × Nat × Nat) : Bool :=
              let h := leNat (p.1.take 64)
              decide (bits h 255 128 = image) && decide (bits h 63 48 = p.2.1) && decide (bits h 47 32 = p.2.2)
            let whole (r : List Byte) : Bool := decide (digest32 (r.drop 64) = (r.drop 32).take 32)
            if !(recs.zip (ls.zip phys)).all fits then d.answer x ring tag Config.range
            else if !recs.all whole then d.answer x ring tag Config.authFail
            else
              let d := (recs.zip phys).foldl (fun d p => d.scanBack p.2 p.1 withMem) d
              { d with resume := phys.foldl sinsert d.resume }.answer x ring tag Config.ok

/-- At a beat boundary the hold of facets whose scan is over ends (R127, R128). -/
def Dev.resumeScans (d : Dev) : Dev :=
  { d.resume.foldl (fun d n => d.adjFacet n fun f => { f with held := false }) d with resume := [] }

/-! Memory controllers. -/

/-- REFRESH (R140): a unit's die reports a temperature that asks for a multiple of the base refresh rate; units 0 to 15 are GDDR7
devices, 16 to 23 packages. -/
def execRefresh (unit multiple : Nat) (s : State) : Host.Outcome State Fault Refusal :=
  onDev s fun _ d =>
    if !d.alive || !(decide (multiple = 1) || decide (multiple = 2) || decide (multiple = 4)) then d
    else if unit < 16 then d.setNum (0x4010 + unit) 4 multiple
    else if unit < 24 then d.setNum (0x4020 + (unit - 16)) 4 multiple
    else d

/-- PERIODIC_RETRAINING (R141): it takes time on the interfaces and changes nothing else; time on an interface is not in the model. -/
def execPeriodicRetraining (s : State) : Host.Outcome State Fault Refusal := onDev s fun _ d => d

/-- TRAINING_START (Table 14.2, R434): a Placed device whose reference is locked enters Training at a beat boundary. -/
def execTrainingStart (s : State) : Host.Outcome State Fault Refusal :=
  onDev s fun x d =>
    if d.alive && decide (d.state = .placed) && decide (x.time.ref = 0) then
      ({ d with state := .training }.adjBoot fun b => { b with trainFrom := x.time.beat, memFrom := none, memDone := false }).evalTraining x
    else d

/-- Beats of 500 ms, rounded up (R434). -/
def halfSecond : Nat := 488282

/-- At a beat boundary in Training: memory training starts once no enabled port is in state Training, or 500 ms after entry; LP_RESET_N
rises (R143, R434). -/
def Dev.startMemory (d : Dev) (x : Ctx) : Dev :=
  if d.state = .training ∧ d.boot.memFrom = none ∧
      ((List.range 16).all (fun p => !d.portOn p || decide ((d.port p).st ≠ .training)) = true ∨ d.boot.trainFrom + halfSecond ≤ x.time.beat) then
    (d.adjBoot fun b => { b with memFrom := some x.time.beat, lpResetLow := false }).emit (.pin "LP_RESET_N" false)
  else d

/-- MEMORY_TRAINING_DONE (R139, R266, R434): masks of the GDDR7 devices and packages that trained, of the packages of 96 GiB, and the
LPDDR5X rate in force. A unit that a scrub took out of service stays out until PORST_N. -/
def execMemoryTrainingDone (gddrOk lpOk densityOk rate : Nat) (s : State) : Host.Outcome State Fault Refusal :=
  onDev s fun x d =>
    if decide (d.state ≠ .training) || !d.alive || d.boot.memFrom.isNone || d.boot.memDone ||
        !([6400, 7500, 8533, 9600].contains rate) || decide (d.num 0x4000 4 < rate) then d
    else
      let d := (List.range 16).foldl (fun (d : Dev) g =>
        d.setNum (0x4010 + g) 5 (if d.outUnits.contains g then 3 else if gddrOk.testBit g then 1 else 3)) d
      let d := (List.range 8).foldl (fun (d : Dev) p =>
        let st := if d.outUnits.contains (16 + p) then 3 else if !lpOk.testBit p then 3 else if densityOk.testBit p then 1 else 4
        let d := d.setNum (0x4020 + p) 5 st
        if st = 1 then d else d.alert 1) d
      let up := ((List.range 8).filter fun p => decide (d.num (0x4020 + p) 5 = 1)).length
      let d := ((d.setNum 0x4000 2 (0x1800000000 * up)).setNum 0x4000 5 rate).setNum 0x4000 3 (Config.gddrRate d.profile)
      (d.adjBoot fun b => { b with memDone := true }).evalTraining x

end Sys2Proof.Machine
end

