-- ==== Sys2Proof/Machine/Groups.lean ====
section
/-!
DEFINITION. Commit groups (R316 to R327, R478): what an entry is checked against when it is staged, the rules of the owning chapters
on the combined values at the grant and at the commit point, and what an entry does when it applies.
-/

namespace Sys2Proof.Machine

/-! Entries as values (Table 10.1, Table 10.2). -/

/-- Is type code ty one of a fixed number of bytes, and how many? -/
def typeBytes (ty : Nat) : Option Nat :=
  match ty with
  | 1 | 2 => some 1
  | 3 => some 2
  | 4 | 6 | 7 => some 4
  | 5 | 8 => some 8
  | _ => none

/-- Valid UTF-8: bytes still to come in a character, and the bounds of the next one. -/
def utf8Ok : List Byte → Nat → Nat → Nat → Bool
  | [], k, _, _ => decide (k = 0)
  | b :: bs, 0, _, _ =>
    let v := b.toNat
    if v < 0x80 then utf8Ok bs 0 0 0
    else if v < 0xC2 then false
    else if v < 0xE0 then utf8Ok bs 1 0x80 0xBF
    else if v = 0xE0 then utf8Ok bs 2 0xA0 0xBF
    else if v = 0xED then utf8Ok bs 2 0x80 0x9F
    else if v < 0xF0 then utf8Ok bs 2 0x80 0xBF
    else if v = 0xF0 then utf8Ok bs 3 0x90 0xBF
    else if v < 0xF4 then utf8Ok bs 3 0x80 0xBF
    else if v = 0xF4 then utf8Ok bs 3 0x80 0x8F
    else false
  | b :: bs, k + 1, lo, hi => decide (lo ≤ b.toNat) && decide (b.toNat ≤ hi) && utf8Ok bs k 0x80 0xBF

/-- Is a number in an object's Range? -/
def Rng.okNum (r : Rng) (n : Nat) : Bool :=
  match r with
  | .span lo hi => decide (lo ≤ n) && decide (n ≤ hi)
  | .spanOr lo hi o => (decide (lo ≤ n) && decide (n ≤ hi)) || decide (n = o)
  | .oneOf vs => vs.contains n
  | .multiple k lo hi => decide (n % k = 0) && decide (lo ≤ n) && decide (n ≤ hi)
  | .pow2 lo hi => decide (lo ≤ n) && decide (n ≤ hi) && decide (2 ^ n.log2 = n)
  | .aperture => decide (n = 0) || (decide (n % 2 ^ 32 = 0) && decide (0x100000000000 ≤ n) && decide (n ≤ 0x10BC00000000))
  | .len _ _ => true

/-- Is a length in an object's Range? -/
def Rng.okLen (r : Rng) (n : Nat) : Bool :=
  match r with
  | .len lo hi => decide (lo ≤ n) && decide (n ≤ hi)
  | _ => true

/-- Bytes as a value of a row's type. -/
def ObjRow.value (r : ObjRow) (bs : List Byte) : Val := if r.ty ≤ 8 then .num (leNat bs) else .bytes bs

/-- A value as the bytes of Table 10.1; a byte string shorter than a fixed length is filled with zeros. -/
def ObjRow.wire (r : ObjRow) (v : Val) : List Byte :=
  match v, typeBytes r.ty with
  | .num n, some k => leBytes k n
  | .num n, none => leBytes 8 n
  | .bytes b, _ => (match r.rng with | .len lo _ => b ++ List.replicate (lo - b.length) 0 | _ => b)

/-- The bytes an entry writes; none where a BLOB has a gap (R323). -/
def Entry.data (e : Entry) : Option (List Byte) := match e.total with | some n => coverBytes n e.pieces | none => some e.value

/-- Is an entry an action? -/
def Entry.act (e : Entry) : Bool := decide (e.kind = 2)

/-! Access (R6, R317, R346, R347, R349, R451). -/

/-- Does a role hold the read right? -/
def mayRead (acc role : Nat) : Bool := acc.testBit (5 - 2 * role)
/-- Does a role hold the write right? -/
def mayWrite (acc role : Nat) : Bool := acc.testBit (4 - 2 * role)
/-- Does any role hold the read right? -/
def anyRead (acc : Nat) : Bool := acc.testBit 5 || acc.testBit 3 || acc.testBit 1
/-- Does any role hold the write right? -/
def anyWrite (acc : Nat) : Bool := acc.testBit 4 || acc.testBit 2 || acc.testBit 0

/-- The compartment that an index belongs to, if it is one of the objects indexed + c, or + j of a job that is not Ended (R347). -/
def Dev.objComp (d : Dev) (i : Nat) : Option Nat :=
  match [0x2030, 0x2310, 0x2460, 0x4060, 0x4100, 0x4200, 0x5100, 0x7010].find? fun b => decide (b ≤ i) && decide (i < b + 8) with
  | some b => some (i - b)
  | none =>
    match [0x2280, 0x3440, 0x5000, 0x5200, 0x5300, 0x5340, 0x5400, 0x5440, 0x54C0].find? fun b => decide (b ≤ i) && decide (i < b + 64) with
    | some b => (match tget d.jobs (i - b) with | some j => if j.st = .ended then none else some j.comp | none => none)
    | none => none

/-- Does the compartment mask of a session let an access to a compartment through (R347)? -/
def maskOk (mask : Nat) (c : Option Nat) : Bool := match c with | some k => mask.testBit k | none => true

/-- Is a permit of a kind in force? -/
def Dev.permitOf (d : Dev) (kind : Nat) : Bool := d.permits.any fun p => decide (p.2.kind = kind)

/-- The life-cycle and permit conditions on a write that the Access column grants (Table 11.1, R346, R451). -/
def Dev.writeOpen (d : Dev) (x : Ctx) (role i s : Nat) : Bool :=
  let lc := x.fuse.lifecycle
  let early := decide (lc ≤ 1)
  let gustParam := decide (i = 0x6000) && (decide (s = 1) || (decide (5 ≤ s) && decide (s ≤ 0x1A)))
  let makerOnly := (decide (i = 0x1310) && [1, 4, 7, 8].contains s) || decide (i = 0x1330 ∧ s = 3) || (decide (i = 0x1400) && decide (s ≤ 2))
  if i = 0x8000 ∧ s = 3 then decide (lc = 0)
  else if role = 2 ∧ makerOnly = true then early
  else if role = 2 ∧ lc = 4 then decide (i = 0x1330)
  else if i = 0x1310 ∧ s = 1 ∧ role = 1 then decide (lc = 2)
  else if gustParam ∧ lc = 2 then d.permitOf (if role = 1 then 2 else 1)
  else true

/-- The status of a read of an object (R317, R6, R347). -/
def Dev.readStatus (d : Dev) (role mask i s : Nat) : Nat :=
  match objRow i s with
  | none => Config.range
  | some r =>
    if !mayRead r.access role || !maskOk mask (d.objComp i) then Config.accessDenied else Config.ok

/-- The status of a write's name: object, role, mask, conditions. -/
def Dev.writeStatus (d : Dev) (x : Ctx) (role mask i s : Nat) : Nat :=
  match objRow i s with
  | none => Config.range
  | some r =>
    if !anyWrite r.access then Config.readOnly
    else if !mayWrite r.access role || !maskOk mask (d.objComp i) || !d.writeOpen x role i s then Config.accessDenied
    else Config.ok

/-- The operand bytes of an action (Table 10.3, R371, R372). -/
def actBytes (code : Nat) : Nat := match code with | 1 => 40 | 2 => 5 | 3 => 1 | 4 => 16 | _ => 0

/-- The status of an action when it is staged: roles of Table 11.1, operands, and for a teardown the compartment's state (R372). -/
def Dev.actStatus (d : Dev) (role mask code : Nat) (v : List Byte) : Nat :=
  let c := leNat (v.take 1)
  if code = 0 ∨ 4 < code ∨ v.length < actBytes code ∨ 7 < c then Config.range
  else if role = 2 ∨ (role = 0 ∧ (3 ≤ code ∨ !mask.testBit c)) then Config.accessDenied
  else if code = 4 ∧ 2 < leNat ((v.drop 1).take 1) then Config.range
  else if code = 3 ∧ d.compState c ≠ 1 then Config.range
  else Config.ok

/-- The status of an entry when it is staged (R317, R321, R333). -/
def Dev.entryStatus (d : Dev) (x : Ctx) (role mask : Nat) (enc : Bool) (e : Entry) : Nat :=
  match e.kind with
  | 2 => d.actStatus role mask e.index e.value
  | 0 | 1 =>
    let st := d.writeStatus x role mask e.index e.sub
    if st ≠ Config.ok then st
    else match objRow e.index e.sub with
      | none => Config.range
      | some r =>
        if r.ty = 0x0A then Config.range
        else if r.ty = 0x0B then
          if !enc || decide (e.value.length ≠ 88) then Config.range else if !e.keyOk then Config.authFail else Config.ok
        else if r.ty = 0x09 then (if 64 < e.value.length ∨ utf8Ok e.value 0 0 0 = false then Config.range else Config.ok)
        else match typeBytes r.ty with
          | some k =>
            if e.value.length ≠ k ∨ (r.ty = 1 ∧ 1 < leNat e.value) ∨ r.rng.okNum (leNat e.value) = false then Config.range else Config.ok
          | none => Config.range
  | _ => Config.range

/-! Composition (R322). -/

/-- The class of an entry: 0 I, 1 B, 2 S, 3 D; every action is S (Table 10.3). -/
def Entry.cls (e : Entry) : Nat := if e.act then 2 else match objRow e.index e.sub with | some r => r.cls | none => 0

/-- The owner of an S entry: its job, or 64 + the compartment of an action (R31, R322). -/
def Entry.owner (e : Entry) : Nat :=
  if e.act then 64 + leNat (e.value.take 1)
  else match objRow e.index e.sub with | some r => e.index - r.base | none => 0

/-- Does a list of entries keep the rules of R322? -/
def composed (es : List Entry) : Bool :=
  let ss := es.filter fun e => decide (e.cls = 2)
  !(decide (0 < ss.length) && es.any fun e => decide (e.cls = 3)) && decide ((es.filter Entry.act).length ≤ 1) &&
    (match ss with | a :: r => r.all fun e => decide (e.owner = a.owner) | [] => true)

/-- The class of a group: its latest entry class. -/
def classOf (es : List Entry) : Nat := es.foldl (fun n e => max n e.cls) 0

/-- The action of a group. -/
def Group.action (g : Group) : Option Entry := g.entries.find? Entry.act

/-- Does a group write the transition request, so that its commit point is the fuse write's completion (R355)? -/
def Group.fuses (g : Group) : Bool := g.entries.any fun e => !e.act && decide (e.index = 0x1300) && decide (e.sub = 2)

/-! The rules of the owning chapters (R323, R324). -/

/-- The bytes of a value without its reserved fields, which read as 0 (R4): wiring plan (Table 8.6), pass records (R272), image signers (R360). -/
def cleanBlob (base sub : Nat) (bs : List Byte) : List Byte :=
  let each (n : Nat) (f : Nat → Nat) : List Byte := (List.range (ceilDiv bs.length n)).flatMap fun i =>
    let b := (bs.drop (n * i)).take n
    leBytes b.length (f (leNat b))
  match base, sub with
  | 0x2000, 6 => each 32 fun e => e / 2 ^ 147 * 2 ^ 147
  | 0x2100, 1 => each 16 fun e => e / 2 ^ 44 * 2 ^ 44
  | 0x4100, 0x0D => each 40 fun e => e % 2 ^ 264
  | _, _ => bs

/-- What an object will hold once the group's entries apply. -/
def Dev.after (d : Dev) (es : List Entry) (i s : Nat) : Val :=
  es.foldl (fun v e =>
    if e.act = false ∧ e.index = i ∧ e.sub = s then
      (match objRow i s with | some r => r.value (cleanBlob r.base s (e.data.getD [])) | none => v)
    else v) (d.obj i s)

/-- A number an object will hold. -/
def Dev.afterNum (d : Dev) (es : List Entry) (i s : Nat) : Nat := match d.after es i s with | .num n => n | .bytes _ => 0

/-- Does a group write an object? -/
def writes (es : List Entry) (i s : Nat) : Bool := es.any fun e => !e.act && decide (e.index = i) && decide (e.sub = s)

/-- The status of a transition request (Table 11.5). -/
def Dev.lifeStatus (d : Dev) (x : Ctx) (role n : Nat) : Nat :=
  let f := x.fuse
  let free := (List.range 8).all fun c => decide (d.compState c = 0)
  let roots := decide (d.obj 0x1310 1 ≠ .bytes []) && (d.blob 0x1310 1).any fun b => decide (b ≠ 0)
  let ready := f.uds.isSome && (d.blob 0x1330 3).any (fun b => decide (b ≠ 0)) && roots && f.signers.any fun s => decide (s.2 = 1)
  if d.boot.fuseTarget.isSome then Config.busy
  else if n ≠ 4 ∧ 16 ≤ f.transitions then Config.range
  else match f.lifecycle, role, n with
    | 0, 2, 1 => if ready then Config.ok else Config.range
    | 1, 1, 2 => Config.ok
    | 2, 1, 3 => if free then Config.ok else Config.busy
    | 3, 2, 1 => Config.ok
    | 0, 2, 4 => Config.ok
    | 1, 2, 4 => Config.ok
    | 3, 2, 4 => Config.ok
    | 2, 1, 4 => if free then Config.ok else Config.busy
    | _, _, _ => Config.range

/-- The status of a permit (R349, Table 11.3). -/
def Dev.permitStatus (d : Dev) (x : Ctx) (bs : List Byte) (sigOk : Bool) : Nat :=
  let f (o n : Nat) : Nat := leNat ((bs.drop o).take n)
  let roots := d.blob 0x1310 1
  let issuer := digest32 ((bs.drop 64).take 57)
  if bs.length ≠ 242 ∨ f 0 4 ≠ 0x544D5250 ∨ f 4 1 < 1 ∨ 2 < f 4 1 ∨ f 24 4 < 1 ∨ 1024 < f 24 4 ∨ (f 4 1 = 2 ∧ f 32 32 ≠ 0) then Config.range
  else if 4 ≤ d.permits.length then Config.busy
  else if f 8 8 ≠ x.fuse.number ∨ f 16 8 ≠ d.num 0x1340 3 ∨ sigOk = false ∨
      ((List.range 4).all fun i => decide ((roots.drop (32 * i)).take 32 ≠ issuer)) then Config.authFail
  else Config.ok

/-- Has every facet-program start, circuit and Bridle plan of a job a place in another profile (R116, R270, R379)? The sub-code of the
first that has not. -/
def Dev.profileFault (d : Dev) (b : Job) (p : Nat) : Option Nat :=
  let k := d.canopyOf b.comp
  let i := if b.info.digest ≠ [] then b.info else if b.passed then k.shadow else ImageInfo.none
  let lanes := match Config.profileLanes p with | some n => n | none => 16
  if !(hProfiles b.header).testBit p then some 0x0006
  else if i.statics.any fun s => decide (Config.cyclesPerBeat p < s) then some 0x0013
  else if i.circuits.any fun r => decide (popCount 64 (crSlots r) * Config.flitsPerSlot p * crPeriod r < crFpp r) then some 0x0017
  else if lanes < i.bridleLanes then some 0x001E
  else none

/-- The first job that refuses a profile, with its sub-code. -/
def Dev.profileRefusal (d : Dev) (p : Nat) : Option (Nat × Nat) :=
  (d.jobs.filter fun q => decide (q.2.st ≠ .ended)).findSome? fun q => (d.profileFault q.2 p).map fun s => (q.1, s)

/-- Has a profile group been granted whose Round boundary has not come? -/
def Dev.profileGranted (d : Dev) : Bool :=
  d.groups.any fun g => decide (g.2.st = .granted) && writes g.2.entries 0x3000 1

/-- The status of a Moored request 1 (R395). -/
def Dev.mooredStatus (d : Dev) : Nat :=
  let jobs := d.jobs.filter fun p => decide (p.2.st ≠ .ended)
  if d.state ≠ .ready ∧ d.state ≠ .serving then Config.busy
  else if !d.reqs.isEmpty || jobs.any (fun p => decide (p.2.st ≠ .running) ||
      (p.2.spar && (p.2.step.toList ++ p.2.staged.toList).any fun s => s.origin.isSome)) then Config.busy
  else if d.canopy.any (fun k => [1, 3, 4].contains k.2.st.code) || (List.range 8).any (fun c => decide (d.compState c = 2)) ||
      !d.passRecs.isEmpty || !d.scans.isEmpty || d.facets.any (fun f => f.2.held) || d.profileGranted ||
      d.ballast.profChange.isSome then Config.busy
  else if 256 < d.residents then Config.noResource
  else Config.ok

/-- The status of creating a compartment with the masks the group leaves (R363). -/
def Dev.createStatus (d : Dev) (es : List Entry) (c : Nat) : Nat :=
  let m (s : Nat) : Nat := d.afterNum es (0x4100 + c) s
  let others := (List.range 8).filter fun k => decide (k ≠ c) && d.compHolds k
  let taken := others.any fun k => [2, 3, 4, 5, 6].any fun s => decide (Nat.land (m s) (d.num (0x4100 + k) s) ≠ 0)
  let out := ((maskBits 16 (m 3)).any fun g => decide (d.num (0x4010 + g) 5 = 3)) ||
    ((maskBits 8 (m 4)).any fun p => decide (3 ≤ d.num (0x4020 + p) 5))
  if d.compState c ≠ 0 then Config.busy
  else if taken || out then Config.noResource
  else if popCount 8 (m 2) < 1 ∨ popCount 16 (m 3) < 2 ∨ popCount 8 (m 4) < 1 ∨ popCount 32 (m 5) < 1 ∨ popCount 64 (m 6) < 3 then
    Config.range
  else Config.ok

/-- The status of a wrapped key record (R368, R370): no wrap key, a retired wrap slot (Table 11.9), the tag, a WSID under lift, a full store. -/
def Dev.keyLoadStatus (d : Dev) (c : Nat) (rec_ : List Byte) (tagOk secret : Bool) : Nat :=
  let w := leNat (rec_.take 8)
  let k := d.comp c
  let gone := (d.slotsOf c).head?.any fun s => (tget d.keys s).any fun k => decide (k.kind = 5)
  if d.compState c ≠ 1 ∨ k.kw = none then Config.range
  else if gone then Config.keyRetired
  else if secret = true ∧ w ≠ 0 then Config.range
  else if !tagOk then Config.authFail
  else if secret then Config.ok
  else match tget k.store w with
    | some _ => if d.liftUses c w then Config.busy else Config.ok
    | none => if 16384 ≤ d.storeCount then Config.busy else Config.ok

/-- Pass records as words (R272). -/
def passWords (bs : List Byte) : List Nat := (List.range (bs.length / 16)).map fun i => leNat ((bs.drop (16 * i)).take 16)

/-- The status of a new set of pass records (R272): an OUTSLOT held by a job, or named twice. -/
def Dev.passStatus (d : Dev) (bs : List Byte) : Nat :=
  let ws := passWords bs
  let outs := ws.map fun r => (prOutPort r, prOutSlot r)
  if bs.length % 16 ≠ 0 then Config.range
  else if ws.any (fun r => ((d.port (prOutPort r)).slot (prOutSlot r)).testBit 63) || decide (outs.eraseDups.length ≠ outs.length) then
    Config.slotConflict
  else Config.ok

/-- A rejoin record (Table 13.4): job tag, the ranks replaced with their new device numbers, the source rank, the new route table. -/
def parseRejoin (bs : List Byte) (slice : Nat) : Option (List (Nat × Nat) × Nat × RouteTable) :=
  let l := leNat ((bs.drop 8).take 2)
  let subs := (List.range l).map fun i => (leNat ((bs.drop (16 + 16 * i)).take 2), leNat ((bs.drop (24 + 16 * i)).take 8))
  if bs.length < 16 + 16 * l ∨ 16 < l ∨ subs.any (fun p => decide (slice ≤ p.1)) then none
  else match parseRoutes (bs.drop (16 + 16 * l)) slice with
    | some t => if t.tag = leNat (bs.take 8) then some (subs, leNat ((bs.drop 10).take 2), t) else none
    | none => none

/-- The status of a rejoin record (R408). -/
def Dev.rejoinStatus (d : Dev) (j : Nat) (bs : List Byte) : Nat :=
  match tget d.jobs j with
  | none => Config.range
  | some b =>
    if b.st ≠ .faulted then Config.range
    else match parseRejoin bs b.slice with
      | none => Config.range
      | some (subs, _, t) =>
        let mem := subs.foldl (fun m (p : Nat × Nat) => lset m p.1 p.2) b.members
        if (jobSlots t mem b.info.bridle b.rank ++ (if t.mask = 0 then [] else formSlots t b.rank)).any fun s => d.slotTaken j s.1 s.2.1 then
          Config.slotConflict
        else Config.ok

/-- The status of arming gust (R451, R453). -/
def Dev.armStatus (d : Dev) (x : Ctx) (role : Nat) (es : List Entry) : Nat :=
  let v (s : Nat) : Nat := d.afterNum es 0x6000 s
  let lc := x.fuse.lifecycle
  let open_ := if role = 1 then decide (lc = 2) && d.permitOf 2 else if role = 2 then decide (lc ≤ 1) || decide (lc = 3) || (decide (lc = 2) && d.permitOf 1) else false
  let a := v 0x17
  let last := a + 8 * (v 0x19 - 1)
  let inside (a : Nat) : Bool := match v 0x16, regionOf a with
    | 1, .facet _ => true
    | 2, .gddr _ => true
    | 3, .lp _ => true
    | _, _ => false
  if !open_ then Config.accessDenied
  else if d.state = .moored ∨ d.state = .stopped then Config.busy
  else if v 0x0C < v 0x0B ∨ (v 0x18 ≠ 1 ∧ v 0x18 ≠ 2) ∨ (v 0x16 ≠ 0 ∧ (a % 8 ≠ 0 ∨ inside a = false ∨ inside last = false)) then Config.range
  else Config.ok

/-- The rule of the owning chapter on one entry, its bytes and the group's combined values. -/
def Dev.entryRule (d : Dev) (x : Ctx) (g : Group) (e : Entry) (bs : List Byte) : Nat :=
  let es := g.entries
  let n := leNat bs
  let i := e.index
  let s := e.sub
  let notEnded := d.jobs.any fun p => decide (p.2.st ≠ .ended)
  if e.act then
    let c := leNat (bs.take 1)
    let k := d.canopyOf c
    match i with
    | 1 => if g.st = .granted ∨ (k.st = .shadowValid ∧ k.shadow.digest = (bs.drop 8).take 32 ∧ d.shadowsValid (leNat (bs.take 1)) = true) then Config.ok
      else Config.commitFailed
    | 2 =>
      if g.st = .granted then Config.ok
      else match tget (d.catalog c).entries (leNat ((bs.drop 2).take 2)) with
       | none => Config.range
       | some en =>
         if d.compState c ≠ 1 ∨ !(decide (en.a.role = 2) || decide (en.b.role = 2)) then Config.range
         else if en.swap ≠ none then Config.busy else Config.ok
    | 3 => if d.compState c = 1 then Config.ok else Config.range
    | _ => Config.ok
  else
    let b := match objRow i s with | some r => r.base | none => i
    let c := i - b
    match b, s with
    | 0x1200, 1 | 0x1200, 2 => if d.afterNum es 0x1200 1 = 1 ∧ d.afterNum es 0x1200 2 = 255 then Config.range else Config.ok
    | 0x1300, 2 => if g.st = .granted then Config.ok else d.lifeStatus x g.role n
    | 0x1310, 7 => if x.fuse.signers.any (fun p => decide (p.2 = 0)) then Config.ok else Config.busy
    | 0x1310, 8 =>
      if (List.range 4).any fun k => decide (k ≠ n) && decide ((x.fuse.signers.getD k ([], 0)).2 = 1) then Config.ok else Config.range
    | 0x1340, 1 => d.permitStatus x bs e.valueSig
    | 0x2000, _ =>
      let place := (List.range 5).any fun k => d.after es 0x2000 (k + 1) ≠ d.obj 0x2000 (k + 1)
      let old := d.blob 0x2000 6
      let new := match d.after es 0x2000 6 with | .bytes v => v | .num _ => []
      let moved := (List.range 16).any fun p =>
        decide (leNat ((new.drop (32 * p)).take 32) ≠ leNat ((old.drop (32 * p)).take 32)) &&
        d.legs.any fun l => match tget d.routes (l.1 / 4096), tget d.jobs (l.1 / 4096) with
          | some r, some jb => legUses r.tree jb.rank l.2 p
          | _, _ => false
      if d.state ≠ .ready ∧ d.state ≠ .serving ∧ d.state ≠ .moored then Config.ok
      else if (place && notEnded) || moved then Config.busy else Config.ok
    | 0x2100, 1 => d.passStatus bs
    | 0x2410, 7 => Config.ok
    | 0x2410, 8 | 0x2410, 9 | 0x2410, 0x0D => if d.num i 7 = 1 then Config.busy else Config.ok
    | 0x2410, 1 | 0x2410, 2 | 0x2410, 3 | 0x2410, 4 | 0x2410, 5 | 0x2410, 6 => if d.num i 7 = 1 then Config.busy else Config.ok
    | 0x3000, 1 =>
      if d.state = .moored then Config.busy else if (d.profileRefusal n).isSome then Config.range else Config.ok
    | 0x3100, 1 => if g.role = 0 ∧ d.afterNum es 0x3100 7 < n then Config.range else Config.ok
    | 0x3400, 1 => if n = 1 then d.mooredStatus else Config.ok
    | 0x3440, 1 =>
      let top := match tget d.jobs c with | some jb => if jb.st = .ended then 0 else 128 * hColGroups jb.header | none => 0
      if n < 2 ^ top then Config.ok else Config.range
    | 0x4060, _ => if d.afterNum es i 1 + d.afterNum es i 2 + d.afterNum es i 3 = 32 then Config.ok else Config.range
    | 0x4100, 2 | 0x4100, 3 | 0x4100, 4 | 0x4100, 5 | 0x4100, 6 => if d.compState c = 0 then Config.ok else Config.busy
    | 0x4100, 7 => d.createStatus es c
    | 0x4100, 0x0A =>
      if d.compState c ≠ 1 ∧ writes es i 7 = false then Config.range
      else if d.obj i 0x0A ≠ .bytes [] ∧ d.compState c = 1 then Config.busy
      else if !e.valueSig then Config.authFail else Config.ok
    | 0x4100, 0x0D => if bs.length % 40 = 0 then Config.ok else Config.range
    | 0x4100, 0x0E => d.keyLoadStatus c bs e.valueSig false
    | 0x4100, 0x0F => d.keyLoadStatus c bs e.valueSig true
    | 0x4100, 0x13 =>
      if d.compState c = 3 ∧ bs.length % 8 = 0 ∧ digest32 bs = d.blob i 0x12 then Config.ok else Config.range
    | 0x4200, 1 => if d.jobs.any (fun p => decide (p.2.comp = c) && decide (p.2.st = .running)) then Config.busy else Config.ok
    | 0x4200, 2 | 0x4200, 3 =>
      let k := d.afterNum es i 2
      if k ≠ 0 ∧ k < d.afterNum es i 3 + 1 then Config.range else Config.ok
    | 0x4200, 5 | 0x4200, 6 =>
      let k := d.afterNum es i 2
      let len := d.afterNum es i 6
      let a := d.afterNum es i 5
      if k ≠ 0 ∧ len ≠ 0 ∧ !((match regionOf a with | .lp _ => true | _ => false) && d.owns c a len) then Config.range else Config.ok
    | 0x5340, 1 =>
      (match tget d.jobs c with | some jb => if jb.st = .ended then Config.ok else Config.busy | none => Config.ok)
    | 0x5340, 3 => if bs = [] then Config.ok else d.rejoinStatus c bs
    | 0x1400, 1 =>
      if 2 ≤ d.boot.install ∧ d.boot.install ≤ 4 then Config.busy
      else if fwCheck x.fuse bs e.valueSig ≠ 0 then Config.authFail else Config.ok
    | 0x1400, 2 =>
      if 2 ≤ d.boot.install ∧ d.boot.install ≤ 4 then Config.busy else if d.boot.install = 1 then Config.ok else Config.range
    | 0x1410, 5 => if d.journal.compact ≠ 0 then Config.busy else Config.ok
    | 0x6000, 2 => if n = 0 then Config.ok else d.armStatus x g.role es
    | 0x6000, 0x1B => Config.ok
    | 0x6000, 0x1C => if d.state = .stopped then Config.ok else Config.busy
    | 0x6000, _ => if d.gust.armed then Config.busy else Config.ok
    | _, _ => Config.ok

/-- The first entry that breaks a rule, with its number from 1: an incomplete or overlong BLOB, or a rule of its owning chapter. -/
def Dev.groupFault (d : Dev) (x : Ctx) (g : Group) : Option (Nat × Nat) :=
  (List.range g.entries.length).findSome? fun k =>
    match g.entries[k]? with
    | none => none
    | some e =>
      match e.data with
      | none => some (Config.commitFailed, k + 1)
      | some bs =>
        let key := !e.act && (match objRow e.index e.sub with | some r => decide (r.ty = 0x0B) | none => false)
        let st := d.entryRule x g e (if key then bs.take 72 else bs)
        if st = Config.ok then none else some (st, k + 1)

/-- The first entry whose guard does not hold (R324). -/
def Dev.guardFault (d : Dev) (g : Group) : Option (Nat × Nat) :=
  (List.range g.entries.length).findSome? fun k =>
    match g.entries[k]? with
    | some e =>
      if e.kind ≠ 1 then none
      else match objRow e.index e.sub with
        | some r => if r.wire (d.obj e.index e.sub) = e.guard then none else some (Config.commitFailed, k + 1)
        | none => none
    | none => none

/-! What an entry does when it applies (R324, R30). -/

/-- Objects whose write acts and is not kept. -/
def unstored (b s : Nat) : Bool :=
  [(0x1300, 2), (0x1310, 7), (0x1310, 8), (0x1330, 1), (0x1340, 1), (0x1340, 4), (0x3100, 4), (0x4100, 0x0E), (0x4100, 0x0F),
   (0x1400, 1), (0x1400, 2), (0x1410, 5), (0x1410, 0x0C), (0x6000, 0x1C), (0x7010, 5), (0x8000, 3), (0x1000, 9)].contains (b, s)

/-- Does the condition of an alert cause hold now (Table 10.8)? Event causes have none. -/
def Dev.condHolds (d : Dev) (x : Ctx) (bit : Nat) : Bool :=
  match bit with
  | 0 => decide (x.time.ref = 1)
  | 1 => (List.range 8).any fun p => decide (3 ≤ d.num (0x4020 + p) 5)
  | 2 => (List.range 16).any fun p => decide (d.planResult p = 3)
  | 3 => decide (d.state = .training)
  | 4 => decide (d.num 0x1220 2 = 1)
  | 7 => d.ballast.leaseOut || d.ballast.brakeOn || d.ballast.capUnmet || decide (d.num 0x3500 0x0C ≠ 0)
  | 8 => decide (0 < d.num 0x3100 0x0A)
  | _ => false

/-- Writing 1 to alert causes clears those whose condition has ended (R344). -/
def Dev.clearAlerts (d : Dev) (x : Ctx) (n : Nat) : Dev :=
  (List.range 10).foldl (fun d i => if n.testBit i && !d.condHolds x i then d.unalert i else d) d

/-- A ring is enabled or disabled (R293). -/
def Dev.enableRing (d : Dev) (r n : Nat) : Dev :=
  let g := d.ring r
  if n = 0 then d.setRing r { g with st := 0 }
  else if g.st = 0 then d.setRing r { Ring.reset with st := 1 } else d

/-- The logical number of a facet in the job that holds or held it; 0 where none did (assumption 178). -/
def Dev.logical (d : Dev) (n : Nat) : Nat :=
  match d.jobs.find? fun p => decide (d.facetComp n = some p.2.comp) && p.2.groups.contains (groupOf n) with
  | some (_, b) => ((List.range (128 * b.groups.length)).find? fun l => decide (physFacet b.groups l = n)).getD 0
  | none => 0

/-- The capture of a Stopped device (R457, Tables 3.15 and 3.16; the beat of the hold is that of the fail-stop, assumption 178): scan records of the facets in the set, in ascending order, to 16 MiB at most, weight lines
withheld. -/
def Dev.capture (d : Dev) (x : Ctx) : Dev :=
  let set := leNat (d.blob 0x6000 0x1B)
  let ns := ((List.range 1024).filter fun n => set.testBit n).take 25
  let (draw, d) := d.draw
  let stopped := bits (leNat (d.blob 0x1020 2)) 511 448
  let out := ns.flatMap fun n =>
    let image := match d.facetComp n with | some c => (d.canopyOf c).active.digest | none => []
    let m := (List.range 4096).foldl (fun (m : MemSys) l =>
      if x.mem.lines.contains (n * 4096 + l) then m.setBytes (n * 0x80000 + 128 * l) (List.replicate 128 0) else m) x.mem
    let body := scanBody (d.facet n) m n draw true
    leBytes 64 (scanHeader (digest32 body) image stopped (d.logical n) n true) ++ body
  d.setObj 0x8000 4 (.bytes out)

/-- A survivor acts on a rejoin record (R408): slots that go are released, the new ones are reserved, members, routes, agreement delay
and the protection group's device numbers are taken over. Its confirmation says its epoch, last committed
step, whether an outcome is pending, and what is resident (R409). A record that replaces nobody lets the job go on (R412). -/
def Dev.rejoin (d : Dev) (x : Ctx) (j : Nat) (bs : List Byte) : Dev :=
  match tget d.jobs j with
  | none => d
  | some b =>
    match parseRejoin bs b.slice with
    | none => d
    | some (subs, src, t) =>
      let mem := subs.foldl (fun m (p : Nat × Nat) => lset m p.1 p.2) b.members
      let now := jobSlots t mem b.info.bridle b.rank ++ formSlots t b.rank
      let d := d.freeSlots fun e => decide (bits e 62 61 ≠ 1) && decide (bits e 60 55 = j)
      let d := d.holdSlots j b.comp now
      let enc := decide (d.num (0x2030 + b.comp) 1 ≠ 0)
      let fresh := makeLegs t mem b.info.bridle b.rank j enc x.time.beat
      let d := { d with
        legs := fresh.foldl (fun m (p : Nat × Leg) => tset m p.1 p.2) (tfilter d.legs fun k _ => decide (k / 4096 ≠ j))
        routes := tset d.routes j ⟨t.tag, t.mask, t.tree, t.entries, 0, longestPath t.tree (fun n => tgetD b.flights n 0), []⟩ }
      let grp := d.blob (0x4200 + b.comp) 1
      let nums := (List.range 16).map fun i => leNat ((grp.drop (8 * i)).take 8)
      let nums' := nums.map fun n => match subs.find? fun (p : Nat × Nat) => decide (b.members.getD p.1 0 = n) && decide (n ≠ 0) with
        | some p => p.2
        | none => n
      let d := if nums' = nums then d else d.setJ x (0x4200 + b.comp) 1 (.bytes (nums'.flatMap fun n => leBytes 8 n))
      let d := if b.iced then d else d.freeze x j
      let d := d.adjJob j fun b => { b with
        members := mem, failed := (subs.map Prod.fst).foldl sinsert [], imageRank := src, phase := .rejoining
        agree := agreement b.slice (longestPath t.tree fun n => tgetD b.flights n 0) }
      if subs ≠ [] then
        let last := if b.step.isSome then (b.serial + 65535) % 65536 else b.serial
        let resident := ((d.gens b.comp).filter fun r => decide (r.2.2.role ≠ 0) && decide (r.2.2.res = 2)).flatMap fun r => [r.1, r.2.2.gen]
        d.tell j 0 ([Config.ok, if (d.canopyOf b.comp).epoch then 1 else 0, last, if b.step.isSome then 1 else 0] ++ resident)
      else (d.adjJob j fun b => { b.discard with st := b.before, phase := .none }).resumeCheck x j

/-- One write takes effect. -/
def Dev.applyWrite (d : Dev) (x : Ctx) (g : Group) (e : Entry) (bs : List Byte) : Dev :=
  match objRow e.index e.sub with
  | none => d
  | some r =>
    let i := e.index
    let s := e.sub
    let n := leNat bs
    let c := i - r.base
    let bs := cleanBlob r.base s bs
    let v := r.value bs
    let old := d
    let d := if unstored r.base s then d else (d.bump i s v).setObj i s v
    match r.base, s with
    | 0x1000, 9 => d.clearAlerts x n
    | 0x1000, 0x0A => old.movePin d
    | 0x1200, _ =>
      if !portSubs.contains s then d
      else
        let d := d.writeBpb.adjBoot fun b => { b with phyDue := true }
        if 1 ≤ d.portState ∧ d.portState ≤ 3 then { d with portState := d.portMode } else d
    | 0x1310, 7 => d.eff (.fuse (.signer (lpad 32 0 bs)))
    | 0x1310, 8 => d.eff (.fuse (.revoke n))
    | 0x1330, 1 => { d with sessions := tadj d.sessions g.session fun q => { q with nonce := some (lpad 32 0 bs) } }
    | 0x1340, 1 =>
      let (k, d) := d.draw
      let f (o m : Nat) : Nat := leNat ((bs.drop o).take m)
      let d := { d with permits := tset d.permits d.nextPermit ⟨f 4 1, x.round + f 24 4, (bs.drop 32).take 32⟩, nextPermit := d.nextPermit + 1 }
      ((d.bump 0x1340 3 (.num (Config.random k % 2 ^ 64))).setNum 0x1340 3 (Config.random k % 2 ^ 64)).audit x g.session g.role 8 Config.ok
        0x1340 1 (if g.port then 0 else 1) 0 (f 4 1)
    | 0x1340, 4 => d.permits.foldl (fun d (p : Nat × Permit) => d.endPermit x p.1) d
    | 0x1400, 1 =>
      let d := (d.adjBoot fun b => { b with staged := some bs }).installAt x 1
      (d.setObj 0x1400 4 (.bytes (fwVersion bs))).setObj 0x1400 5 (.bytes (digest32 bs))
    | 0x1400, 2 => d.startInstall x
    | 0x1410, 5 => d.adjJournal fun j => { j with compact := 1, compactFrom := x.time.beat }
    | 0x1410, 0x0C => if d.journal.compact = 1 then d.adjJournal fun j => { j with compact := 0 } else d
    | 0x2100, 1 => { d with passRecs := passWords bs }
    | 0x2200, 0x15 => if n = 0 ∨ (d.port c).st = .disabled then d.portIdle x c else d
    | 0x2410, 7 => d.enableRing c n
    | 0x3000, 1 => d.startProfile n
    | 0x3100, 1 => d.startLease
    | 0x3100, 4 => d.adjBallast fun b => { b with renewNow := true }
    | 0x3100, 3 | 0x3100, 6 | 0x3100, 7 => d.capChanged
    | 0x3400, 1 => if n = 1 then d.enterMoored x else d.exitMoored x
    | 0x3500, 0x0C => if d.condHolds x 7 then d else d.unalert 7
    | 0x4100, 7 => d.createComp x c
    | 0x4100, 0x0A => d.setOwner x c
    | 0x4100, 0x0E => d.loadKey c bs
    | 0x4100, 0x0F => d.loadSecret c bs
    | 0x4100, 0x13 => d.freeComp x c
    | 0x4200, 2 | 0x4200, 3 | 0x4200, 4 | 0x4200, 5 | 0x4200, 6 =>
      -- a range under new parameters has no valid parity yet: every stripe is unprotected (R415)
      if d.num i 2 = 0 then { d with dirtySet := d.dirtySet.filter fun k => decide (k / 2 ^ 24 ≠ c), unprot := d.unprot.filter fun k => decide (k / 2 ^ 24 ≠ c) }
      else (List.range (d.num i 6 / 0x400000)).foldl (fun (d : Dev) k => { d with unprot := sinsert d.unprot (stripeKey c k), dirtySet := sinsert d.dirtySet (stripeKey c k) }) d
    | 0x5340, 3 => if bs = [] then d else d.rejoin x c bs
    | 0x6000, 2 =>
      if n = 0 then d.gustOff
      else d.gustOn x ((d.permits.find? fun (p : Nat × Permit) => decide (p.2.kind = if g.role = 1 then 2 else 1)).map Prod.fst)
    | 0x6000, 0x1C => d.capture x
    | 0x7010, 2 => { d with samp := tmod d.samp c ⟨false, 0, 0, []⟩ fun q => if n = 0 then { q with on := false } else if q.on then q else { q with on := true, from_ := x.time.beat } }
    | 0x7010, 5 => { d with samp := tadj d.samp c fun q => { q with samples := 0, bins := [] } }
    | 0x8000, 3 => let (k, d) := d.draw; d.eff (.fuse (.uds k))
    | _, _ => d

/-- The placement after a group of placement objects applied (R265): in Placed and Training every port returns to Idle, whatever the values, and the
device to Booting where an object is left unset (Table 14.2); else
where coordinates, board number or slot changed every port does, and from Ready or Serving the device is Placed again; where only plan entries
changed their ports do. -/
def Dev.placed (d : Dev) (x : Ctx) (old : Dev) : Dev :=
  let moved := (List.range 5).any fun k => decide (d.obj 0x2000 (k + 1) ≠ old.obj 0x2000 (k + 1))
  let ports := (List.range 16).filter fun p => decide (d.planEntry p ≠ old.planEntry p)
  let early := decide (d.state = .placed) || decide (d.state = .training)
  if !moved && !early && ports.isEmpty then d
  else
    let d := (if moved || early then List.range 16 else ports).foldl (fun d p => d.portIdle x p) d
    let d : Dev := if moved && (decide (d.state = .ready) || decide (d.state = .serving)) then { d with state := .placed }
      else if early && !d.placementSet then { d with state := .booting } else d
    (d.tryPlace x).evalTraining x

/-- In what order a group's entries apply: settings, then what they enable, then a key owner, whose key needs the key pair (R363). -/
def Entry.late (e : Entry) : Nat :=
  match objRow e.index e.sub with
  | some r => if (r.base = 0x4100 ∧ e.sub = 7) ∨ (r.base = 0x2410 ∧ e.sub = 7) then 1 else if r.base = 0x4100 ∧ e.sub = 0x0A then 2 else 0
  | none => 0

/-- Plain bytes of an entry: a KEY value's GCM tag does not belong to the value. -/
def Entry.plain (e : Entry) : List Byte :=
  match objRow e.index e.sub with
  | some r => if r.ty = 0x0B then (e.data.getD []).take 72 else e.data.getD []
  | none => []

/-- DATA of an entry's audit record (Table 11.4). -/
def Entry.auditData (e : Entry) : Nat :=
  if e.act then leNat (e.value.take 32)
  else match objRow e.index e.sub with
    | some r => if r.ty = 0x0B then 0 else if r.ty = 0x0A then leNat (digest32 e.plain) else leNat (e.plain.take 32)
    | none => 0

/-- Every entry takes effect at one point; entries of installer and maker sessions are audited (R324, R352). -/
def Dev.applyEntries (d : Dev) (x : Ctx) (n : Nat) (g : Group) : Dev :=
  let es := osort (fun a b => decide (a.late < b.late)) (g.entries.filter fun e => !e.act)
  let d' := es.foldl (fun d e => d.applyWrite x g e e.plain) d
  let d' := if es.any fun e => decide (e.index = 0x2000) then d'.placed x d else d'
  if g.role = 0 then d'
  else g.entries.foldl (fun d e => d.audit x g.session g.role 4 Config.ok e.index e.sub (if g.port then 0 else 1) n e.auditData) d'

/-- What the commit of an action does besides (Table 10.3): a teardown and a key retirement happen here; a reconfiguration's flip and a
swap have happened. -/
def Dev.applyAction (d : Dev) (x : Ctx) (g : Group) : Dev :=
  match g.action with
  | some e =>
    let c := leNat (e.value.take 1)
    if e.index = 3 then d.teardown x c
    else if e.index = 4 then d.retireKeys x c (leNat ((e.value.drop 1).take 1)) (leNat ((e.value.drop 8).take 8))
    else d
  | none => d

/-- The status that a group's COMMIT reports: the abort of a compaction says how it ended (R447). -/
def Dev.reportStatus (d : Dev) (g : Group) : Nat :=
  if writes g.entries 0x1410 0x0C then (if d.journal.compact = 1 then Config.aborted else Config.alreadyDone) else Config.ok

/-- The commit point of a granted group (R324): guards, rules that may have changed, then everything or nothing. -/
def Dev.commitGroup (d : Dev) (x : Ctx) (n : Nat) : Dev :=
  match tget d.groups n with
  | none => d
  | some g =>
    if g.st ≠ .granted then d
    else match d.guardFault g with
      | some (st, k) => d.finishGroup x n .failed st k
      | none => match d.groupFault x g with
        | some (st, k) => d.finishGroup x n .failed st k
        | none =>
          let st := d.reportStatus g
          ((d.applyEntries x n g).applyAction x g).finishGroup x n .committed st 0

/-- The J values of a group, as its grant record carries them (R325). -/
def Group.jvals (g : Group) : List (Nat × Val) :=
  g.entries.filterMap fun e => if e.act then none else
    match objRow e.index e.sub with
    | some r => if r.persist then some (okey e.index e.sub, r.value (cleanBlob r.base e.sub e.plain)) else none
    | none => none

/-- A profile group that a job refuses leaves the job and sub-code in 0x3000:04 (R379). -/
def Dev.noteRefusal (d : Dev) (g : Group) : Dev :=
  if writes g.entries 0x3000 1 && decide (d.state ≠ .moored) then
    match d.profileRefusal (d.afterNum g.entries 0x3000 1) with
    | some (j, sub) => d.setNum 0x3000 4 (j * 65536 + sub)
    | none => d
  else d

/-- The grant (R323): the rules hold and the journal has room. A fuse write starts; a CATALOG_SWAP action stages its swap. A group of
class I commits in the grant's beat (GROUP_COMMIT, or before the next beat boundary). -/
def Dev.grantGroup (d : Dev) (x : Ctx) (n : Nat) : Dev :=
  match tget d.groups n with
  | none => d
  | some g =>
    match d.groupFault x g with
    | some (st, k) => (d.noteRefusal g).finishGroup x n .failed st k
    | none =>
      let need := jbytes (.grant g.cls g.jvals) + jbytes (.marker 0 0)
      if logBytes < d.journal.used + need then (d.alert 6).finishGroup x n .failed Config.commitFailed 0
      else
        let d := { d with
          groups := tset d.groups n { g with st := .granted, grantBeat := x.time.beat, order := d.nextOrder, cls := classOf g.entries }
          nextOrder := d.nextOrder + 1 }.journal' x n (.grant (classOf g.entries) g.jvals)
        let d := match g.action with
          | some e =>
            let c := leNat (e.value.take 1)
            let w := leNat ((e.value.drop 2).take 2)
            if e.index = 2 then
              let k := d.catalog c
              d.setCatalog c { k with entries := tadj k.entries w fun en => { en with swap := some (2 ^ 40 + n) } }
            else d
          | none => d
        if g.fuses then { d with boot := { d.boot with fuseTarget := some (d.afterNum g.entries 0x1300 2) } } else d

/-- The numbers of the granted groups that satisfy a test, in the order of their grants. -/
def Dev.granted (d : Dev) (p : Group → Bool) : List Nat :=
  ((osort (fun (a b : Nat × Group) => decide (a.2.order < b.2.order)) (d.groups.filter fun g => decide (g.2.st = .granted) && p g.2)).map Prod.fst)

/-- Is a group of class S owned by a job, or by a compartment? -/
def Group.ownedBy (g : Group) (o : Nat) : Bool :=
  decide (g.cls = 2) && g.entries.any fun e => decide (e.cls = 2) && decide (e.owner = o)

/-- Does a group commit at the compartment boundary of R371: a teardown or a key retirement of compartment c? -/
def Group.boundaryOf (g : Group) (c : Nat) : Bool :=
  match g.action with | some e => decide (3 ≤ e.index) && decide (leNat (e.value.take 1) = c) | none => false

/-- Does a granted group wait for the compartment boundary of c (R371)? -/
def Dev.waitsBoundary (d : Dev) (c : Nat) : Bool := d.groups.any fun g => decide (g.2.st = .granted) && g.2.boundaryOf c

/-- FUSE_WRITE_DONE (R355, R357): a life-cycle transition's fuse write is complete. Its group commits, secrets are wiped, sessions
close, jobs end as at SYSRST_N, the device restarts. -/
def execFuseWriteDone (s : State) : Host.Outcome State Fault Refusal :=
  onDev s fun x d =>
    match d.boot.fuseTarget with
    | none => d
    | some t =>
      let d := { d with boot := { d.boot with fuseTarget := none } }.eff (.fuse (.lifecycle t))
      if d.boot.porstLow ∨ d.boot.stage ≠ .done then d else
      let x' : Ctx := { x with fuse := x.fuse.run (.lifecycle t) }
      let d := if t = 3 then ((d.setJ x 0x1310 2 (.bytes [])).setJ x 0x1310 3 (.num 0)).setJ x 0x1310 5 (.num 0)
        else if t = 1 ∧ x.fuse.lifecycle = 3 then (d.setJ x 0x1310 1 (.bytes [])).setJ x 0x1310 4 (.num 0) else d
      let d := d.audit x 0 0xFF 6 Config.ok 0x1300 2 0xFF 0 t
      let d := (d.granted Group.fuses).foldl (fun d n => d.commitGroup x n) d
      let d := { d with heldReplies := d.heldReplies.map fun (h : Nat × Reply) => if h.1 = 2 ^ 64 then (d.journal.next - 1, h.2) else h }
      let d := ((d.wipe x'.fuse).setNum 0x1300 5 1).audit x 0 0xFF 7 Config.ok 0 0 0xFF 0 1
      let d := d.sessions.foldl (fun (d : Dev) (p : Nat × Session) => d.closeSession x p.1) d
      if d.boot.sysrstLow then d.warm x' else (d.warm x').restart x' 2

/-- GROUP_IDLE_EXPIRY (R327): no STAGE, SEG_WRITE or COMMIT for the Rounds of 0x1100:07. -/
def execGroupIdleExpiry (group : Nat) (s : State) : Host.Outcome State Fault Refusal :=
  onDev s fun x d =>
    match tget d.groups group with
    | none => d
    | some g =>
      if d.pilotOn && decide (g.st = .opened) && decide (g.lastRound + d.num 0x1100 7 ≤ x.round) then
        d.finishGroup x group .aborted Config.aborted 0
      else d

/-- GROUP_COMMIT (R324): the commit point of a granted group of class I, in the beat of its grant. The groups of the other classes reach
theirs at their beat, step or Round boundary, at the flip, or at the fuse write's completion. -/
def execGroupCommit (group : Nat) (s : State) : Host.Outcome State Fault Refusal :=
  onDev s fun x d =>
    match tget d.groups group with
    | none => d
    | some g => if d.pilotOn && decide (g.st = .granted) && decide (g.cls = 0) && !g.fuses then d.commitGroup x group else d

end Sys2Proof.Machine
end

