-- ==== Sys2Proof/Machine/View.lean ====
section
/-!
DEFINITION. What objects read as (R7): a read-only object that reports the state of a block shows that state, every other object its
stored value; the attestation report and certificates of chapter 11.
-/

namespace Sys2Proof.Machine

/-- A byte string of fixed length from records. -/
def packed (n : Nat) (bs : List Byte) : Val := .bytes (lpad n 0 bs)

/-- The compartment of an owner object; 0xFF where none holds the unit. -/
def ownerVal (o : Option Nat) : Val := .num (o.getD 0xFF)

/-! Identity and attestation (R343, R357, R358). -/

/-- The MAC address as [47:0]. -/
def Dev.mac (d : Dev) (x : Ctx) : Nat := if x.fuse.number = 0 then d.num 0x1000 8 else 2 * 2 ^ 40 + x.fuse.number % 2 ^ 40

/-- The link-local address of a MAC (R339): fe80::/64 and the modified EUI-64. -/
def linkLocal (mac : Nat) : List Byte :=
  let m (i : Nat) : Byte := BitVec.ofNat 8 (mac >>> (8 * (5 - i)))
  [0xFE, 0x80, 0, 0, 0, 0, 0, 0, m 0 ^^^ 2, m 1, m 2, 0xFF, 0xFE, m 3, m 4, m 5]

/-- M_FW: the digest of the running firmware. -/
def Dev.mFw (d : Dev) : List Byte := if d.boot.running = [] then List.replicate 32 0 else digest32 d.boot.running

/-- M_ROM. -/
def mRom : List Byte := (List.range 32).map Config.romDigest

/-- The identity of the device identity key and of the alias key (R357, assumption 12). -/
def idKey (x : Ctx) : Nat := Config.kmac (x.fuse.uds.getD 0) 6 []
def Dev.aliasKey (d : Dev) (x : Ctx) : Nat :=
  let f := x.fuse
  Config.kmac (f.uds.getD 0) 7 (mRom ++ d.mFw ++ leBytes 1 f.lifecycle ++ leBytes 1 f.transitions ++ leBytes 1 f.tamper)

/-- 57 bytes of an Ed448 public key and 114 of a signature. -/
def edPublic (k : Nat) : List Byte := (List.range 57).map fun i => Config.publicKey k i
def edSign (k : Nat) (m : List Byte) : List Byte := (List.range 114).map fun i => Config.signature k m i

/-- The alias certificate (Table 11.2). -/
def Dev.aliasCert (d : Dev) (x : Ctx) : List Byte :=
  let b := leBytes 4 0x31545243 ++ leBytes 1 1 ++ leBytes 1 0x11 ++ leBytes 1 0xFF ++ leBytes 1 0 ++ d.mFw.take 8 ++ leBytes 8 x.fuse.number ++
    edPublic (d.aliasKey x) ++ edPublic (idKey x) ++ leBytes 6 0
  b ++ edSign (idKey x) b

/-- M_SEC over the security objects, in ascending index:sub (R358). -/
def Dev.mSec (d : Dev) (x : Ctx) : List Byte :=
  let w (i s : Nat) : List Byte := match objRow i s with | some r => r.wire (d.obj i s) | none => []
  digest32 (leBytes 1 x.fuse.lifecycle ++ ([1, 2, 3, 4, 5].flatMap fun s => w 0x1310 s) ++
    (x.fuse.signers.flatMap fun p => lpad 32 0 p.1 ++ leBytes 8 p.2) ++
    (List.range 8).flatMap fun c => [2, 3, 4, 5, 6, 7, 0x0A, 0x0D].flatMap fun s => w (0x4100 + c) s)

/-- The attestation report over a nonce (Table 11.7). -/
def Dev.report (d : Dev) (x : Ctx) (nonce : List Byte) : List Byte :=
  let comp (c : Nat) : List Byte :=
    lpad 56 0 (d.blob (0x4100 + c) 9) ++
    (if d.obj (0x4100 + c) 0x0A = .bytes [] then List.replicate 32 0 else digest32 (d.blob (0x4100 + c) 0x0A)) ++
    lpad 32 0 (d.canopyOf c).active.digest ++ leBytes 1 (d.compState c) ++ leBytes 1 (d.num (0x4100 + c) 8) ++ leBytes 6 0
  let b := leBytes 4 0x54535441 ++ leBytes 1 1 ++ leBytes 1 x.fuse.lifecycle ++ leBytes 1 d.state.code ++ leBytes 1 0 ++
    leBytes 8 x.fuse.number ++ lpad 32 0 nonce ++ mRom ++ d.mFw ++ d.mSec x ++ leBytes 8 x.time.beat ++ leBytes 8 0 ++
    (List.range 8).flatMap comp
  b ++ edSign (d.aliasKey x) b

/-! Tables that objects show. -/

/-- A generation record (Table 5.3). -/
def GenRec.word (g : GenRec) : Nat :=
  g.badst % 65536 * 2 ^ 16 + g.rbase % 2 ^ 20 * 2 ^ 47 + g.res % 8 * 2 ^ 67 + g.role % 8 * 2 ^ 70 + g.keyslot % 64 * 2 ^ 73 +
  g.hold % 65536 * 2 ^ 79 + g.tiles % 65536 * 2 ^ 95 + g.dir % 2 ^ 49 * 2 ^ 111 + g.gen % 2 ^ 32 * 2 ^ 160 + g.wsid % 2 ^ 64 * 2 ^ 192

/-- A digest-table entry (Table 7.3): the chains are shown most significant first as numbers of 16 bytes. -/
def DigEntry.word (e : DigEntry) (slot : Nat) : Nat :=
  slot % 16384 + e.flags % 16 * 2 ^ 14 + e.mode % 4 * 2 ^ 18 + e.sampled % 2 ^ 22 * 2 ^ 20 + e.kvpos % 2 ^ 22 * 2 ^ 42 +
  leNat (e.img.take 4) * 2 ^ 64 + e.reqser % 2 ^ 32 * 2 ^ 96 + leNat (e.tok.take 16) * 2 ^ 128 + leNat (e.log.take 16) * 2 ^ 256 +
  leNat (e.kv.take 16) * 2 ^ 384

/-- A job's digest entry of a slot: the one of the member's present place in the slice, else what an ended job of that number left. -/
def Dev.digEntry (d : Dev) (j s : Nat) : Option DigEntry :=
  let key := match tget d.jobs j with | some b => b.reqKey j s | none => s
  match tget d.digests key with
  | some e => if e.job = j then some e else (d.digests.find? fun p => decide (p.1 % 16384 = s) && decide (p.2.job = j)).map Prod.snd
  | none => (d.digests.find? fun p => decide (p.1 % 16384 = s) && decide (p.2.job = j)).map Prod.snd

/-- The digest table of a job. -/
def Dev.digTable (d : Dev) (j : Nat) : List Byte :=
  (List.range 16384).flatMap fun s =>
    match d.digEntry j s with
    | some e => leBytes 64 (e.word s)
    | none => leBytes 64 0

/-- The session table (0x1210:02). -/
def Dev.sessionTable (d : Dev) : List Byte :=
  d.sessions.flatMap fun p =>
    let s := p.2
    let a := match s.via with | .port c => c | .ring .. => 0
    leBytes 4 p.1 ++ leBytes 1 s.role ++ leBytes 1 (viaCode s.via) ++ leBytes 2 0 ++ leBytes 8 s.opened ++ leBytes 8 s.last ++ leBytes 8 (a / 65536)

/-- The out-slot table of a port, with its pass records (Table 8.7). -/
def Dev.outSlots (d : Dev) (p : Nat) : List Byte :=
  (List.range 64).flatMap fun s =>
    let e := (d.port p).slot s
    let k := d.passRecs.findIdx? fun r => decide (prOutPort r = p) && decide (prOutSlot r = s)
    leBytes 8 (if e.testBit 63 then e else match k with | some i => 2 ^ 63 + 2 ^ 61 + i % 1024 * 2 ^ 30 | none => 0)

/-- The histogram of a compartment (R460). -/
def Dev.histogram (d : Dev) (c : Nat) : List Byte :=
  match tget d.samp c with
  | none => []
  | some q =>
    let ns := osort (fun a b => decide (a < b)) (facetsOf (d.num (0x4100 + c) 2))
    ns.flatMap fun n => (List.range 272).flatMap fun i => leBytes 4 (tgetD q.bins (n * 272 + i) 0)

/-- The 192 bytes of the permits in force. -/
def Dev.permitTable (d : Dev) : List Byte :=
  d.permits.flatMap fun p => leBytes 1 p.2.kind ++ leBytes 7 0 ++ leBytes 8 p.2.endRound ++ lpad 32 0 p.2.subject

/-- Tracked pages that hold data (0x5480:01): a registered block is one page, whoever uses it. -/
def Dev.pagesUsed (d : Dev) : Nat :=
  d.jobs.foldl (fun n p => if p.2.st = .ended then n else n + p.2.prefixes.length) 0 +
  d.reqs.foldl (fun n p => n + (p.2.pages.filter fun g => decide (0 < g.fill) && (match g.place with | .shared .. => false | _ => true)).length) 0

/-- Rows of the catalog of a compartment with a current generation. -/
def Catalog.current (k : Catalog) : Nat := (k.entries.filter fun p => decide (p.2.a.role = 1) || decide (p.2.b.role = 1)).length

/-- State of a protection group (0x4200 + c:07). -/
def Dev.protState (d : Dev) (c : Nat) : Nat :=
  if d.num (0x4200 + c) 2 = 0 then 0
  else if d.jobs.any fun p => decide (p.2.comp = c) && decide (p.2.phase ≠ .none) && decide (p.2.phase ≠ .frozen) then 2
  else if d.jobs.any fun p => decide (p.2.comp = c) && decide (p.2.st = .running) then 1 else 3

/-- Bytes of shadow parity that this member holds (R422). -/
def Dev.shadowBytes (d : Dev) (j : Nat) : Nat :=
  match tget d.jobs j with
  | none => 0
  | some b =>
    framePitch (4096 * b.parityP4k) * b.parity.length

/-- A job's state objects (Table 5.13). -/
def Dev.jobView (d : Dev) (j s : Nat) : Val :=
  let i := 0x5000 + j
  match tget d.jobs j with
  | none => d.obj i s
  | some b =>
    if s = 0x12 then .num b.endStatus
    else if s = 8 ∨ s = 9 ∨ s = 0 then d.obj i s
    else if b.st = .ended then (if s = 1 then .num 4 else d.obj i s)
    else match s with
      | 1 => .num b.st.code
      | 2 => .num b.comp
      | 3 => .num (if b.spar then 1 else 0)
      | 4 => .num b.rank
      | 5 => .num b.slice
      | 6 => packed 32 b.digest
      | 7 => .num b.serial
      | 0x0A => .num b.maxStep
      | 0x0B => .num b.lastStep
      | 0x0C => .num b.agree
      | 0x0D => .num (if b.tiered then 1 else 0)
      | 0x0E => .num b.pageSize
      | 0x0F => .num b.wlen
      | 0x10 => .num (d.capacity j)
      | 0x11 => .num (d.reqsOf j).length
      | _ => d.obj i s

/-- What an object reads as; a session matters for its own number and nonce. -/
def Dev.view (d : Dev) (x : Ctx) (session i s : Nat) : Val :=
  let b := match objRow i s with | some r => r.base | none => i
  let c := i - b
  match b, s with
  | 0x1000, 1 => .num x.fuse.number
  | 0x1000, 7 => .num d.state.code
  | 0x1000, 8 => .num (d.mac x)
  | 0x1000, 9 => .num d.alerts
  | 0x1020, 4 =>
    .num (satAdd (2 ^ 64 - 1) (d.num 0x1020 4)
      (d.facets.foldl (fun n f => n + f.2.eccCe) 0 + (List.range 16).foldl (fun n g => n + d.num (0x4010 + g) 2 + d.num (0x4010 + g) 3) 0 +
       (List.range 8).foldl (fun n p => n + d.num (0x4020 + p) 2 + d.num (0x4020 + p) 3) 0))
  | 0x1100, 1 => .num (d.groups.filter fun g => g.2.live).length
  | 0x1100, 2 => .num (d.groups.foldl (fun n g => n + g.2.size) 0)
  | 0x1200, 7 => .bytes (linkLocal (d.mac x))
  | 0x1200, 0x0A => .num (if 4 < d.portState then d.portMode else d.portState)
  | 0x1210, 1 => .num d.sessions.length
  | 0x1210, 2 => packed 512 d.sessionTable
  | 0x1210, 7 => .num session
  | 0x1300, 1 => .num x.fuse.lifecycle
  | 0x1300, 3 => .num x.fuse.transitions
  | 0x1300, 4 => .num x.fuse.tamper
  | 0x1300, 6 => .num (if x.fuse.sealOff then 1 else 0)
  | 0x1310, 6 => packed 160 (x.fuse.signers.flatMap fun p => lpad 32 0 p.1 ++ leBytes 8 p.2)
  | 0x1320, 1 => .num d.journal.auditNext
  | 0x1320, 2 => .bytes (d.journal.audit.flatMap fun r => leBytes 64 r)
  | 0x1330, 1 => packed 32 (match tget d.sessions session with | some q => q.nonce.getD [] | none => [])
  | 0x1330, 2 => .bytes (d.report x (match tget d.sessions session with | some q => q.nonce.getD [] | none => []))
  | 0x1330, 4 => .bytes (d.aliasCert x)
  | 0x1330, 5 => .bytes x.fuse.makerRoot
  | 0x1340, 2 => packed 192 d.permitTable
  | 0x1400, 3 => .num d.boot.install
  | 0x1410, 1 => .num d.journal.used
  | 0x1410, 2 => .num d.journal.next
  | 0x1410, 3 => .num d.journal.gen
  | 0x2000, 8 => .num d.requiredDown
  | 0x2010, 1 => .num x.time.beat
  | 0x2010, 2 => .num x.round
  | 0x2010, 3 => .num x.time.ref
  | 0x2010, 4 => .num x.time.losses
  | 0x2010, 6 => .num x.time.source
  | 0x2010, 7 => .num x.time.mismatches
  | 0x2100, 2 => .num d.passRecs.length
  | 0x2200, 1 => .num (d.port c).st.code
  | 0x2200, 2 => .num (d.planResult c)
  | 0x2200, 3 => .num (d.port c).farNum
  | 0x2200, 4 => .num (d.port c).farPlace
  | 0x2200, 5 => .num (if d.state = .moored ∧ (d.port c).st = .inService then 1 else (d.port c).lanes)
  | 0x2200, 7 => .num (d.port c).flight
  | 0x2200, 8 => .num (i32 (d.port c).residual)
  | 0x2200, 0x0A => .num (i32 (max (-2147483648) (min (d.port c).offset 2147483647)))
  | 0x2200, 0x12 => .num (d.port c).rtt
  | 0x2200, 0x13 => .num (d.port c).usable
  | 0x2200, 0x14 => packed 512 (d.outSlots c)
  | 0x2280, 1 =>
    .num ((List.range 16).foldl (fun n p => n + ((d.port p).slots.filter fun e => e.2.testBit 63 && decide (bits e.2 60 55 = c)).length) 0)
  | 0x2280, 2 => .num (match tget d.routes c with | some r => r.tag | none => 0)
  | 0x2280, 4 => .num (match tget d.routes c with | some r => r.pathTime | none => 0)
  | 0x2300, 2 => .num (20000 + 350 * 128 * (List.range 8).foldl (fun m k => if d.compHolds k then max m (popCount 8 (d.num (0x4100 + k) 2)) else m) 0)
  | 0x2310, 1 => packed 32 (d.canopyOf c).active.digest
  | 0x2310, 2 => .num (d.canopyOf c).st.code
  | 0x2310, 3 => .num (if (d.canopyOf c).epoch then 1 else 0)
  | 0x2400, 1 => .num d.tether.st.code
  | 0x2400, 2 => .num (if d.tether.st = .moored then 1 else d.tether.lanes)
  | 0x2400, 0x0A => .num d.tether.pend.length
  | 0x2410, 0x0A => .num (d.ring c).st
  | 0x2410, 0x0B => .num (d.ring c).head
  | 0x2410, 0x0C => .num (d.ring c).cqTail
  | 0x2410, 0x0E => .num (d.tether.pend.filter fun k => decide (k.ring = c)).length
  | 0x3400, 2 => .num d.ballast.moored.code
  | 0x3400, 7 => .num d.residents
  | 0x4010, 1 => ownerVal (d.ownerBit 3 c)
  | 0x4020, 1 => ownerVal (d.ownerBit 4 c)
  | 0x4030, 1 => ownerVal (d.engineComp c)
  | 0x4030, 2 => .num (d.engine c).outst
  | 0x4030, 6 => .num (d.engine c).errlog
  | 0x4060, 4 => .num (if d.sharesHeld c then d.num i s else 0)
  | 0x4060, 5 => .num (if d.sharesHeld c then d.num i s else 0)
  | 0x4060, 6 => .num (if d.sharesHeld c then d.num i s else 0)
  | 0x4070, 1 => .num d.remoteReads
  | 0x4080, _ => if 1 ≤ s ∧ s ≤ 8 then .num (tgetD d.spill (s - 1) 0) else d.obj i s
  | 0x4100, 0x10 => .num (d.comp c).store.length
  | 0x4100, 0x11 => if d.compState c = 3 then d.obj i s else .num 0
  | 0x4100, 0x12 => if d.compState c = 3 then d.obj i s else .bytes []
  | 0x4140, 1 => ownerVal (d.ownerBit 6 c)
  | 0x4140, 2 => .num (match tget d.keys c with | some k => k.kind | none => 0)
  | 0x4140, 3 => .num (match tget d.keys c with | some k => k.wsid | none => 0)
  | 0x4200, 7 => .num (d.protState c)
  | 0x4200, 0x0A => .num (d.unprot.filter fun k => decide (k / 2 ^ 24 = c)).length
  | 0x5000, _ => d.jobView c s
  | 0x5100, 1 => packed 32 (d.catalog c).arch
  | 0x5100, 2 => .num (d.catalog c).current
  | 0x5100, 3 => .bytes ((List.range 8192).flatMap fun w =>
      match tget (d.catalog c).entries w with | some e => leBytes 32 e.a.word ++ leBytes 32 e.b.word | none => leBytes 64 0)
  | 0x5100, 4 => .num ((d.catalog c).entries.filter fun e => e.2.swap.isSome).length
  | 0x5340, 2 => .num (match tget d.jobs c with | some k => k.phase.code | none => 0)
  | 0x5340, 8 => .num (match tget d.jobs c with | some k => k.failed.length | none => 0)
  | 0x5340, 0x0C => .num (match tget d.jobs c with | some k => 4096 * d.mirrorBlocks c k | none => 0)
  | 0x5340, 0x0D => .num (d.shadowBytes c)
  | 0x5440, 5 => .num (match tget d.jobs c with | some k => (k.plans.filter fun p => decide (p.st = .pending)).length | none => 0)
  | 0x5440, 0x0C => .num (match tget d.jobs c with | some k => if k.st = .ended then 0 else k.countBuf | none => 0)
  | 0x5480, 1 => .num d.pagesUsed
  | 0x5480, 2 => .num d.pagesReserved
  | 0x54C0, 2 => .bytes (d.digTable c)
  | 0x6000, 3 => .num (if d.gust.armed then 1 else 0)
  | 0x7000, 1 => .num (min d.execBeats (2 ^ 64 - 1))
  | 0x7000, 2 => .num (min d.busy (2 ^ 64 - 1))
  | 0x7000, 3 => .num (min d.switched (2 ^ 64 - 1))
  | 0x7010, 3 => .num (match tget d.samp c with | some q => q.samples | none => 0)
  | 0x7010, 4 => .bytes (d.histogram c)
  | 0x8000, 2 =>
    let f := x.fuse
    let key := f.lifecycle + 8 * f.transitions + 256 * f.tamper + 2 ^ 16 * leNat (f.signers.flatMap fun p => lpad 32 0 p.1 ++ leBytes 1 p.2)
    .bytes ((List.range 4096).map fun k => Config.fuseMap key k)
  | _, _ => d.obj i s

/-- Status of reading a value whole (R317) or by segments: names, roles, mask; a report needs a nonce in the session (R358). -/
def Dev.readable (d : Dev) (role mask session i s : Nat) (segment : Bool) : Nat :=
  let st := d.readStatus role mask i s
  if st ≠ Config.ok then st
  else match objRow i s with
    | none => Config.range
    | some r =>
      let bare := match tget d.sessions session with | some q => q.nonce.isNone | none => true
      if decide (r.ty = 0x0A) != segment then Config.range
      else if i = 0x1330 ∧ s = 2 ∧ bare = true then Config.range
      else Config.ok

end Sys2Proof.Machine
end

