-- ==== Sys2Proof/Machine/Oap.lean ====
section
/-!
DEFINITION. The Object Access Protocol (R328 to R335, R340, R478, Table 10.6) on the management port and through the DICT commands
(R311).
-/

namespace Sys2Proof.Machine

/-! Replies and refusals. -/

/-- Do two messages come by the same transport and client (R332)? -/
def sameVia : Via → Via → Bool
  | .port a, .port b => decide (a = b)
  | .ring .., .ring .. => true
  | _, _ => false

/-- The longest body of a message on its transport (R328). -/
def bodyLimit : Via → Nat
  | .port _ => 1404
  | .ring .. => 65488

/-- The most data bytes of a segment (Table 10.6). -/
def segLimit : Via → Nat
  | .port _ => 1024
  | .ring .. => 61440

/-- A reply in the message's session. -/
def replyTo (m : OapMsg) (status detail : Nat) (body : List Byte) : Reply :=
  ⟨m.via, m.session, m.seq, m.op, m.group, status, detail, false, true, body⟩

/-- A reply without a session: SESSION 0, no tag, no body (R330, R332). -/
def refusalTo (m : OapMsg) (status : Nat) : Reply := ⟨m.via, 0, m.seq, m.op, 0, status, 0, false, false, []⟩

/-- Answer a message. -/
def Dev.say (d : Dev) (x : Ctx) (m : OapMsg) (status detail : Nat) (body : List Byte) : Dev := d.sendReply x (replyTo m status detail body)

/-- A message that gets no reply: dropped on the port; its DICT command completes with a status and a reply length of 0 (R311). -/
def Dev.dropMsg (d : Dev) (x : Ctx) (m : OapMsg) (status : Nat) : Dev :=
  match m.via with
  | .port _ => d
  | .ring r tag => d.answer x r tag status

/-- Tag and session-open failures: 16 within one Round set alert cause 5 (Table 10.8). -/
def Dev.authMiss (d : Dev) (x : Ctx) : Dev :=
  let n := if d.authRound = x.round then d.authFails + 1 else 1
  let d := { d with authFails := n, authRound := x.round }
  if n = 16 then d.alert 5 else d

/-- Accept a message into its session (R332, R334), then serve it. -/
def Dev.inSession (d : Dev) (x : Ctx) (m : OapMsg) (serve : Session → Dev → Dev) : Dev :=
  match tget d.sessions m.session with
  | none => d.sendReply x (refusalTo m Config.authFail)
  | some s =>
    if !sameVia s.via m.via then d.sendReply x (refusalTo m Config.authFail)
    else if !m.tagOk then ((d.count 0x1210 5 1).authMiss x).dropMsg x m Config.authFail
    else match s.replies.find? fun (p : Nat × Option Reply) => decide (p.1 = m.seq) with
      | some (_, some r) => d.sendReply x { r with via := m.via }
      | some (_, none) => d.dropMsg x m Config.busy
      | none =>
        if m.seq = 0 ∨ (m.seq ≤ s.high ∧ (m.seq + 64 ≤ s.high ∨ s.seen.contains m.seq = true)) then
          (d.count 0x1210 6 1).dropMsg x m Config.range
        else
          let high := max s.high m.seq
          let reps := s.replies ++ [(m.seq, Option.none)]
          let s' := { s with high := high, last := x.round, seen := (s.seen ++ [m.seq]).filter fun n => decide (high < n + 64),
                             replies := reps.drop (reps.length - 16) }
          let d : Dev := { d with sessions := tset d.sessions m.session s' }
          let out := match m.via with | .ring r _ => decide (s.role = 0) && !s.mask.testBit (d.ringComp r) | .port _ => false
          let bare := decide (s.role = 2) && decide (x.fuse.lifecycle = 4) && !([0x01, 0x03, 0x10, 0x12, 0x20].contains m.op)
          if out || bare then d.say x m Config.accessDenied 0 [] else serve s' d

/-- The port takes a message (R328, R336, R337): counted; dropped where the frame is filtered, 32 messages wait before it, or its length or version is
wrong. -/
def Dev.onPort (d : Dev) (x : Ctx) (m : OapMsg) (op : Nat) (serve : Dev → Dev) : Dev :=
  match m.via with
  | .ring .. => d
  | .port _ =>
    if !d.portUp || decide (d.boot.stage ≠ .done) || decide (m.op ≠ op) then d
    else
      let d := d.count 0x1200 8 1
      if !netOk m.net || decide (32 ≤ m.net.waiting) || !m.lengthOk || decide (m.version ≠ 1) then (d.count 0x1200 0x0C 1).dropMsg x m Config.range else serve d

/-! Operations (Table 10.6). -/

/-- HELLO: who the device is, and a nonce for one SESSION_OPEN from the same client, or on Tether from any ring. -/
def Dev.opHello (d : Dev) (x : Ctx) (m : OapMsg) : Dev :=
  let (n, d) := d.draw
  let key := match m.via with | .port c => Via.port c | .ring .. => Via.ring 0 0
  let d := { d with nonces := (d.nonces.filter fun (p : Via × Nat × Nat) => decide (x.round ≤ p.2.2 + 1)) ++ [(key, n, x.round)] }
  let body := leBytes 8 x.fuse.number ++ leBytes 1 x.fuse.lifecycle ++ leBytes 1 d.state.code ++ leBytes 1 1 ++
    leBytes 1 (16 - d.sessions.length) ++ leBytes 4 0 ++ leBytes 32 (Config.random n)
  d.sendReply x { replyTo m Config.ok 0 body with session := 0, group := 0, tagged := false }

/-- May a role open sessions in a life-cycle state (Table 11.6)? A maker in Deployed needs a permit. -/
def roleOpen (lc role : Nat) : Bool :=
  match role with
  | 0 => decide (lc = 2)
  | 1 => decide (lc = 1) || decide (lc = 2)
  | _ => true

/-- The root list of a role holds the digest of an issuer key (R348). -/
def Dev.rooted (d : Dev) (x : Ctx) (role : Nat) (issuer : List Byte) : Bool :=
  let g := digest32 issuer
  match role with
  | 0 => (List.range 8).any fun i => decide (((d.blob 0x1310 2).drop (32 * i)).take 32 = g)
  | 1 => (List.range 4).any fun i => decide (((d.blob 0x1310 1).drop (32 * i)).take 32 = g)
  | _ => decide (x.fuse.makerRoot = g)

/-- The checks of SESSION_OPEN after the nonce (R330, orders 3 to 5; R348): a status, and the permit that admits a maker. -/
def Dev.openStatus (d : Dev) (x : Ctx) (m : OapMsg) (role : Nat) (cert : List Byte) : Nat × Option Nat :=
  let f (o n : Nat) : Nat := leNat ((cert.drop o).take n)
  let floor := d.num 0x1310 (if role = 0 then 3 else if role = 1 then 4 else 5)
  let subject := digest32 ((cert.drop 24).take 57)
  let permit := d.permits.find? fun (p : Nat × Permit) => decide (p.2.kind = 1) &&
    (decide (p.2.subject = subject) || p.2.subject.all fun b => decide (b = 0))
  if cert.length ≠ 258 then (Config.range, none)
  else if f 0 4 ≠ 0x31545243 ∨ f 4 1 ≠ 1 ∨ f 5 1 ≠ role ∨ (f 16 8 ≠ 0 ∧ f 16 8 ≠ x.fuse.number) ∨ f 8 8 < floor ∨
      d.rooted x role ((cert.drop 81).take 57) = false ∨ m.certSig = false ∨ m.reqSig = false ∨ m.zOk = false then (Config.authFail, none)
  else if !roleOpen x.fuse.lifecycle role || (decide (role = 2 ∧ x.fuse.lifecycle = 2) && permit.isNone) then (Config.accessDenied, none)
  else if 16 ≤ d.sessions.length then (Config.busy, none)
  else (Config.ok, if role = 2 ∧ x.fuse.lifecycle = 2 then permit.map Prod.fst else none)

/-- A refused SESSION_OPEN: counted, audited, answered without a session. -/
def Dev.refuseOpen (d : Dev) (x : Ctx) (m : OapMsg) (role st : Nat) : Dev :=
  (((d.count 0x1210 4 1).authMiss x).audit x 0 role 3 st 0 0 (viaCode m.via) 0 0).replyAfter (refusalTo m st)

/-- SESSION_OPEN (R330). -/
def Dev.opOpen (d : Dev) (x : Ctx) (m : OapMsg) : Dev :=
  let b := m.body
  let role := leNat ((b.drop 120).take 1)
  let n := leNat ((b.drop 122).take 2)
  if b.length < 124 ∨ 2 < role ∨ n < 1 ∨ 1024 < n ∨ b.length ≠ 238 + n then d.refuseOpen x m role Config.range
  else
    let nonce := (b.drop 88).take 32
    let mine (p : Via × Nat × Nat) : Bool :=
      decide (leBytes 32 (Config.random p.2.1) = nonce) && decide (x.round ≤ p.2.2 + 1) &&
      (match m.via, p.1 with | .port c, .port c' => decide (c = c') | .ring .., .ring .. => true | _, _ => false)
    if !d.nonces.any mine then d.refuseOpen x m role Config.authFail
    else
      let d := { d with nonces := d.nonces.filter fun p => !mine p }
      let cert := (b.drop 124).take n
      match d.openStatus x m role cert with
      | (st, permit) =>
        if st ≠ Config.ok then d.refuseOpen x m role st
        else
          let num := (d.journal.auditNext + 1) % 2 ^ 32
          let (k, d) := d.draw
          let mask := if role = 0 then leNat ((cert.drop 6).take 1) else 0xFF
          let s : Session := ⟨role, mask, m.via, x.round, x.round, 0, [], [], none, permit⟩
          let head := leBytes 4 num ++ leBytes 1 role ++ leBytes 3 0 ++ ((List.range 56).map fun i => Config.publicKey k i) ++
            edPublic (d.aliasKey x) ++ leBytes 7 0
          let t1 := [0x4F, 0x41, 0x50, 0x2D, 0x4F, 0x50, 0x45, 0x4E] ++ leBytes 8 x.fuse.number ++ b.take (124 + n)
          let body := head ++ edSign (d.aliasKey x) (digest32 t1 ++ head)
          ({ d with sessions := tset d.sessions num s }.audit x num role 1 Config.ok 0 0 (viaCode m.via) 0 0).replyAfter
            { replyTo m Config.ok 0 body with session := num }

/-- SESSION_CLOSE (R335): the session closes after the reply. -/
def Dev.opClose (d : Dev) (x : Ctx) (m : OapMsg) : Dev :=
  d.inSession x m fun _ d => (d.closeSession x m.session).replyAfter (replyTo m Config.ok 0 [])

/-- HEARTBEAT (R340, R341): the device is attended; alert cause 4 ends. -/
def Dev.opHeartbeat (d : Dev) (x : Ctx) (m : OapMsg) : Dev :=
  d.inSession x m fun s d =>
    if s.role = 2 then d.say x m Config.accessDenied 0 []
    else if m.body.length ≠ 8 then d.say x m Config.range 0 []
    else
      let d := (((d.setNum 0x1220 2 0).setNum 0x1220 3 x.round).setNum 0x1220 4 (leNat m.body)).unalert 4
      let d := { d with mgrRound := x.round, mgr := match m.via with | .port c => some (c, m.session) | .ring .. => none }
      d.say x m Config.ok 0 (leBytes 8 x.time.beat ++ leBytes 4 d.alerts ++ leBytes 1 d.state.code ++ leBytes 3 0)

/-- The change count of an object (R318). -/
def Dev.changes (d : Dev) (i s : Nat) : Nat := tgetD d.chg (okey i s) 0

/-- One item of a READ reply. -/
def Dev.readItem (d : Dev) (x : Ctx) (s : Session) (session i sub : Nat) : List Byte :=
  let st := d.readable s.role s.mask session i sub false
  match objRow i sub with
  | some r =>
    if st ≠ Config.ok then leBytes 2 st ++ leBytes 10 0
    else
      let v := r.wire (d.view x session i sub)
      leBytes 2 st ++ leBytes 1 r.ty ++ leBytes 1 0 ++ leBytes 2 v.length ++ leBytes 2 0 ++ leBytes 4 (d.changes i sub) ++
        lpad ((v.length + 7) / 8 * 8) 0 v
  | none => leBytes 2 st ++ leBytes 10 0

/-- READ, or a request of an operation that does not exist (R329). -/
def Dev.opRead (d : Dev) (x : Ctx) (m : OapMsg) : Dev :=
  d.inSession x m fun s d =>
    let n := m.body.length / 4
    if m.op ≠ 0x10 ∨ m.body.length % 4 ≠ 0 ∨ n < 1 ∨ 32 < n then d.say x m Config.range 0 []
    else
      let out := (List.range n).flatMap fun k =>
        let w := leNat ((m.body.drop (4 * k)).take 4)
        d.readItem x s m.session (w % 65536) (w / 65536 % 256)
      if bodyLimit m.via < out.length then d.say x m Config.range 0 [] else d.say x m Config.ok 0 out

/-- Every object in ascending index:sub. -/
def objList : List (Nat × Nat × ObjRow) :=
  osort (fun a b => decide (okey a.1 a.2.1 < okey b.1 b.2.1))
    (objTables.flatMap fun t => t.flatMap fun r => (List.range r.count).map fun k => (r.base + k, r.sub, r))

/-- A LIST descriptor (R331). -/
def descriptor (o : Nat × Nat × ObjRow) : List Byte :=
  let r := o.2.2
  leBytes 2 o.1 ++ leBytes 1 o.2.1 ++ leBytes 1 r.ty ++ leBytes 1 r.access ++ leBytes 1 ((if r.persist then 128 else 0) + r.cls) ++ leBytes 2 0

/-- LIST (R331). -/
def Dev.opList (d : Dev) (x : Ctx) (m : OapMsg) : Dev :=
  d.inSession x m fun _ d =>
    if m.body.length ≠ 8 then d.say x m Config.range 0 []
    else
      let w := leNat m.body
      let from_ := okey (w % 65536) (w / 65536 % 256)
      let os := (objList.filter fun o => decide (from_ ≤ okey o.1 o.2.1)).take (w / 2 ^ 32 % 65536)
      let out := leBytes 2 os.length ++ leBytes 6 0 ++ os.flatMap descriptor
      if bodyLimit m.via < out.length then d.say x m Config.range 0 [] else d.say x m Config.ok 0 out

/-- SEG_READ. -/
def Dev.opSegRead (d : Dev) (x : Ctx) (m : OapMsg) : Dev :=
  d.inSession x m fun s d =>
    let f (o n : Nat) : Nat := leNat ((m.body.drop o).take n)
    let i := f 0 2
    let sub := f 2 1
    if m.body.length ≠ 12 then d.say x m Config.range 0 []
    else
      let st := d.readable s.role s.mask m.session i sub true
      let v := match objRow i sub with | some r => r.wire (d.view x m.session i sub) | none => []
      if st ≠ Config.ok then d.say x m st 0 []
      else if segLimit m.via < f 8 4 ∨ v.length < f 4 4 + f 8 4 then d.say x m Config.range 0 []
      else d.say x m Config.ok 0 (leBytes 4 v.length ++ leBytes 4 (d.changes i sub) ++ (v.drop (f 4 4)).take (f 8 4))

/-! Groups. -/

/-- Entries of a STAGE or WRITE body (Table 10.2), at most as many as the fuel; none where the body is malformed. -/
def parseEntries (keyOk valueSig : Bool) : Nat → List Byte → Option (List Entry)
  | 0, bs => if bs = [] then some [] else none
  | n + 1, bs =>
    if bs = [] then some []
    else
      let kind := leNat (bs.take 1)
      let len := leNat ((bs.drop 4).take 2)
      let size := 8 + len + (if kind = 1 then len else 0)
      let pitch := (size + 7) / 8 * 8
      if bs.length < pitch ∨ 1392 < len then none
      else match parseEntries keyOk valueSig n (bs.drop pitch) with
        | none => none
        | some es =>
          some (⟨kind, leNat ((bs.drop 2).take 2), leNat ((bs.drop 1).take 1), (bs.drop 8).take len,
            if kind = 1 then (bs.drop (8 + len)).take len else [], none, [], keyOk, valueSig⟩ :: es)

/-- The first entry of a message that fails at STAGE, after those already staged (R321, R322). -/
def Dev.stageFault (d : Dev) (x : Ctx) (s : Session) (enc : Bool) : List Entry → Nat → List Entry → Option (Nat × Nat)
  | _, _, [] => none
  | done, k, e :: es =>
    let st := d.entryStatus x s.role s.mask enc e
    if st ≠ Config.ok then some (st, k)
    else if !composed (done ++ [e]) then some (Config.range, k)
    else d.stageFault x s enc (done ++ [e]) (k + 1) es

/-- Staged bytes of all groups (R327). -/
def Dev.stagedBytes (d : Dev) : Nat := d.groups.foldl (fun n g => n + g.2.size) 0

/-- Open and Granted groups. -/
def Dev.liveGroups (d : Dev) : Nat := (d.groups.filter fun g => g.2.live).length

/-- A new Open group of a session. -/
def Dev.newGroup (d : Dev) (x : Ctx) (m : OapMsg) (s : Session) (es : List Entry) : Nat × Dev :=
  let n := d.nextGroup
  let g : Group := ⟨.opened, m.session, s.role, (match m.via with | .port _ => true | .ring .. => false), es, classOf es, x.round, 0, 0, 0, 0, 0, none⟩
  (n, { d with groups := tset d.groups n g, nextGroup := if n + 1 = 2 ^ 32 then 1 else n + 1 })

/-- The session's own Open group that a message names (R478), then the rest. -/
def Dev.ownGroup (d : Dev) (x : Ctx) (m : OapMsg) (f : Group → Dev → Dev) : Dev :=
  match tget d.groups m.group with
  | none => d.say x m Config.range 0 []
  | some g =>
    if g.session ≠ m.session then d.say x m Config.accessDenied 0 []
    else if g.st ≠ .opened then d.say x m Config.range 0 []
    else f g { d with groups := tset d.groups m.group { g with lastRound := x.round } }

/-- GROUP_OPEN. -/
def Dev.opGroupOpen (d : Dev) (x : Ctx) (m : OapMsg) : Dev :=
  d.inSession x m fun s d =>
    if 32 ≤ d.liveGroups then d.say x m Config.busy 0 []
    else
      let (n, d) := d.newGroup x m s []
      d.sendReply x { replyTo m Config.ok 0 [] with group := n }

/-- STAGE (R321). -/
def Dev.opStage (d : Dev) (x : Ctx) (m : OapMsg) : Dev :=
  d.inSession x m fun s d =>
    d.ownGroup x m fun g d =>
      match parseEntries m.keyOk m.valueSig 64 m.body with
      | none => d.say x m Config.range 0 []
      | some es =>
        if es = [] then d.say x m Config.range 0 []
        else match d.stageFault x s m.enc g.entries 1 es with
          | some (st, k) => d.say x m st k []
          | none =>
            if 256 < g.entries.length + es.length ∨ 33554432 < d.stagedBytes + es.foldl (fun n e => n + e.size) 0 then d.say x m Config.busy 0 []
            else
              let g := { g with entries := g.entries ++ es, cls := classOf (g.entries ++ es), lastRound := x.round }
              { d with groups := tset d.groups m.group g }.say x m Config.ok 0 []

/-- SEG_WRITE (R320, Table 10.6). -/
def Dev.opSegWrite (d : Dev) (x : Ctx) (m : OapMsg) : Dev :=
  d.inSession x m fun s d =>
    d.ownGroup x m fun g d =>
      let f (o n : Nat) : Nat := leNat ((m.body.drop o).take n)
      let i := f 0 2
      let sub := f 2 1
      let total := f 4 4
      let data := m.body.drop 16
      let st := d.writeStatus x s.role s.mask i sub
      match objRow i sub with
      | none => d.say x m Config.range 0 []
      | some r =>
        if m.body.length < 16 then d.say x m Config.range 0 []
        else if st ≠ Config.ok then d.say x m st 0 []
        else if r.ty ≠ 0x0A ∨ segLimit m.via < data.length ∨ total < f 8 4 + data.length ∨ r.rng.okLen total = false then
          d.say x m Config.range 0 []
        else
          let same (e : Entry) : Bool := decide (e.index = i) && decide (e.sub = sub) && e.total.isSome
          match g.entries.find? same with
          | some e =>
            if e.total ≠ some total then d.say x m Config.range 0 []
            else if 33554432 < d.stagedBytes + data.length then d.say x m Config.busy 0 []
            else
              let add (e : Entry) : Entry := if same e then { e with pieces := e.pieces ++ [(f 8 4, data)], valueSig := m.valueSig } else e
              { d with groups := tset d.groups m.group { g with entries := g.entries.map add, lastRound := x.round } }.say x m Config.ok 0 []
          | none =>
            let e : Entry := ⟨0, i, sub, [], [], some total, [(f 8 4, data)], m.keyOk, m.valueSig⟩
            if !composed (g.entries ++ [e]) then d.say x m Config.range 0 []
            else if 256 ≤ g.entries.length ∨ 33554432 < d.stagedBytes + data.length then d.say x m Config.busy 0 []
            else
              let g := { g with entries := g.entries ++ [e], cls := classOf (g.entries ++ [e]), lastRound := x.round }
              { d with groups := tset d.groups m.group g }.say x m Config.ok 0 []

/-- COMMIT (R323): grant or refusal; the reply waits for the outcome. -/
def Dev.opCommit (d : Dev) (x : Ctx) (m : OapMsg) : Dev :=
  d.inSession x m fun _ d =>
    d.ownGroup x m fun g d =>
      { d with groups := tset d.groups m.group { g with asker := some ⟨m.via, m.session, m.seq, m.op⟩, lastRound := x.round } }.grantGroup x m.group

/-- WRITE (R319): a group of one entry, opened, staged and put to the grant by one message. -/
def Dev.opWrite (d : Dev) (x : Ctx) (m : OapMsg) : Dev :=
  d.inSession x m fun s d =>
    match parseEntries m.keyOk m.valueSig 1 m.body with
    | some [e] =>
      (match d.stageFault x s m.enc [] 1 [e] with
       | some (st, k) => d.say x m st k []
       | none =>
         if 32 ≤ d.liveGroups ∨ 33554432 < d.stagedBytes + e.size then d.say x m Config.busy 0 []
         else
           let (n, d) := d.newGroup x m s [e]
           { d with groups := tadj d.groups n fun g => { g with asker := some ⟨m.via, m.session, m.seq, m.op⟩ } }.grantGroup x n)
    | _ => d.say x m Config.range 0 []

/-- What a granted action has set up goes when its group is aborted: a pending swap (R185), a fence, which is lifted at the next beat boundary
(Table 3.12). -/
def Dev.dropAction (d : Dev) (n : Nat) (g : Group) : Dev :=
  match g.action with
  | some e =>
    let c := leNat (e.value.take 1)
    if e.index = 1 then
      let k := d.canopyOf c
      if k.group = some n then d.setCanopy c { k with group := none, drain := none, drains := [] } else d
    else if e.index = 2 then
      let k := d.catalog c
      let drop (en : CatEntry) : CatEntry := if en.swap = some (2 ^ 40 + n) then { en with swap := none } else en
      d.setCatalog c { k with entries := tadj k.entries (leNat ((e.value.drop 2).take 2)) drop }
    else d
  | none => d

/-- The abort swap of a group (R326, Table 10.4): the status of the abort. -/
def Dev.abortGroup (d : Dev) (x : Ctx) (n : Nat) : Nat × Dev :=
  match tget d.groups n with
  | none => (Config.range, d)
  | some g => if g.live then (Config.aborted, (d.dropAction n g).finishGroup x n .aborted Config.aborted 0) else (Config.alreadyDone, d)

/-- A reply that waits for a fuse write to complete (R355). -/
def fuseWait : Nat := 2 ^ 64

/-- GROUP_ABORT (R326, R478): a group whose fuse write has started cannot be stopped, and the abort waits for it. -/
def Dev.opGroupAbort (d : Dev) (x : Ctx) (m : OapMsg) : Dev :=
  d.inSession x m fun s d =>
    match tget d.groups m.group with
    | none => d.say x m Config.range 0 []
    | some g =>
      if g.session ≠ m.session ∧ !(decide (s.role = 1) && decide (g.st = .opened)) then d.say x m Config.accessDenied 0 []
      else if g.st = .granted ∧ g.fuses = true then
        { d with heldReplies := d.heldReplies ++ [(fuseWait, replyTo m Config.alreadyDone 0 [])] }
      else
        let (st, d) := d.abortGroup x m.group
        d.replyAfter (replyTo m st 0 [])

/-! The port's rows. -/

/-- HELLO. -/
def execHello (msg : OapMsg) (s : State) : Host.Outcome State Fault Refusal := onDev s fun x d => d.onPort x msg 0x01 fun d => d.opHello x msg
/-- SESSION_OPEN. -/
def execSessionOpen (msg : OapMsg) (s : State) : Host.Outcome State Fault Refusal := onDev s fun x d => d.onPort x msg 0x02 fun d => d.opOpen x msg
/-- SESSION_CLOSE. -/
def execSessionClose (msg : OapMsg) (s : State) : Host.Outcome State Fault Refusal := onDev s fun x d => d.onPort x msg 0x03 fun d => d.opClose x msg
/-- HEARTBEAT. -/
def execHeartbeat (msg : OapMsg) (s : State) : Host.Outcome State Fault Refusal := onDev s fun x d => d.onPort x msg 0x04 fun d => d.opHeartbeat x msg

/-- The operation codes of requests (Table 10.6). -/
def opCodes : List Nat := [0x01, 0x02, 0x03, 0x04, 0x10, 0x11, 0x12, 0x20, 0x21, 0x22, 0x23, 0x24, 0x30]

/-- READ, and any request whose operation is not in Table 10.6 (R329). -/
def execRead (msg : OapMsg) (s : State) : Host.Outcome State Fault Refusal :=
  onDev s fun x d => d.onPort x msg (if opCodes.contains msg.op then 0x10 else msg.op) fun d => d.opRead x msg
/-- LIST. -/
def execList (msg : OapMsg) (s : State) : Host.Outcome State Fault Refusal := onDev s fun x d => d.onPort x msg 0x11 fun d => d.opList x msg
/-- SEG_READ. -/
def execSegRead (msg : OapMsg) (s : State) : Host.Outcome State Fault Refusal := onDev s fun x d => d.onPort x msg 0x12 fun d => d.opSegRead x msg
/-- WRITE. -/
def execWrite (msg : OapMsg) (s : State) : Host.Outcome State Fault Refusal := onDev s fun x d => d.onPort x msg 0x20 fun d => d.opWrite x msg
/-- GROUP_OPEN. -/
def execGroupOpen (msg : OapMsg) (s : State) : Host.Outcome State Fault Refusal := onDev s fun x d => d.onPort x msg 0x21 fun d => d.opGroupOpen x msg
/-- STAGE. -/
def execStage (msg : OapMsg) (s : State) : Host.Outcome State Fault Refusal := onDev s fun x d => d.onPort x msg 0x22 fun d => d.opStage x msg
/-- SEG_WRITE. -/
def execSegWrite (msg : OapMsg) (s : State) : Host.Outcome State Fault Refusal := onDev s fun x d => d.onPort x msg 0x23 fun d => d.opSegWrite x msg
/-- GROUP_ABORT. -/
def execGroupAbort (msg : OapMsg) (s : State) : Host.Outcome State Fault Refusal := onDev s fun x d => d.onPort x msg 0x24 fun d => d.opGroupAbort x msg
/-- COMMIT. -/
def execCommit (msg : OapMsg) (s : State) : Host.Outcome State Fault Refusal := onDev s fun x d => d.onPort x msg 0x30 fun d => d.opCommit x msg

/-- SESSION_IDLE_TIMEOUT (R335): 0x1210:03 Rounds without an accepted message. -/
def execSessionIdleTimeout (session : Nat) (s : State) : Host.Outcome State Fault Refusal :=
  onDev s fun x d =>
    match tget d.sessions session with
    | none => d
    | some q => if d.pilotOn && decide (q.last + d.num 0x1210 3 ≤ x.round) then d.closeSession x session else d

/-! DICT commands (R311). -/

/-- A DICT command runs its message once those accepted before it have run: an operation of another opcode completes RANGE, as does a wrong length or version. -/
def Dev.dict (d : Dev) (x : Ctx) (ring tag opcode : Nat) (msg : Option OapMsg) (ops : List Nat) : Dev :=
  if !d.dictTurn ring tag then d
  else d.runData x ring tag (fun e => decide (eOpcode e = opcode)) msg fun _ m d =>
    let m := { m with via := .ring ring tag }
    if !m.lengthOk || decide (m.version ≠ 1) then (d.count 0x1200 0x0C 1).answer x ring tag Config.range
    else if !ops.contains m.op then d.answer x ring tag Config.range
    else match m.op with
      | 0x01 => d.opHello x m
      | 0x02 => d.opOpen x m
      | 0x03 => d.opClose x m
      | 0x04 => d.opHeartbeat x m
      | 0x10 => d.opRead x m
      | 0x11 => d.opList x m
      | 0x12 => d.opSegRead x m
      | 0x20 => d.opWrite x m
      | 0x21 => d.opGroupOpen x m
      | 0x22 => d.opStage x m
      | 0x23 => d.opSegWrite x m
      | 0x24 => d.opGroupAbort x m
      | _ => d.opCommit x m

/-- DICT_READ: HELLO, READ, LIST, SEG_READ. -/
def execDictRead (ring tag : Nat) (msg : Option OapMsg) (s : State) : Host.Outcome State Fault Refusal :=
  onDev s fun x d => d.dict x ring tag 0x40 msg [0x01, 0x10, 0x11, 0x12]
/-- DICT_WRITE: sessions, heartbeats, writes and groups. -/
def execDictWrite (ring tag : Nat) (msg : Option OapMsg) (s : State) : Host.Outcome State Fault Refusal :=
  onDev s fun x d => d.dict x ring tag 0x41 msg [0x02, 0x03, 0x04, 0x20, 0x21, 0x22, 0x23, 0x24]
/-- DICT_COMMIT: COMMIT. -/
def execDictCommit (ring tag : Nat) (msg : Option OapMsg) (s : State) : Host.Outcome State Fault Refusal :=
  onDev s fun x d => d.dict x ring tag 0x42 msg [0x30]

end Sys2Proof.Machine
end

