-- ==== Sys2Proof/Machine/Pages.lean ====
section
/-!
DEFINITION. Key-value pages as the step controller moves them (R202 to R207, Table 4.6, Table 5.7): opening, spilling, lifting,
registration of full blocks, and the cut of a history.
-/

namespace Sys2Proof.Machine

/-- The working-tier address of a frame of a job (R202). -/
def Job.frameAddr (b : Job) (fr : Nat) : Nat := b.kvBase + fr * framePitch b.pageSize

/-- The live entry of a prefix hash. -/
def Job.liveEntry (b : Job) (h : Nat) : Option PrefixEntry := b.prefixes.find? fun e => decide (leNat e.hash = h) && !e.gone

/-- The entry that a page of a request refers to. -/
def Job.entryOf (b : Job) (h : Nat) : Option PrefixEntry := b.prefixes.find? fun e => decide (leNat e.hash = h) && decide (0 < e.users)

/-- The frame of a page that lies in the working tier. -/
def Job.frameOf (b : Job) (p : Page) : Option Nat :=
  match p.place with
  | .working fr => some fr
  | .shared h _ => (b.entryOf h).bind fun e => match e.place with | .working fr => some fr | _ => none
  | _ => none

/-- The page header that the step controller writes (Table 4.6). -/
def pageHead (c j slot serial wset gen page fill p4k : Nat) (shared : Bool) : Nat :=
  1 + 2 ^ 8 * 2 + 2 ^ 16 * 0x4854 + (if shared then 2 ^ 152 else 0) + 2 ^ 153 * (c % 8) + 2 ^ 156 * (j % 256) + 2 ^ 164 * (p4k % 2 ^ 11) +
  2 ^ 175 * (gen % 2 ^ 32) + 2 ^ 207 * (wset % 2 ^ 13) + 2 ^ 220 * (fill % 128) + 2 ^ 227 * (page % 2 ^ 15) + 2 ^ 242 * (slot % 2 ^ 14) +
  2 ^ 256 * (serial % 2 ^ 32)

/-- Write the header of one page of a request that lies in a frame of its own. -/
def Dev.writeHead (d : Dev) (key page : Nat) : Dev :=
  match tget d.reqs key with
  | none => d
  | some q =>
    match tget d.jobs q.job, q.pages[page]? with
    | some b, some p =>
      (match b.frameOf p with
       | some fr =>
         let shared := match p.place with | .shared h _ => (match b.entryOf h with | some e => e.shared | none => false) | _ => false
         d.memOp (.write (b.frameAddr fr)
           (leBytes 64 (pageHead b.comp q.job (key % 16384) q.serial q.wset q.gen page p.fill (b.pageSize / 4096) shared)))
       | none => d)
    | _, _ => d

/-- A request's page shows FILL valid tokens. -/
def Dev.fillPage (d : Dev) (key page n : Nat) : Dev := (d.adjPage key page fun p => { p with fill := n }).writeHead key page

/-! Spilling and lifting. -/

/-- Runs of the resting tier that spilled pages and parity frames of a compartment take. -/
def Dev.spilledRuns (d : Dev) (c : Nat) : List (Nat × Nat) :=
  (d.jobs.flatMap fun q => if q.2.comp = c then q.2.parity.map fun f => (f.2, framePitch (4096 * q.2.parityP4k)) else []) ++
  d.reqs.flatMap fun p =>
    match tget d.jobs p.2.job with
    | some b =>
      if b.comp ≠ c then [] else p.2.pages.filterMap fun g =>
        match g.place with
        | .spilling _ a _ => some (a, framePitch b.pageSize)
        | .resting a => some (a, framePitch b.pageSize)
        | .lifting a _ => some (a, framePitch b.pageSize)
        | _ => none
    | none => []

/-- Bytes of an LPDDR5X package (Table 4.1). -/
def packageBytes : Nat := 0x1800000000

/-- Where a page is spilled to: the highest free frame of the compartment's highest package; none where nothing is free. The manual
names no place. -/
def Dev.restSpot (d : Dev) (c n : Nat) : Option Nat :=
  match ((List.range 8).filter fun p => decide (d.ownerBit 4 p = some c)).getLast? with
  | none => none
  | some p =>
    let base := restBase + p * packageBytes
    let top := base + packageBytes
    let used := d.spilledRuns c
    let cands := (top - n) / 4096 * 4096 :: used.map fun u => (u.1 - n) / 4096 * 4096
    let ok (a : Nat) : Bool := decide (base ≤ a) && decide (a + n ≤ top) &&
      used.all fun u => decide (a + n ≤ u.1) || decide (u.1 + u.2 ≤ a)
    (osort (fun a b => decide (b < a)) (cands.filter ok)).head?

/-- The XOR of the other ranks' pieces of a page that closes, as it lies in this member's parity frame. -/
def parityData (b : Job) (j slot serial page : Nat) : List Byte :=
  lpad (4096 * b.parityP4k) 0 ((List.range b.pieceBytes).map fun i => Config.parityByte j slot serial page b.rank i)

/-- In shadow mode this member keeps the parity of a page that closes in its resting tier, encrypted like a spilled page (R148, R152, R422); where
the tier has no room the page is not protected. -/
def Dev.writeParity (d : Dev) (key page : Nat) : Dev :=
  match tget d.reqs key with
  | none => d
  | some q =>
    match tget d.jobs q.job with
    | none => d
    | some b =>
      if b.slice ≤ 1 ∨ d.num (0x5340 + q.job) 1 ≠ 1 then d
      else
        let i := key * 32768 + page
        let n := framePitch (4096 * b.parityP4k)
        match (match tget b.parity i with | some a => some a | none => d.restSpot b.comp n) with
        | none => d
        | some a =>
          let shared := match q.pages[page]? with
            | some p => (match p.place with | .shared h _ => (match b.entryOf h with | some e => e.shared | none => false) | _ => false)
            | none => false
          let k := match tget d.keys (d.pageSlot b.comp) with | some k => k.key | none => 0
          let h := pageHead b.comp q.job (key % 16384) q.serial q.wset q.gen page 64 b.parityP4k shared + 2 ^ 8 * 2
          let r := d.sealFrame b.comp k h (parityData b q.job (key % 16384) q.serial page)
          (r.1.memOp (.write a r.2)).adjJob q.job fun b => { b with parity := tset b.parity i a }

/-- May a page be spilled (R204): full, in a frame of its own, not shared with another request? -/
def Job.canSpill (b : Job) (p : Page) : Bool :=
  decide (p.fill = 64) &&
  (match p.place with
   | .working _ => true
   | .shared h _ => (match b.entryOf h with | some e => !e.shared && decide (e.users = 1) && !e.gone | none => false)
   | _ => false)

/-- A registered page that nobody shares leaves the prefix table: it is an ordinary page again. -/
def Dev.unregister (d : Dev) (key page : Nat) : Dev :=
  match tget d.reqs key with
  | none => d
  | some q =>
    match tget d.jobs q.job, q.pages[page]? with
    | some b, some p =>
      (match p.place, b.frameOf p with
       | .shared h _, some fr =>
         (d.adjPage key page fun p => { p with place := .working fr }).adjJob q.job fun b =>
           { b with prefixes := b.prefixes.filter fun e => decide (leNat e.hash ≠ h) || e.gone }
       | _, _ => d)
    | _, _ => d

/-- Submit the spill of a page, with CODEC 3 under the write share (R152, R204); a full engine leaves it where it is. -/
def Dev.spill1 (d : Dev) (key page fr dest tries : Nat) : Dev :=
  match tget d.reqs key with
  | none => d
  | some q =>
    match tget d.jobs q.job with
    | none => d
    | some b =>
      match d.workEngine b.comp with
      | none => d
      | some e =>
        let own := d.ownSlot * 2 ^ 49
        let w := stepDesc (own + b.frameAddr fr) (own + dest) 1 0 14 3 1 (d.pageSlot b.comp) b.comp
        let (st, _, d) := d.submit e b.comp w (.spillPage q.job key page)
        if st = Config.ok then d.adjPage key page fun p => { p with place := .spilling fr dest tries } else d

/-- Spill one full page. -/
def Dev.spillPage (d : Dev) (key page : Nat) : Dev :=
  match tget d.reqs key with
  | none => d
  | some q =>
    match tget d.jobs q.job with
    | none => d
    | some b =>
      let d := d.unregister key page
      let p : Option Page := (tget d.reqs key).bind fun q => q.pages[page]?
      match p with
      | some g =>
        (match g.place, d.restSpot b.comp (framePitch b.pageSize) with
         | .working fr, some dest => d.spill1 key page fr dest 0
         | _, _ => d)
      | none => d

/-- Is a descriptor that spills a page under way? -/
def Dev.spillLive (d : Dev) (key page : Nat) : Bool :=
  d.engines.any fun e => e.2.recs.any fun r => r.st.live &&
    (match r.purpose with | .spillPage _ s p => decide (s = key) && decide (p = page) | _ => false)

/-- Failed spills of a job are tried once more at its step boundary (Table 5.7). -/
def Dev.retrySpills (d : Dev) (j : Nat) : Dev :=
  (d.reqsOf j).foldl (fun d key =>
    match tget d.reqs key with
    | none => d
    | some q => (List.range q.pages.length).foldl (fun (d : Dev) (i : Nat) =>
        match q.pages[i]? with
        | some (p : Page) =>
          (match p.place with
           | .spilling fr dest t => if d.spillLive key i then d else d.spill1 key i fr dest t
           | _ => d)
        | none => d) d) d

/-- The pages that may be spilled for a step that gives no row to the requests in busy: least recently stepped request first, then the
lower slot (R204). -/
def Dev.spillable (d : Dev) (j : Nat) (b : Job) (busy : List Nat) : List (Nat × Nat) :=
  let reqs := d.reqs.filter fun p => decide (p.2.job = j) && !busy.contains p.1
  let order := osort (fun (a c : Nat × Req) => decide (a.2.lastStep < c.2.lastStep) ||
    (decide (a.2.lastStep = c.2.lastStep) && decide (a.1 < c.1))) reqs
  order.flatMap fun r => (List.range r.2.pages.length).filterMap fun i =>
    match r.2.pages[i]? with
    | some p => if b.canSpill p then some (r.1, i) else none
    | none => none

/-- The pages of a request that rows up to a position need a frame for: those they open, and those in the resting tier that they read. -/
def Req.wants (q : Req) (pos : Nat) : List Nat :=
  (List.range (pos / 64 + 1)).filter fun i =>
    match q.pages[i]? with
    | some p => (match p.place with | .reserved => true | .resting _ => true | _ => false)
    | none => false

/-- Take frames for the pages that the rows up to a position of a request need, and submit their lifts with CODEC 1 under the read share
(R204, R205); what finds no frame or no engine waits. -/
def Dev.supplyReq (d : Dev) (key pos : Nat) : Dev :=
  match tget d.reqs key with
  | none => d
  | some q => (q.wants pos).foldl (fun d i =>
      match tget d.jobs q.job, q.pages[i]? with
      | some b, some p =>
        (match b.freeFrames with
         | [] => d
         | fr :: rest =>
           match p.place with
           | .reserved => (d.adjJob q.job fun b => { b with freeFrames := rest }).adjPage key i fun p => { p with place := .working fr, fill := 0 }
           | .resting a =>
             (match d.workEngine b.comp with
              | none => d
              | some e =>
                let own := d.ownSlot * 2 ^ 49
                let w := stepDesc (own + a) (own + b.frameAddr fr) 1 0 14 1 0 (d.pageSlot b.comp) b.comp
                let (st, _, d) := d.submit e b.comp w (.liftPage q.job key i)
                if st = Config.ok then
                  (d.adjJob q.job fun b => { b with freeFrames := rest }).adjPage key i fun p => { p with place := .lifting a fr }
                else d)
           | _ => d)
      | _, _ => d) d

/-- Are the pages that the rows up to a position read and write all in the working tier? -/
def Dev.supplied1 (d : Dev) (key pos : Nat) : Bool :=
  match tget d.reqs key with
  | none => true
  | some q => (List.range (pos / 64 + 1)).all fun i =>
      match q.pages[i]? with
      | some p => (match p.place with | .working _ => true | .shared .. => true | _ => false)
      | none => false

/-- The last position of each request in a list of rows that are not void. -/
def rowEnds (b : Job) (j : Nat) (rows : List BatchRow) : Tab Nat :=
  rows.foldl (fun t r => if r.void then t else tset t (b.reqKey j r.slot) (max r.pos (tgetD t (b.reqKey j r.slot) 0))) []

/-- Supply the staged step of a job, as far as frames go. -/
def Dev.supply (d : Dev) (j : Nat) : Dev :=
  match tget d.jobs j with
  | some b => (match b.staged with
    | some st => (rowEnds b j st.rows).foldl (fun d p => d.supplyReq p.1 p.2) d
    | none => d)
  | none => d

/-- Has the staged step of a job every page it needs (R205)? -/
def Dev.supplied (d : Dev) (j : Nat) : Bool :=
  match tget d.jobs j with
  | some b => (match b.staged with
    | some st => (rowEnds b j st.rows).all fun p => d.supplied1 p.1 p.2
    | none => true)
  | none => true

/-! Prefix registration (R206, R207). -/

/-- Bound of the prefix table (Table 5.10). -/
def prefixMost : Nat := 262144

/-- Make room in the prefix table: the least recently matched entry is replaced; its page goes when nobody uses it. -/
def Job.replacePrefix (b : Job) : Job × Bool :=
  let live := b.prefixes.filter fun e => !e.gone
  if live.length < prefixMost then (b, false)
  else match (osort (fun (p q : PrefixEntry) => decide (p.matchedAt < q.matchedAt)) live).head? with
    | none => (b, false)
    | some e =>
      let rest := b.prefixes.filter fun f => decide (f.hash ≠ e.hash) || f.gone
      if e.users = 0 then
        ({ b with prefixes := rest, freeFrames := match e.place with | .working fr => sinsert b.freeFrames fr | _ => b.freeFrames }, true)
      else ({ b with prefixes := rest ++ [{ e with gone := true }] }, true)

/-- Do the pages of a request hold bytes outside the guarantee (R240): a step of its carried INJ or WIN, it was bound to another generation, or it
shares a page that does? -/
def Dev.foul (d : Dev) (key : Nat) (b : Job) (q : Req) : Bool :=
  (match tget d.digests key with | some e => decide (e.flags % 8 ≠ 0) | none => false) ||
  q.pages.any fun p => match p.place with | .shared h _ => (match b.entryOf h with | some e => e.foul | none => false) | _ => false

/-- A page of a request closed with 64 committed tokens: its block is registered, unless its hash is live already. -/
def Dev.register (d : Dev) (x : Ctx) (key page : Nat) : Dev :=
  match tget d.reqs key with
  | none => d
  | some q =>
    match tget d.jobs q.job, q.pages[page]? with
    | some b, some ⟨.working fr, _, _, _⟩ =>
      let g := d.genAt b.comp q.wset (if q.recB then 1 else 0)
      match (blockHashes g.wsid (q.history.take (64 * (page + 1))))[page]? with
      | none => d
      | some h =>
        if (b.liveEntry (leNat h)).isSome then d
        else
          let foul := d.foul key b q
          let (b, replaced) := b.replacePrefix
          let e : PrefixEntry := ⟨h, (q.history.drop (64 * page)).take 64, .working fr, 1, x.time.beat, false, false, foul⟩
          let d := d.setJob q.job { b with prefixes := b.prefixes ++ [e] }
          let d := if replaced then d.count (0x5300 + q.job) 9 1 else d
          d.adjPage key page fun p => { p with place := .shared (leNat h) 0 }
    | _, _ => d

/-! The cut of a history (R200). -/

/-- One page beyond the end of a cut history is freed: in working-only placement the reservation keeps a frame. -/
def Dev.emptyPage (d : Dev) (key page : Nat) : Dev :=
  let d := d.unregister key page
  match tget d.reqs key with
  | none => d
  | some q =>
    match tget d.jobs q.job, q.pages[page]? with
    | some b, some p =>
      (match p.place with
       | .working fr =>
         if b.tiered then
           (d.adjJob q.job fun b => { b with freeFrames := sinsert b.freeFrames fr }).adjPage key page fun p =>
             { p with place := .reserved, fill := 0 }
         else d.adjPage key page fun p => { p with fill := 0 }
       | .resting _ => d.adjPage key page fun p => { p with place := .reserved, fill := 0 }
       | _ => d)
    | _, _ => d

/-- Cut a request's pages to a number of tokens: pages wholly beyond go, the last one's FILL is lowered; a page that is open again has no parity. -/
def Dev.cutPages (d : Dev) (key len : Nat) : Dev :=
  match tget d.reqs key with
  | none => d
  | some q =>
    let last := len / 64
    let d := d.adjJob q.job fun b => { b with parity := tfilter b.parity fun i _ => decide (i / 32768 ≠ key) || decide (i % 32768 < last) }
    let d := ((List.range q.pages.length).filter fun i => decide (len ≤ 64 * i)).foldl (fun d i => d.emptyPage key i) d
    if len % 64 = 0 then d
    else
      match q.pages[last]? with
      | some p => if len - 64 * last < p.fill then (d.unregister key last).fillPage key last (len - 64 * last) else d
      | none => d

end Sys2Proof.Machine
end

