-- ==== Sys2Proof/Machine/Staging.lean ====
section
/-!
DEFINITION. Staging a step (R191 to R195, R204, R205, R421): which rows the lead gives the next step, the staging record it sends, and the
start of a staged step with what the step controller writes for it.
-/

namespace Sys2Proof.Machine

/-! Which rows a request has. -/

/-- Rows of the step in progress that a request has. -/
def Job.rowsNow (b : Job) (slot : Nat) : Nat :=
  match b.step with
  | some st => (st.rows.filter fun r => decide (r.slot = slot) && !r.void).length
  | none => 0

/-- What a request has ready for the next step, the step in progress being over: first position, rows, whether it is a decode row. In
Restoring only the positions that are written again run (R421). -/
def Job.ahead (b : Job) (slot : Nat) (q : Req) : Nat × Nat × Bool :=
  let n := b.rowsNow slot
  let k := q.kv + n
  let t := q.kv + q.input.length
  if b.phase = .restoring then (k, min q.chunk (q.replayTo - k), false)
  else if k < t then (k, min q.chunk (t - k), decide (q.st = .decode))
  else if 0 < n ∧ q.made.length + 1 < q.maxNew ∧ t + 1 < 2097152 then (t, 1, true)
  else (k, 0, false)

/-- May a request have rows in a step at the lead (R184, R190, R191): committed, not about to retire, its generation resident on every
member, and, while it is Admitted, no swap of its entry pending? -/
def Dev.eligible (d : Dev) (c : Nat) (q : Req) : Bool :=
  let g := d.genAt c q.wset (if q.recB then 1 else 0)
  let swapping := match tget (d.catalog c).entries q.wset with | some e => e.swap.isSome | none => false
  q.st.live && q.committed && q.cancel.isEmpty && q.retire.isNone && decide (g.role ≠ 0) && g.ready &&
    (decide (q.st ≠ .admitted) || !swapping)

/-- The order in which rows fill a step (R192): the priority flag, decode before prefill, decode by deadline and slot, prefill by serial. -/
def rowOrder (a b : Nat × Req × Bool) : Bool :=
  let p := a.2.1.prio
  let q := b.2.1.prio
  if p ≠ q then p
  else if a.2.2 ≠ b.2.2 then a.2.2
  else if a.2.2 then
    match a.2.1.deadline, b.2.1.deadline with
    | some x, some y => decide (x < y) || (decide (x = y) && decide (a.1 < b.1))
    | some _, none => true
    | none, some _ => false
    | none, none => decide (a.1 < b.1)
  else decide (a.2.1.serial < b.2.1.serial) || (decide (a.2.1.serial = b.2.1.serial) && decide (a.1 < b.1))

/-- The group a row goes to: an open group of its generation with room, else the next group, if the image has one. -/
def findGroup (rpg most : Nat) (gs : List GroupEntry) (wset gen : Nat) : Option Nat :=
  match gs.findIdx? fun g => decide (g.wset = wset) && decide (g.gen = gen) && decide (g.rows < rpg) with
  | some i => some i
  | none => if gs.length < most then some gs.length else none

/-- Put one row into the groups; unchanged where it finds none. -/
def putRow (rpg most rbase : Nat) (q : Req) (slot pos : Nat) (gs : List GroupEntry) (rows : List BatchRow) :
    List GroupEntry × List BatchRow :=
  match findGroup rpg most gs q.wset q.gen with
  | none => (gs, rows)
  | some i =>
    let gs := match gs[i]? with
      | some g => lset gs i { g with rows := g.rows + 1 }
      | none => gs ++ [⟨q.wset, q.gen, rbase, 1, false⟩]
    (gs, rows ++ [⟨slot, q.serial, i, pos, 0, false, false⟩])

/-- The groups and rows of a list of wanted rows in order: position lists of requests. -/
def fillGroups (rpg most : Nat) (rbase : Req → Nat) (want : List (Nat × Nat × Req)) : List GroupEntry × List BatchRow :=
  want.foldl (fun acc w => putRow rpg most (rbase w.2.2) w.2.2 w.1 w.2.1 acc.1 acc.2) ([], [])

/-- Distinct pages that the rows of a list need frames for. -/
def Dev.frameNeed (d : Dev) (j : Nat) (b : Job) (rows : List BatchRow) : Nat :=
  (rowEnds b j rows).foldl (fun n p => match tget d.reqs p.1 with | some q => n + (q.wants p.2).length | none => n) 0

/-- The longest part of the row list, from its front, that finds frames (R204): free ones, and those of full pages of requests without a
row. -/
def Dev.fitRows (d : Dev) (j : Nat) (b : Job) : Nat → List BatchRow → List BatchRow
  | 0, _ => []
  | n + 1, rows =>
    let r := rows.take (n + 1)
    if d.frameNeed j b r ≤ d.framesLeft j b + (d.spillable j b ((rowEnds b j r).map Prod.fst)).length then r
    else d.fitRows j b n rows

/-- Groups as they are with only some rows. -/
def regroup (gs : List GroupEntry) (rows : List BatchRow) : List GroupEntry :=
  (List.range gs.length).map fun i =>
    let n := (rows.filter fun r => decide (r.group = i)).length
    match gs[i]? with
    | some g => { g with rows := n, void := decide (n = 0) }
    | none => ⟨0, 0, 0, 0, true⟩

/-- An image's groups: those that received no row are void (R192). -/
def padGroups (n : Nat) (gs : List GroupEntry) : List GroupEntry := lpad n ⟨0, 0, 0, 0, true⟩ gs

/-- May the lead stage a step of a job now (R191, R371, R398, R405, R412)? -/
def Dev.mayStage (d : Dev) (j : Nat) (b : Job) : Bool :=
  let moored := (List.range 16).any fun p =>
    let q := d.port p
    decide (q.st = .inService) && decide (q.farState = 7) && b.members.contains q.farNum
  let probed := d.legs.all fun l => decide (l.1 / 4096 ≠ j) || !l.2.endsAt b.rank || l.2.probed
  decide (b.rank = 0) && decide (b.staged = none) && !moored && probed &&
    (decide (b.st = .running) || decide (b.st = .draining) || decide (b.phase = .restoring))

/-- The rows a job's requests have ready, in the order of R192, and which of them have rows that must wait for a completion ring (R300). -/
def Dev.readyRows (d : Dev) (j : Nat) (b : Job) : List (Nat × Nat × Req) × Nat :=
  let cand := (d.reqs.filter fun p => decide (p.2.job = j) && d.eligible b.comp p.2).map fun p =>
    let a := b.ahead (p.1 % 16384) p.2
    ((p.1, p.2, a.2.2), (a.1, a.2.1))
  let cand := cand.filter fun c => decide (0 < c.2.2)
  let sorted := osort (fun (x y : (Nat × Req × Bool) × (Nat × Nat)) => rowOrder x.1 y.1) cand
  let go := sorted.filter fun c => !d.tether.pend.any fun k => decide (k.ring = c.1.2.1.origin.ring) && d.ringFull c.1.2.1.origin.ring
  let stay := (sorted.filter fun c => d.tether.pend.any fun k => decide (k.ring = c.1.2.1.origin.ring) && d.ringFull c.1.2.1.origin.ring).foldl
    (fun n c => n + c.2.2) 0
  (go.flatMap fun c => (List.range c.2.2).map fun i => (c.1.1, c.2.1 + i, c.1.2.1), stay)

/-- Has a job a request in Prefill or Decode at this lead? -/
def Dev.serving (d : Dev) (j : Nat) : Bool :=
  d.reqs.any fun p => decide (p.2.job = j) && (decide (p.2.st = .prefill) || decide (p.2.st = .decode))

/-- A row and a group as the staging record carries them. -/
def BatchRow.word (r : BatchRow) : Nat :=
  r.slot + 2 ^ 14 * r.serial + 2 ^ 46 * r.group + 2 ^ 52 * r.pos + 2 ^ 74 * r.tok + (if r.sample then 2 ^ 92 else 0) + (if r.void then 2 ^ 93 else 0)
def GroupEntry.word (g : GroupEntry) : Nat := g.wset + 2 ^ 13 * g.gen + 2 ^ 45 * g.rows + (if g.void then 2 ^ 60 else 0)

/-- The lead sends the staging record on the control tree (R23, R191, R275, R411). -/
def Dev.sendStaging (d : Dev) (j : Nat) : Dev :=
  match tget d.jobs j with
  | none => d
  | some b =>
    let (ser, start, gs, rows) : Nat × Nat × List GroupEntry × List BatchRow :=
      match b.staged with | some st => (st.serial, st.start, st.groups, st.rows) | none => ((b.serial + 1) % 65536, 0, [], [])
    let table := (d.reqs.filter fun p => decide (p.2.job = j)).flatMap fun p =>
      [p.1, p.2.serial, p.2.history.length, p.2.kv, p.2.wset, p.2.gen] ++ p.2.history.take p.2.kv ++ p.2.input
    let done := b.applied.flatten.flatMap fun o => [o.ring, o.tag, o.opcode, o.serial, o.var, o.beat, o.status]
    d.tell j 1 ([ser, start, gs.length, rows.length] ++ gs.map GroupEntry.word ++ rows.map BatchRow.word ++ table ++ done)

/-- Stage the rows of a step: requests with rows leave Admitted, pages are found, the record is sent. -/
def Dev.putStaged (d : Dev) (j : Nat) (b : Job) (start : Nat) (gs : List GroupEntry) (rows : List BatchRow) (origin : Option Origin) : Dev :=
  let rows := if b.tiered then d.fitRows j b rows.length rows else rows
  let gs := padGroups (hGroups b.header) (regroup gs rows)
  let keys := (rowEnds b j rows).map Prod.fst
  let d := keys.foldl (fun d k => { d with reqs := tadj d.reqs k fun q => { q with st := if q.st = .admitted then .prefill else q.st } }) d
  let need := d.frameNeed j b rows - d.framesLeft j b
  let d := if b.tiered then ((d.spillable j b keys).take need).foldl (fun d p => d.spillPage p.1 p.2) d else d
  let d := d.adjJob j fun b => { b with staged := some ⟨(b.serial + 1) % 65536, gs, rows, start, rows.isEmpty, false, decide (b.phase = .restoring), origin⟩ }
  (d.supply j).sendStaging j

/-- STAGING (R191): the lead stages the next step with what has committed by the cut. -/
def Dev.stage (d : Dev) (_x : Ctx) (j start : Nat) : Dev :=
  match tget d.jobs j with
  | none => d
  | some b =>
    if !d.mayStage j b then d
    else
      let (want, stay) := d.readyRows j b
      let rbase (q : Req) : Nat := (d.genAt b.comp q.wset (if q.recB then 1 else 0)).rbase
      let (gs, rows) := fillGroups (hRpg b.header) (hGroups b.header) rbase want
      if rows.isEmpty && (!d.serving j || decide (b.phase = .restoring)) then (if b.step.isSome then d.sendStaging j else d)
      else
        let d := d.putStaged j b start gs rows none
        let got := match (tget d.jobs j).bind fun b => b.staged with | some st => st.rows.length | none => 0
        d.count (0x5300 + j) 0x0D (want.length - got + stay)

/-! The start of a step. -/

/-- A staged row as it starts: void where its request has ended or does not stand where staging expected it, else with its token and
whether a token is sampled (R199, R201). -/
def Dev.refreshRow (d : Dev) (j : Nat) (b : Job) (st : StepRec) (r : BatchRow) : BatchRow :=
  match tget d.reqs (b.reqKey j r.slot) with
  | none => { r with void := true }
  | some q =>
    let first := (st.rows.filter fun s => decide (s.slot = r.slot) && !s.void).foldl (fun m s => min m s.pos) r.pos
    let g := st.groups.getD r.group ⟨0, 0, 0, 0, true⟩
    let total := q.kv + q.input.length
    if r.void ∨ q.job ≠ j ∨ q.serial ≠ r.serial ∨ q.st.live = false ∨ q.retire.isSome ∨ first ≠ q.kv ∨ total ≤ r.pos ∨ g.wset ≠ q.wset ∨
        g.gen ≠ q.gen then { r with void := true }
    else
      let next := r.pos + 1
      { r with
        tok := q.input.getD (r.pos - q.kv) 0
        sample := !st.restore && (decide (next = total ∧ 0 < q.maxNew) || (decide (q.verifyFrom ≤ next) && decide (next < q.verifyUpTo))) }

/-- The word of a pointer-list entry after the step controller wrote the fields its fill mask selects (Table 3.6, R104). -/
def listEntry (old fill serial wset gen rows base : Nat) (void : Bool) : Nat :=
  let e := old
  let e := if fill.testBit 0 then putBits e 0 49 base else e
  let e := if fill.testBit 1 then putBits (putBits e 99 13 wset) 91 8 gen else e
  let e := if fill.testBit 2 then putBits e 84 7 rows else e
  if fill.testBit 3 then putBits (putBits e 112 16 serial) 83 1 (if void then 1 else 0) else e

/-- The rows of a group in order. -/
def StepRec.inGroup (st : StepRec) (g : Nat) : List BatchRow := st.rows.filter fun r => decide (r.group = g)

/-- Planned row number i of a step: row i mod RPG of group i / RPG. -/
def StepRec.rowAt (st : StepRec) (rpg i : Nat) : Option BatchRow := (st.inGroup (i / max 1 rpg))[i % max 1 rpg]?

/-- Entry i of a pointer list of the step (R103, R104, R193). first is the planned row of entry 0 of a batch list. -/
def Dev.entryWord (d : Dev) (x : Ctx) (j : Nat) (b : Job) (st : StepRec) (t first i : Nat) : Nat :=
  let rpg := hRpg b.header
  let old := leNat (x.mem.bytes (ptlBase t + 16 * i) 16)
  match ptlKind t with
  | 0 =>
    let g := st.groups.getD i ⟨0, 0, 0, 0, true⟩
    let rec_ := (d.recsOf b.comp g.wset).find? fun r => decide (r.2.gen = g.gen)
    let base := match rec_ with | some r => workBase + 65536 * r.2.rbase | none => workBase + 65536 * g.rbase
    let fill := if 64 < rpg then putBits (ptlFill t) 2 1 0 else ptlFill t
    listEntry old fill st.serial g.wset g.gen (st.inGroup i).length base g.void
  | 2 =>
    (match st.rowAt rpg (first + i) with
     | some r =>
       let g := st.groups.getD r.group ⟨0, 0, 0, 0, true⟩
       -- a void row names the discard frame, where its key-value writes go (R201, R202; assumption 187)
       listEntry old (ptlFill t) st.serial g.wset g.gen 1 (if r.void then b.kvBase else Config.requestBlock j r.slot * 128) r.void
     | none => listEntry old (ptlFill t) st.serial 0 0 0 0 false)
  | _ =>
    let f := Config.headEntry (ptlNum t) i st.serial
    listEntry old (ptlFill t) st.serial (bits f 111 99) (bits f 98 91) (bits f 90 84) (bits f 41 0 * 128) false

/-- Every pointer list of a job's image for a step (R103, R194): a batch list after the first continues its rows (R193). -/
def Dev.writeLists (d : Dev) (x : Ctx) (j : Nat) (b : Job) (st : StepRec) : Dev :=
  let ts := b.info.templates
  (List.range ts.length).foldl (fun d k =>
    let t := ts.getD k 0
    let before := ((ts.take k).filter fun u => decide (ptlKind u = 2)).length
    let first := if hTps b.header ≤ 4096 then 0 else 4096 * before
    d.memOp (.write (ptlBase t) ((List.range (ptlCount t)).flatMap fun i => leBytes 16 (d.entryWord x j b st t first i)))) d

/-- Valid counts, window serials and expected arrivals of a step, at its start (R84, R105, R112, R194). A void row counts like any other
(R220, R232). -/
def Dev.writeRegs (d : Dev) (b : Job) (st : StepRec) : Dev :=
  let rpg := hRpg b.header
  let n := 128 * b.groups.length
  let count (l v : Nat) : Option Nat := (Config.countSource l v).map fun i =>
    if rpg ≤ 64 then min 64 (st.inGroup (i % 64)).length
    else (match st.rowAt rpg i with | some _ => 1 | none => 0)
  let d := (List.range n).foldl (fun d l => d.adjFacet (physFacet b.groups l) fun f =>
    { f with valid := (List.range 16).map fun v => match count l v with | some k => k | none => f.valid.getD v 0 }) d
  let d := b.info.windows.foldl (fun d e => d.adjFacet (physFacet b.groups (ewFacet e)) fun f =>
    f.setWin (ewWin e) ⟨st.serial, ewExpect e, 0, 0⟩) d
  { d with stepser := tset d.stepser b.comp st.serial }

/-- Pages that a step opens get their headers (Table 4.6). -/
def Dev.openPages (d : Dev) (j : Nat) (b : Job) (rows : List BatchRow) : Dev :=
  rows.foldl (fun d r =>
    if r.void then d
    else
      let key := b.reqKey j r.slot
      match (tget d.reqs key).bind fun q => q.pages[r.pos / 64]? with
      | some p => if p.fill = 0 then d.fillPage key (r.pos / 64) 1 else d
      | none => d) d

/-- Is a data-class gust control armed (R242, R453)? -/
def Dev.injArmed (d : Dev) : Bool := d.gust.armed && decide (d.num 0x6000 0x16 ≠ 0)

/-- A counter of every routed layer of a job, by layer (Table 6.1). -/
def Dev.layerCtrs (d : Dev) (b : Job) (f : Nat → Nat) : Tab Nat :=
  b.info.routing.foldl (fun t r => tset t (rrLayer r) (d.syncCtr (syncOf b.comp (f r)))) []

/-- The staged step of a job starts (R194, R195). Its plans are counted from where RETCTR and CNTCTR stand; a step that runs again keeps the plans
of its aborted run apart (R234). -/
def Dev.startStep (d : Dev) (x : Ctx) (j : Nat) : Dev :=
  match tget d.jobs j with
  | none => d
  | some b =>
    match b.staged with
    | none => d
    | some st =>
      if st.groups = [] then d.setJob j { b with staged := none }
      else
        let st := { st with serial := (b.serial + 1) % 65536 }
        let rows := st.rows.map (d.refreshRow j b st)
        let live := rows.filter fun r => !r.void
        let gs := st.groups
        let st := { st with rows := rows, start := x.time.beat, null := live.isEmpty }
        let d := d.setJob j { b with step := some st, staged := none, serial := st.serial, doneBeats := [], doneFlags := [], results := [],
                                     plans := [], held := false, inj := d.injArmed, early := []
                                     retBase := d.layerCtrs b rrRetctr, cntBase := d.layerCtrs b rrCntctr
                                     reruns := b.reruns.filter fun p => decide (p.serial = st.serial) }
        let d := { d with reqs := live.foldl (fun (t : Tab Req) (r : BatchRow) => tadj t (b.reqKey j r.slot) fun q => { q with lastStep := x.time.beat }) d.reqs }
        let d := gs.foldl (fun (d : Dev) (g : GroupEntry) => if g.void then d else
          match (d.recsOf b.comp g.wset).find? fun r => decide (r.2.gen = g.gen) with
          | some r => d.adjGen b.comp g.wset r.1 fun g => { g with stepped := x.time.beat }
          | none => d) d
        ((d.writeLists x j b st).writeRegs b st).openPages j b rows

end Sys2Proof.Machine
end

