-- ==== Sys2Proof/Machine/Commit.lean ====
section
/-!
DEFINITION. What a step commits at its boundary (R196, R199, R206 to R212, R241, R249): rows, tokens, digests, completions.
-/

namespace Sys2Proof.Machine

/-! Digests (R248 to R252). -/

/-- h of R249. -/
def chain (old : List Byte) (n : Nat) (data : List Byte) : List Byte := digest16 (old ++ leBytes 4 n ++ data)

/-- What a row at the end of some tokens produces within the guarantee (R236, R243): the logits of every rank's share and this member's page
data, by image, generation, slice size, rank and tokens alone. -/
def Job.rowResult (b : Job) (wsid : Nat) (toks : List Nat) : RowResult :=
  ⟨Config.rowLogits b.info.digest wsid b.slice toks, Config.rowData b.info.digest wsid b.slice b.rank toks⟩

/-- The WSID of the generation that a request is bound to. -/
def Dev.wsidOf (d : Dev) (b : Job) (q : Req) : Nat := (d.genAt b.comp q.wset (if q.recB then 1 else 0)).wsid

/-- Every token that a request has run or is to run, in order. -/
def Req.stream (q : Req) : List Nat := q.history.take q.kv ++ q.input

/-- The page data of a position of a reused block (R249): what a row there produces, unless the block lies outside the guarantee (R240). -/
def Job.sharedBytes (b : Job) (wsid h : Nat) (toks : List Nat) (n : Nat) : List Byte :=
  if (match b.entryOf h with | some e => e.foul | none => false) then Config.sharedData h n else (b.rowResult wsid (toks.take (n + 1))).kv

/-- The entry of a request reset at its ADMIT (R250): reused pages are chained from their bytes. -/
def newDigest (j serial mode : Nat) (image : List Byte) (pages : List Page) (bytes : Nat → Nat → List Byte) : DigEntry :=
  let e : DigEntry := ⟨List.replicate 16 0, List.replicate 16 0, List.replicate 16 0, serial, image.take 4, 0, 0, mode, 0, j, 0⟩
  (List.range pages.length).foldl (fun (e : DigEntry) (i : Nat) =>
    match (pages.map Page.place)[i]? with
    | some (.shared h _) =>
      let e := { e with next := 64 * (i + 1) }
      if mode ≠ 3 then e
      else (List.range 64).foldl (fun (e : DigEntry) k =>
        { e with kv := chain e.kv (64 * i + k) (bytes h (64 * i + k)), kvpos := e.kvpos + 1 }) e
    | _ => e) e

/-- Do the chains of a request still lack position n: it runs for the first time, or again after a loss that the chains share (R252)? -/
def Dev.unchained (d : Dev) (key n : Nat) (again : Bool) : Bool :=
  !again || (match tget d.digests key with | some e => decide (e.next ≤ n) | none => false)

/-- The page data of a committed row is chained (R249). -/
def Dev.chainKv (d : Dev) (key n : Nat) (bytes : List Byte) : Dev :=
  { d with digests := tadj d.digests key fun e =>
      let e := { e with next := n + 1 }
      if e.mode = 3 then { e with kv := chain e.kv n bytes, kvpos := e.kvpos + 1 } else e }

/-- A sampled token and this member's logit share are chained (R249). -/
def Dev.chainTok (d : Dev) (key pos tok : Nat) (share : List (Nat × Lane)) : Dev :=
  let bytes := (osort (fun (a b : Nat × Lane) => decide (a.1 < b.1)) share).flatMap fun p => leBytes 4 p.2.toNat
  { d with digests := tadj d.digests key fun e =>
      { e with tok := if 1 ≤ e.mode then chain e.tok pos (leBytes 4 tok) else e.tok
               log := if 2 ≤ e.mode then chain e.log pos bytes else e.log
               sampled := e.sampled + 1 } }

/-! Completions of tokens (Tables 9.9 and 9.10, R309). -/

/-- A token's completion (KIND 1). -/
def Dev.tokenDone (d : Dev) (x : Ctx) (slot : Nat) (q : Req) (pos tok flags status : Nat) (final : Bool) : Dev :=
  d.post ⟨q.origin.tag, q.serial, x.time.beat, slot * 2 ^ 46 + pos * 2 ^ 24 + tok * 2 ^ 6, q.job, 1, 1, q.origin.ring,
    flags + (if q.genChanged then 2 else 0) + (if final then 1 else 0), status, 0, final⟩

/-- A request ends with its last token's completion: nothing else is posted for it, its pending commands complete CANCELLED. -/
def Dev.finishReq (d : Dev) (x : Ctx) (key : Nat) : Dev :=
  if 16384 ≤ key then d.release key else (d.endPending x key Config.cancelled).release key

/-- Has a CANCEL that came before this beat marked a request (R201)? -/
def Dev.cancelled (d : Dev) (x : Ctx) (q : Req) : Bool :=
  q.cancel.any fun o => match d.cmd o.ring o.tag with | some c => decide (c.beat < x.time.beat) | none => true

/-- The sampled token of a row joins its request (R190, R196, R199, R209 to R212). fl holds the step's flags. -/
def Dev.commitToken (d : Dev) (x : Ctx) (key fl n : Nat) (lead : Bool) (q : Req) (b : Job) (tok : Nat) : Dev :=
  let pos := n + 1
  let report := decide (q.verifyFrom ≤ pos) && decide (pos < q.verifyUpTo) && !q.input.isEmpty
  let put (q : Req) (d : Dev) : Dev := { d with reqs := tset d.reqs key q }
  if report then
    let d := if lead then d.tokenDone x key q pos tok (fl + 32) (if q.replayed then Config.replayed else Config.ok) false else d
    put { q with genChanged := false, replayed := false, verified := q.verified ++ [(pos, tok)] } d
  else
    let late := match q.deadline with | some t => decide (t < x.time.beat) | none => false
    let q' := { q with
      history := q.history ++ [tok], input := [tok], made := q.made ++ [pos], mask := b.advance q.mask tok, st := .decode
      deadline := if q.tbt = 0 then none else some (x.time.beat + beatsOf q.tbt)
      genChanged := false, replayed := false }
    let missed := late && q.hard
    let full := q.stops.contains tok || decide (q.maxNew ≤ q'.made.length) || decide (2097152 ≤ q'.history.length)
    let final := full && !missed
    let status := if q.replayed then Config.replayed else if late then Config.late else Config.ok
    let d := if lead then
        let d := d.tokenDone x key q pos tok (fl + (if late then 64 else 0)) status final
        let d := if q.replayed then d else d.count (0x5300 + q.job) 1 1
        if late then d.count (0x5300 + q.job) 2 1 else d
      else d
    let d := put { q' with retire := if missed then some Config.deadlineMissed else q'.retire } d
    if final then d.finishReq x key else d

/-- The tokens that were sampled at a position of a request, in order: reported at an appended position, and committed. -/
def Req.sampledAt (q : Req) (pos : Nat) : List Nat :=
  ((q.verified.filter fun v => decide (v.1 = pos)).map Prod.snd) ++ (if q.made.contains pos then [q.history.getD pos 0] else [])

/-- A page of a request closes with 64 committed tokens: its block is registered (R207), its parity kept (R422). -/
def Dev.closePage (d : Dev) (x : Ctx) (key page : Nat) : Dev := (d.register x key page).writeParity key page

/-- One row of the step commits (R196): its position, its history entry, its page's FILL, its digests, its token. What it produced is the
guarantee's (R236), unless it lies outside (R240). Nothing of a row whose request has been cancelled commits (R201). -/
def Dev.commitRow (x : Ctx) (j fl : Nat) (st : StepRec) (d : Dev) (p : BatchRow × RowResult) : Dev :=
  let row := p.1
  match tget d.jobs j with
  | none => d
  | some b =>
    let key := b.reqKey j row.slot
    match tget d.reqs key with
    | none => d
    | some q =>
      if row.void ∨ q.serial ≠ row.serial ∨ q.st.live = false ∨ q.kv ≠ row.pos ∨ d.cancelled x q then d
      else
        let n := row.pos
        let again := decide (n < q.replayTo)
        let fresh := decide (n = q.history.length)
        let res := if d.foul key b q then p.2 else b.rowResult (d.wsidOf b q) (q.stream.take (n + 1))
        let q := { q with
          kv := n + 1, input := q.input.drop 1, history := if fresh then q.history ++ [row.tok] else q.history
          mask := if fresh && decide (q.promptLen ≤ n) then b.advance q.mask row.tok else q.mask }
        let d := { d with reqs := tset d.reqs key q }
        let d := match q.pages[n / 64]? with
          | some g =>
            let d := if g.fill < n % 64 + 1 then d.fillPage key (n / 64) (n % 64 + 1) else d
            if n % 64 = 63 then d.closePage x key (n / 64) else d
          | none => d
        let open_ := d.unchained key n again
        let d := if open_ then d.chainKv key n res.kv else d
        if st.restore then
          let d := d.count (0x5340 + j) 0x0A 1
          if open_ then (q.sampledAt (n + 1)).foldl (fun (d : Dev) (t : Nat) => d.chainTok key (n + 1) t (res.logits.getD b.rank [])) d else d
        else if row.sample = false then
          if q.input = [] ∧ q.maxNew = 0 then { d with reqs := tadj d.reqs key fun q => { q with retire := some Config.ok } } else d
        else
          match selectToken q.temp q.topk q.topp q.seed (n + 1) (candidates (b.allows q.mask) res.logits) with
          | none => { d with reqs := tadj d.reqs key fun q => { q with retire := some Config.aborted } }
          | some tok => (d.chainTok key (n + 1) tok (res.logits.getD b.rank [])).commitToken x key fl n (decide (b.rank = 0)) q b tok

/-- INJ and WIN of a step over all members (R241). -/
def stepFlags (b : Job) (st : StepRec) : Nat :=
  let or := b.doneFlags.foldl (fun n p => Nat.lor n p.2) 0
  (if or.testBit 1 then 16 else 0) + (if or.testBit 0 then 8 else 0) + (if st.extra then 4 else 0)

/-- The step in progress commits and ends (R196, R211, R215, R241, R308). -/
def Dev.commitStep (d : Dev) (x : Ctx) (j : Nat) : Dev :=
  match tget d.jobs j with
  | none => d
  | some b =>
    match b.step with
    | none => d
    | some st =>
      let fl := if st.null then 0 else stepFlags b st
      let len := x.time.beat - st.start
      let pairs := (List.range st.rows.length).map fun i => (st.rows.getD i ⟨0, 0, 0, 0, 0, false, true⟩, b.results.getD i ⟨[], []⟩)
      let live := (st.rows.filter fun r => !r.void)
      let d := if st.null then d else
        let d := if fl.testBit 3 then d.count (0x54C0 + j) 3 1 else d
        let d := if fl.testBit 4 then d.count (0x54C0 + j) 4 1 else d
        let mark (e : DigEntry) : DigEntry :=
          { e with flags := Nat.lor e.flags ((if fl.testBit 3 then 2 else 0) + (if fl.testBit 4 then 4 else 0)) }
        let d := { d with digests := live.foldl (fun t (r : BatchRow) => tadj t (b.reqKey j r.slot) mark) d.digests }
        pairs.foldl (Dev.commitRow x j fl st) d
      -- every member has ended the step, so every member had released its rounds (R230)
      let d := d.answerPlans x j Config.ok
      let d := d.adjJob j fun b => { b with step := none, lastStep := len, doneBeats := [], doneFlags := [], results := [], plans := [],
                                            early := [], reruns := [], held := false, inj := false }
      let d := (d.count (0x5000 + j) 8 1)
      let d := if st.null then d.count (0x5000 + j) 9 1 else d
      match st.origin with
      | some o =>
        let status := if st.null then Config.nullStep else Config.ok
        (d.post ⟨o.tag, st.serial, x.time.beat, live.length * 2 ^ 46 + len % 65536 * 2 ^ 30, j, 3, 0x30, o.ring, 0, status, 0, true⟩).setNum
          (0x5400 + j) 3 status
      | none => d

end Sys2Proof.Machine
end

