-- ==== Sys2Proof/Machine/Plans.lean ====
section
/-!
DEFINITION. Round plans (R226 to R234, Tables 6.2 to 6.5): the count record, the release of a group's rounds, and the plans of Spar step
mode.
-/

namespace Sys2Proof.Machine

/-- The routing record of a layer in a job's active image (Table 6.1). -/
def Job.routeOf (b : Job) (layer : Nat) : Option Nat := b.info.routing.find? fun r => decide (rrLayer r = layer)

/-- The 192 bytes of the count record that the router wrote last for a layer (Table 6.2). -/
def Job.countRecord (b : Job) (x : Ctx) (r : Nat) : List Byte := x.mem.bytes (facetAddr (physFacet b.groups (rrRouter r)) (rrCounts r)) 192

/-- Does a count record belong to a step, layer and group? -/
def countFor (rec_ : List Byte) (serial layer group : Nat) : Bool :=
  decide (leNat (rec_.take 2) = serial) && decide (leNat ((rec_.drop 2).take 1) = layer) && decide (leNat ((rec_.drop 3).take 1) = group)

/-- NEED and MAXC of a count record. -/
def countNeed (rec_ : List Byte) : Nat := leNat ((rec_.drop 4).take 1)
def countMax (rec_ : List Byte) : Nat := leNat ((rec_.drop 6).take 2)

/-- The plan of a layer and group, if it exists. -/
def Job.planOf (b : Job) (layer group : Nat) : Option Plan :=
  b.plans.find? fun p => decide (p.layer = layer) && decide (p.group = group)

/-- Replace the plan of a layer and group. -/
def Job.setPlan (b : Job) (p : Plan) : Job :=
  { b with plans := (b.plans.filter fun q => decide (q.layer ≠ p.layer) || decide (q.group ≠ p.group)) ++ [p] }

/-- Payload bits [63:0] of a round flit (Table 6.3). -/
def roundWord (serial layer group round rounds : Nat) : Nat :=
  serial % 65536 * 2 ^ 48 + layer % 256 * 2 ^ 40 + group % 256 * 2 ^ 32 + round % 256 * 2 ^ 24 + rounds % 256 * 2 ^ 16

/-- The plans of a layer in the step in progress. -/
def Job.layerPlans (b : Job) (layer : Nat) : List Plan := b.plans.filter fun p => decide (p.layer = layer)

/-- RETCTR at which a plan of R rounds is complete (R226): from where the step found RETCTR, SLICE blocks for each round of the layer's plans so
far, which follow one another. -/
def Job.planTarget (b : Job) (layer rounds : Nat) : Nat :=
  tgetD b.retBase layer 0 + b.slice * ((b.layerPlans layer).foldl (fun n p => if p.st = .pending then n else n + p.rounds) 0 + rounds)

/-- A released plan whose return blocks have all been applied is Complete (R226, Table 6.5). -/
def Dev.settlePlan (d : Dev) (b : Job) (p : Plan) : Plan :=
  match b.routeOf p.layer with
  | some r => if p.st = .released ∧ p.target ≤ d.syncCtr (syncOf b.comp (rrRetctr r)) then { p with st := .complete } else p
  | none => p

/-- The plans of a job are brought up to date. -/
def Dev.settlePlans (d : Dev) (j : Nat) : Dev := d.adjJob j fun b => { b with plans := b.plans.map (d.settlePlan b) }

/-- Has the router signalled CNTCTR for one more group of a layer than there are plans (R221, R229): the record in memory is of this run of the
step? -/
def Dev.counted (d : Dev) (b : Job) (route : Nat) : Bool :=
  decide (tgetD b.cntBase (rrLayer route) 0 + (b.layerPlans (rrLayer route)).length < d.syncCtr (syncOf b.comp (rrCntctr route)))

/-- Release the rounds of a group (R228): the plan word, round flits 2 to R into RQ, the one of round R with L = 1, then PLANCTR. -/
def Dev.releasePlan (d : Dev) (x : Ctx) (j layer group rounds : Nat) : Dev :=
  match tget d.jobs j with
  | none => d
  | some b =>
    match b.routeOf layer, b.step with
    | some r, some st =>
      let rec_ := b.countRecord x r
      let old := b.planOf layer group
      let need := match old with | some p => p.need | none => countNeed rec_
      let maxc := match old with | some p => p.maxc | none => countMax rec_
      let p : Plan := { layer := layer, group := group, serial := st.serial, need := need, maxc := maxc, rounds := rounds, st := .released,
                        target := b.planTarget layer rounds, begun := x.time.beat, origin := old.bind Plan.origin,
                        waiting := match old with | some p => p.waiting | none => [] }
      let wait := match old with | some p => x.time.beat - p.begun | none => 0
      let d := d.setJob j { (b.setPlan p) with step := some { st with extra := st.extra || decide (1 < rounds) } }
      let ret := physFacet b.groups (rrReturn r)
      let d := d.memOp (.write (facetAddr ret (rrPlan r)) (leBytes 8 (roundWord st.serial layer group 0 rounds)))
      let disp := physFacet b.groups (rrDispatch r)
      let flits := (List.range (rounds - 1)).map fun i =>
        (rrRq r, (⟨roundWord st.serial layer group (i + 2) rounds, mkSb true (d.facet disp).epoch (decide (i + 2 = rounds)) 0⟩ : Flit))
      let d := d.adjFacet disp fun f => { f with arriving := f.arriving ++ flits }
      let d := d.addSync (syncOf b.comp (rrPlanctr r)) 1
      let d := ((d.count (0x5440 + j) 1 rounds).count (0x5440 + j) 2 (rounds - 1)).count (0x5440 + j) 4 wait
      if st.restore then d else d.count (0x5440 + j) 6 (rounds - need)
    | _, _ => d

/-- Is a job's step in progress, so that its groups are planned? -/
def Job.planning (b : Job) : Bool :=
  b.step.isSome && (decide (b.st = .running) || decide (b.st = .draining) || decide (b.phase = .restoring))

/-- PLAN_RELEASE (R229): in native job mode, and in restore steps of either mode (R424), the step controller plans R = NEED. -/
def execPlanRelease (job layer group : Nat) (s : State) : Host.Outcome State Fault Refusal :=
  onDev s fun x d =>
    match tget d.jobs job with
    | none => d
    | some b =>
      match b.routeOf layer, b.step with
      | some r, some st =>
        let rec_ := b.countRecord x r
        if !d.alive || !b.planning || (b.spar && !st.restore) || (b.planOf layer group).isSome || !countFor rec_ st.serial layer group ||
            !d.counted b r then d
        else ((d.settlePlans job).peak (0x5440 + job) 3 (countMax rec_)).releasePlan x job layer group (countNeed rec_)
      | _, _ => d

/-- An accepted plan's rounds are released at the lead and forwarded; its ROUND_PLAN completes OK once every member has released them (R230). -/
def Dev.acceptPlan (d : Dev) (x : Ctx) (j : Nat) (p : Plan) (rounds : Nat) (o : Origin) : Dev :=
  let others := match tget d.jobs j with | some b => (List.range b.slice).filter fun r => decide (r ≠ b.rank) | none => []
  let d := d.adjJob j fun b => b.setPlan { p with origin := some o, waiting := others }
  let d := (d.releasePlan x j p.layer p.group rounds).tell j 5 [p.layer, p.group, p.serial, rounds]
  if others.isEmpty then d.answerO x o Config.ok else d

/-- The plan of a layer and group in the aborted run of a step that runs again (R234). -/
def Job.rerunOf (b : Job) (layer group serial : Nat) : Option Plan :=
  b.reruns.find? fun p => decide (p.layer = layer) && decide (p.group = group) && decide (p.serial = serial)

/-- Replace the plan of a layer and group in the aborted run. -/
def Job.setRerun (b : Job) (p : Plan) : Job :=
  { b with reruns := (b.reruns.filter fun q => decide (q.layer ≠ p.layer) || decide (q.group ≠ p.group)) ++ [p] }

/-- A plan that came before its count record is released with it (R230, R234): forwarded by the lead, or accepted at the lead for the step that runs
again. -/
def Dev.earlyPlan (d : Dev) (x : Ctx) (j : Nat) (p : Plan) : Dev :=
  match tget d.jobs j with
  | none => d
  | some b =>
    if b.rank ≠ 0 then
      match b.early.find? fun e => decide (e.1 = p.layer) && decide (e.2.1 = p.group) && decide (e.2.2.1 = p.serial) with
      | some e => (d.releasePlan x j p.layer p.group e.2.2.2).tell j 6 [p.layer, p.group, p.serial]
      | none => d
    else
      match b.rerunOf p.layer p.group p.serial with
      | some r => (match r.origin with | some o => (d.adjJob j fun b => b.setRerun { r with origin := none, waiting := [] }).acceptPlan x j p r.rounds o | none => d)
      | none => d

/-- COUNT_COMPLETION (R230, Table 9.10): in Spar step mode the plan is pending; the lead copies the count record to the host and posts a
count completion with the STEP's TAG. -/
def execCountCompletion (job layer group : Nat) (s : State) : Host.Outcome State Fault Refusal :=
  onDev s fun x d =>
    match tget d.jobs job with
    | none => d
    | some b =>
      match b.routeOf layer, b.step with
      | some r, some st =>
        let rec_ := b.countRecord x r
        let need := countNeed rec_
        let maxc := countMax rec_
        if !d.alive || !b.planning || !b.spar || st.restore || (b.planOf layer group).isSome || !countFor rec_ st.serial layer group ||
            !d.counted b r then d
        else
          let p : Plan := ⟨layer, group, st.serial, need, maxc, 0, .pending, 0, x.time.beat, none, []⟩
          let d := (((d.settlePlans job).adjJob job fun b => b.setPlan p)).peak (0x5440 + job) 3 maxc
          let d := match st.origin with
          | some o =>
            (d.hostWrite (b.countBuf + 256 * group) rec_).post
              ⟨o.tag, st.serial, x.time.beat, layer * 2 ^ 52 + group * 2 ^ 46 + need * 2 ^ 38 + maxc * 2 ^ 22, job, 2, 0x30, o.ring, 0,
                Config.ok, 0, false⟩
          | none => d
          d.earlyPlan x job p
      | _, _ => d

/-- ROUND_PLAN (R230, R234, Table 6.4): acceptance is its commit point; it completes when every member has released the rounds. One for a run
of the step that was aborted is accepted for the run that follows, and waits for its count record. -/
def execRoundPlan (ring tag : Nat) (s : State) : Host.Outcome State Fault Refusal :=
  onDev s fun x d =>
    d.runCmd x ring tag (fun e => decide (eOpcode e = 0x31)) fun e d =>
      let j := eJob e
      let refuse (d : Dev) : Dev := (d.count (0x5440 + j) 0x0B 1).answer x ring tag Config.range
      match tget d.jobs j with
      | none => refuse d
      | some b =>
        let layer := ebyte e 10
        let group := ebyte e 11
        let rounds := ebyte e 12
        let serial := efield e 8 2
        let misfit (p : Plan) : Bool := decide (rounds < p.need) || decide (hRounds b.header < rounds)
        if !b.spar || decide (b.rank ≠ 0) then refuse d
        else match b.planOf layer group, b.rerunOf layer group serial with
          | none, none => refuse d
          | none, some p =>
            if p.origin.isSome then d.answer x ring tag Config.alreadyDone
            else if misfit p then refuse d
            else (d.adjCmd ring tag fun c => { c with committed := true }).adjJob j fun b => b.setRerun { p with origin := some ⟨ring, tag⟩, rounds := rounds, waiting := [b.rank] }
          | some p, _ =>
            if p.serial ≠ serial ∨ b.planning = false then refuse d
            else if p.st ≠ .pending then d.answer x ring tag Config.alreadyDone
            else if misfit p then refuse d
            else (d.adjCmd ring tag fun c => { c with committed := true }).acceptPlan x j p rounds ⟨ring, tag⟩

/-- ROUND_PLAN_FORWARD (R230): an accepted plan reaches this member, which releases the rounds and reports, at once or with its count record; at the
lead, a member reports that it has released them. Either goes on along the control tree (R275). -/
def execRoundPlanForward (job member layer group serial rounds : Nat) (s : State) : Host.Outcome State Fault Refusal :=
  onDev s fun x d =>
    match tget d.jobs job with
    | none => d
    | some b =>
      if !d.alive || !b.spar then d
      else
      let d := if member = b.rank then d.relay job 0 5 [layer, group, serial, rounds] else d.relay job member 6 [layer, group, serial]
      match b.planOf layer group with
        | none =>
          if b.rank ≠ 0 ∧ member = b.rank then d.adjJob job fun b => { b with early := b.early ++ [(layer, group, serial, rounds)] } else d
        | some p =>
          if p.serial ≠ serial ∨ b.planning = false then d
          else if member = b.rank then
            if p.st = .pending then (d.releasePlan x job layer group rounds).tell job 6 [layer, group, serial] else d
          else
            let left := p.waiting.filter fun r => decide (r ≠ member)
            let d := d.setJob job (b.setPlan { p with waiting := left })
            match p.origin with
            | some o => if left.isEmpty && !p.waiting.isEmpty then d.answerO x o Config.ok else d
            | none => d

end Sys2Proof.Machine
end

