-- ==== Sys2Proof/Machine/StepLoop.lean ====
section
/-!
DEFINITION. The step boundary (R24, R31, R32, R190 to R196, R201, R212, R300, R371) and the commands of the step loop: done beats,
boundaries, stuck steps, staging records, and the STEP of Spar step mode (R214 to R216).
-/

namespace Sys2Proof.Machine

/-! Changes with commit timing S. -/

/-- Take the pending S changes that satisfy a test and are due, in order of acceptance, and apply each; what answers false stays pending,
before later ones. -/
def Dev.takeS (d : Dev) (x : Ctx) (p : SChange → Bool) (f : SChange → Dev → Dev × Bool) : Dev :=
  let due (c : SChange) : Bool := p c && decide (c.accepted < x.time.beat)
  let mine := osort (fun (a b : SChange) => decide (a.order < b.order)) (d.schanges.filter due)
  let d := { d with schanges := d.schanges.filter fun c => !due c }
  let r := mine.foldl (fun (a : Dev × List SChange) (c : SChange) =>
    let t := f c a.1
    (t.1, if t.2 then a.2 else a.2 ++ [c])) (d, [])
  { r.1 with schanges := r.2 ++ r.1.schanges }

/-- A granted group of class S reaches its step boundary (R30, R118, R185): values commit, a reconfiguration's fence starts, a swap commits
if it may. here is the job whose boundary this is. -/
def Dev.groupS1 (x : Ctx) (here : Option Nat) (d : Dev) (n : Nat) : Dev :=
  match tget d.groups n with
  | none => d
  | some g =>
    match g.action with
    | none => d.commitGroup x n
    | some e =>
      let c := leNat (e.value.take 1)
      if e.index = 1 then
        let k := d.canopyOf c
        if k.st = .fenced ∨ k.st = .flipping then d
        else if k.st = .shadowValid ∧ k.shadow.digest = (e.value.drop 8).take 32 ∧ d.shadowsValid c = true then
          d.setCanopy c { k with st := .fenced, group := some n, job := none, fence := x.time.beat, drain := none, drains := [] }
        else d.finishGroup x n .failed Config.commitFailed 0
      else if e.index = 2 then
        let w := leNat ((e.value.drop 2).take 2)
        let now := (leNat ((e.value.drop 4).take 1)).testBit 0
        if (d.guardFault g).isSome || (d.groupFault x g).isSome then (d.dropAction n g).commitGroup x n
        else match tget (d.catalog c).entries w with
          | some en =>
            if en.swap = some (2 ^ 40 + n) ∧ (en.place 2).isSome = true then
              let r := d.commitSwap x here c w now ⟨64, 0⟩
              if r.2 then r.1.commitGroup x n else r.1
            else d.finishGroup x n .failed Config.commitFailed 0
          | none => d.finishGroup x n .failed Config.commitFailed 0
      else d

/-- A register write with commit timing S reaches its facet between iterations: one that finds the facet inside an iteration stays pending. A
window's serial clears its arrivals (R84). -/
def Dev.facetS (d : Dev) (n : Nat) (f : Facet → Facet) : Dev × Bool :=
  if (d.facet n).run = .running then (d, false) else (d.adjFacet n f, true)

/-- What a pending change that is no request's does (R31, R180, R183 to R187); false where it stays pending. A register write without a job comes to
every further Running job of its compartment. -/
def Dev.effectS (x : Ctx) (here : Option Nat) (s : SChange) (d : Dev) : Dev × Bool :=
  let further (r : Dev × Bool) : Dev × Bool := (if r.2 && s.job.isNone then r.1.spread s.comp here s.effect else r.1, r.2)
  match s.effect with
  | .load wset r arch o => (d.commitLoad x s.comp wset r arch o, true)
  | .swapCmd wset now o => d.commitSwap x here s.comp wset now o
  | .evict wset gen force o => (d.commitEvict x here s.comp wset gen force o, true)
  | .rebind wset gen p => (match here with | some j => d.lateRebind s.comp j wset gen p | none => d, true)
  | .unbind wset gen => (match here with | some j => d.lateUnbind x j wset gen | none => d, true)
  | .endJob cancel o =>
    (match s.job with
     | some j =>
       let d := d.adjJob j fun b => { b with st := if b.st = .running then .draining else b.st, endOrigin := b.endOrigin ++ [o] }
       if cancel then d.retireAll x j Config.cancelled else d
     | none => d, true)
  | .window n w v => further (d.facetS n fun f => f.setWin w { f.win w with serial := v, arrivals := 0 })
  | .wexpect n w v => further (d.facetS n fun f => f.setWin w { f.win w with expect := v })
  | .vcount n i v => further (d.facetS n fun f => { f with valid := lset f.valid i v })
  | .stepser v => further ({ d with stepser := tset d.stepser s.comp v }, true)
  | .request .. => (d, false)
  | .admitted _ => (d, false)

/-- Does a change belong to a request? -/
def SChange.ofRequest (s : SChange) : Bool := match s.effect with | .request .. => true | .admitted _ => true | _ => false

/-- Does a change wait for a step boundary of its job even where the job is Draining: JOB_END and what reaches a job's requests (R180, R190)? -/
def SChange.ofSteps (s : SChange) : Bool :=
  s.ofRequest || (match s.effect with | .endJob .. => true | .rebind .. => true | .unbind .. => true | _ => false)

/-- Is a granted group of class S due? -/
def Group.dueS (g : Group) (now : Nat) : Bool :=
  decide (g.cls = 2) && decide (g.grantBeat < now) && (match g.action with | some e => decide (e.index < 3) | none => true)

/-- Groups and pending changes that satisfy two tests and are due, in order of acceptance (R32). -/
def Dev.orderedS (d : Dev) (x : Ctx) (here : Option Nat) (pg : Group → Bool) (ps : SChange → Bool) : Dev :=
  let gs := (d.groups.filter fun g => decide (g.2.st = .granted) && g.2.dueS x.time.beat && pg g.2).map fun g => (g.2.order, some g.1)
  let cs := (d.schanges.filter fun s => ps s && !s.ofRequest && decide (s.accepted < x.time.beat)).map fun s => (s.order, none)
  (osort (fun (a b : Nat × Option Nat) => decide (a.1 < b.1)) (gs ++ cs)).foldl (fun (d : Dev) (i : Nat × Option Nat) =>
    match i.2 with
    | some n => d.groupS1 x here n
    | none => d.takeS x (fun s => decide (s.order = i.1) && !s.ofRequest) (Dev.effectS x here)) d

/-! Requests at a step boundary (R196, R199 to R201, R208, R212). -/

/-- Marked requests end, with CANCELLED (R201). -/
def Dev.cancelS (d : Dev) (x : Ctx) (j : Nat) : Dev :=
  (d.reqsOf j).foldl (fun d key =>
    match tget d.reqs key with
    | some q => if q.st.live && d.cancelled x q then d.retire x key Config.cancelled else d
    | none => d) d

/-- Why a live request ends at this boundary, if it does: what a step decided, a bad generation (R184), a missed deadline before its first
row (R212). -/
def Dev.endCause (d : Dev) (x : Ctx) (c key : Nat) (q : Req) : Option Nat :=
  let g := d.genAt c q.wset (if q.recB then 1 else 0)
  let late := match q.deadline with | some t => decide (t < x.time.beat) | none => false
  if q.retire.isSome then q.retire
  else if 16384 ≤ key then none
  else if g.role ≠ 0 ∧ g.res = 3 then some g.badst
  else if q.st = .admitted ∧ q.committed = true ∧ q.hard = true ∧ late = true then some Config.deadlineMissed
  else none

/-- Retirements of the boundary; a request whose last descriptor has ended becomes Free (Table 5.6). -/
def Dev.retireS (d : Dev) (x : Ctx) (j c : Nat) : Dev :=
  (d.reqsOf j).foldl (fun d key =>
    match tget d.reqs key with
    | some q =>
      if q.st = .retiring then d.release key
      else (match d.endCause x c key q with | some st => d.retire x key st | none => d)
    | none => d) d

/-- A TRIM at its boundary (R200): the last remaining token, if one remains, is pending input again. -/
def Req.trimTo (b : Job) (q : Req) (len : Nat) : Req :=
  let hist := q.history.take len
  let kv := min q.kv (len - 1)
  let later := q.input.drop (q.history.length - q.kv)
  let input := hist.drop kv ++ later
  { q with
    history := hist, kv := kv, input := input, made := q.made.filter fun p => decide (p < len)
    verified := q.verified.filter fun p => decide (p.1 < len), promptLen := min q.promptLen len
    st := if q.st = .admitted then .admitted else if input.length ≤ 1 then .decode else .prefill
    verifyUpTo := min q.verifyUpTo len, replayTo := min q.replayTo (len - 1), mask := b.rewind q.mask hist len }

/-- One APPEND, TRIM or SET_MASK commits (R199, R200, R208). -/
def Dev.changeReq (d : Dev) (x : Ctx) (slot : Nat) (ch : ReqChange) (o : Origin) : Dev :=
  match tget d.reqs slot with
  | none => d.answerO x o Config.alreadyDone
  | some q =>
    match tget d.jobs q.job with
    | none => d
    | some b =>
      let put (q : Req) (d : Dev) : Dev := { d with reqs := tset d.reqs slot q }
      let done (d : Dev) : Dev := d.answerV x o.ring o.tag Config.ok 0 q.serial 0
      match ch with
      | .append toks verify _ =>
        let first := q.kv + q.input.length
        if requestMost < first + toks.length then d.answerO x o Config.range
        else
        let q := { q with input := q.input ++ toks, st := if q.st = .admitted then .admitted else .prefill }
        let q := if verify then { q with verifyFrom := if q.kv + 1 < q.verifyUpTo then q.verifyFrom else first, verifyUpTo := first + toks.length }
          else q
        done (put q d)
      | .trim n =>
        if n = 0 ∨ q.history.length - d.sharedToks q < n then d.answerO x o Config.range
        else
          let len := q.history.length - n
          done ((put (Req.trimTo b q len) d).cutPages slot len)
      | .mask m =>
        let m := match m with
          | .auto k s st _ => Mask.auto k s st (max q.history.length q.promptLen)
          | m => m
        done (put { q with mask := m } d)

/-- An ADMIT commits (R189, R206, R250): its digest entry is reset, its reused pages are shared. -/
def Dev.commitAdmit (d : Dev) (x : Ctx) (j slot : Nat) : Dev :=
  match tget d.reqs slot, tget d.jobs j with
  | some q, some b =>
    let e := newDigest j q.serial (d.num (0x54C0 + j) 1) b.info.digest q.pages fun h n => b.sharedBytes (d.wsidOf b q) h q.stream n
    let d : Dev := { d with reqs := tset d.reqs slot { q with committed := true }, digests := tset d.digests slot e }
    let d := (List.range (q.sharedToks / 64)).foldl (fun d i => d.writeHead slot i) d
    d.answerV x q.origin.ring q.origin.tag Config.ok 0 q.serial (slot * 2 ^ 46)
  | _, _ => d

/-- Commands that change requests, in order of acceptance, then admissions (R196). -/
def Dev.requestS (d : Dev) (x : Ctx) (j : Nat) : Dev :=
  let isReq (s : SChange) : Bool := decide (s.job = some j) && (match s.effect with | .request .. => true | _ => false)
  let isAdm (s : SChange) : Bool := decide (s.job = some j) && (match s.effect with | .admitted _ => true | _ => false)
  let d := d.takeS x isReq fun s d => match s.effect with | .request slot ch o => (d.changeReq x slot ch o, true) | _ => (d, true)
  d.takeS x isAdm fun s d => match s.effect with | .admitted slot => (d.commitAdmit x j slot, true) | _ => (d, true)

/-- In Spar step mode a committed request whose generation is resident enters Prefill at a boundary: the host forms the steps. -/
def Dev.sparReady (d : Dev) (j : Nat) (b : Job) : Dev :=
  if !b.spar || decide (b.rank ≠ 0) then d
  else { d with reqs := tmap d.reqs fun _ q => if q.job = j ∧ q.st = .admitted ∧ d.eligible b.comp q = true then { q with st := .prefill } else q }

/-- A Draining job without requests, steps or a STEP that waits is Ended (Table 5.2). -/
def Dev.drainEnd (d : Dev) (x : Ctx) (j : Nat) : Dev :=
  match tget d.jobs j with
  | some b =>
    let waits := match b.staged with | some st => st.origin.isSome | none => false
    if b.st = .draining ∧ (d.reqsOf j).isEmpty ∧ b.step.isNone = true ∧ waits = false then d.endJob x j Config.ok 0 else d
  | none => d

/-- What a step boundary of a Running or Draining job applies after its step's commits (R31, R32, R196): what is no request's in order of
acceptance, then CANCELs, retirements, changes of requests and admissions. -/
def Dev.applyS (d : Dev) (x : Ctx) (j : Nat) (b : Job) : Dev :=
  let d := d.orderedS x (some j) (fun g => g.ownedBy j || g.ownedBy (64 + b.comp))
    fun s => decide (s.job = some j) || (decide (s.job = none) && decide (s.comp = b.comp))
  let d := (d.cancelS x j).retireS x j b.comp
  let d := d.requestS x j
  (((d.sparReady j b).drainEnd x j).tidyCatalog b.comp).tidyTombs b.comp

/-! The start of the next step. -/

/-- Is the job of a kind and state that steps: Running, Draining, or with restore steps to run? -/
def Job.stepping? (b : Job) : Bool :=
  !b.iced && (decide (b.st = .running) || decide (b.st = .draining) || decide (b.phase = .restoring))

/-- May the staged step of a job start: no step in progress, no fence (R118), no boundary that a teardown or key retirement waits for
(R371), pages supplied (R205)? -/
def Dev.startable (d : Dev) (j : Nat) (b : Job) : Bool :=
  let k := d.canopyOf b.comp
  let fenced := k.job.isNone && (decide (k.st = .fenced) || decide (k.st = .flipping))
  b.step.isNone && b.stepping? && !fenced && !d.waitsBoundary b.comp && d.supplied j

/-- Does the lead's step controller form the steps of a job (R214, R424)? -/
def Job.forms (b : Job) : Bool := decide (b.rank = 0) && (!b.spar || decide (b.phase = .restoring))

/-- Has the beat come in which the staged step of a job may start: the lead's beat (R23)? -/
def Job.stagedDue (b : Job) (now : Nat) : Bool := match b.staged with | some st => decide (st.start ≤ now) | none => false

/-- Start the staged step if it may start; its start is the cut at which the next one is staged (R191). Without a staged step the lead
stages one that starts once every member can hold its record. -/
def Dev.goOn (d : Dev) (x : Ctx) (j : Nat) : Dev :=
  let d := d.supply j
  match tget d.jobs j with
  | none => d
  | some b =>
    if b.staged.isSome then
      if b.stagedDue x.time.beat && d.startable j b then
        let d := d.startStep x j
        if b.forms then d.stage x j 0 else d
      else d
    else if b.forms && b.step.isNone && b.stepping? then d.stage x j (x.time.beat + b.agree) else d

/-- A step boundary of a job once its step has committed: changes apply, spills are tried again, the next step starts (R31, R32, R196). -/
def Dev.atBoundary (d : Dev) (x : Ctx) (j : Nat) : Dev :=
  match tget d.jobs j with
  | none => d
  | some b =>
    let d := if b.st = .running ∨ b.st = .draining then d.applyS x j b else d
    match tget d.jobs j with
    | some b => if b.stepping? then (d.retrySpills j).goOn x j else d
    | none => d

/-! The boundary of the step in progress. -/

/-- The boundary of the step in progress has come (R23, R24, R195): a null step lasts one beat; else every done beat is known and the largest is
A beats ago, in a step that is no longer than 65,535 beats. -/
def Job.boundaryDue (b : Job) (now : Nat) : Bool :=
  match b.step with
  | none => false
  | some st =>
    if st.null then decide (st.start + 1 ≤ now)
    else
      let known := (List.range b.slice).all fun r => (tget b.doneBeats r).isSome
      known && decide (b.doneBeats.foldl (fun m p => max m p.2) 0 + b.agree ≤ now) && decide (now ≤ st.start + 65535)

/-- Completions that a boundary may post: two for each row and one for each change and cancellation. -/
def Dev.boundaryRoom (d : Dev) (j : Nat) (b : Job) : Nat :=
  let rows := match b.step with | some st => st.rows.length | none => 0
  let marks := d.reqs.foldl (fun n p => if p.2.job = j then n + p.2.cancel.length else n) 0
  2 * rows + (d.schanges.filter fun s => decide (s.job = some j) || decide (s.comp = b.comp)).length + marks

/-- What the lead applied at this boundary is kept for the two next staging records (R411). -/
def Dev.noteApplied (d : Dev) (j before : Nat) : Dev :=
  let new := ((d.tether.pend.drop before).filter fun c => decide (c.kind = 0)).map fun c =>
    (⟨c.ring, c.tag, c.opcode, c.serial, c.var, c.beat, c.status⟩ : CmdOutcome)
  d.adjJob j fun b =>
    if b.slice ≤ 1 ∨ b.rank ≠ 0 then b else { b with applied := (b.applied ++ [new]).drop ((b.applied.length + 1) - 2) }

/-- Teardowns and key retirements of a compartment commit once no job of it has a step in progress (R371). -/
def Dev.compBoundary (d : Dev) (x : Ctx) (c : Nat) : Dev :=
  let busy := d.jobs.any fun p => decide (p.2.comp = c) && decide (p.2.st = .running ∨ p.2.st = .draining) && p.2.step.isSome
  if busy then d
  else (d.granted fun g => g.boundaryOf c && decide (g.grantBeat < x.time.beat)).foldl (fun d n => d.commitGroup x n) d

/-- Granted groups of class B whose boundary has come, in order (R30, R32). -/
def Dev.applyB (d : Dev) (x : Ctx) : Dev :=
  let d := (d.granted fun g => decide (g.cls = 1) && decide (g.grantBeat < x.time.beat)).foldl (fun d n => d.commitGroup x n) d
  { d with bWaiting := false }

/-- Is a data-class gust control armed (R242, R453)? Steps in progress take note. -/
def Dev.noteGust (d : Dev) : Dev :=
  if d.injArmed then { d with jobs := tmap d.jobs fun _ b => if b.step.isSome then { b with inj := true } else b } else d

/-- A job's step boundary is over: changes with commit timing B follow the last one of the beat (R32), and steps take note of a control that
they arm (R242). -/
def Dev.leaveDue (d : Dev) (x : Ctx) (j : Nat) : Dev :=
  let d := { d with stepDue := serase d.stepDue j }
  if d.stepDue.isEmpty && d.bWaiting then (d.applyB x).noteGust else d

/-- The step in progress commits and the boundary's changes apply; a lead without room for its completions holds it (R300). A job that
Faulted meanwhile only commits (R406). -/
def Dev.stepEnds (d : Dev) (x : Ctx) (j : Nat) (b : Job) : Dev :=
  if b.rank = 0 ∧ 65536 < d.tether.pend.length + d.boundaryRoom j b then
    if b.held then d else (d.setJob j { b with held := true }).count 0x2400 0x0D 1
  else
    let before := d.tether.pend.length
    let d := d.commitStep x j
    let d := if b.stepping? then (d.atBoundary x j).noteApplied j before else d
    (d.compBoundary x b.comp).leaveDue x j

/-- STEP_BOUNDARY (R24, R190 to R196): the step in progress of the job reaches its boundary; on a member that steps nothing, a staged step
starts. -/
def execStepBoundary (job : Nat) (s : State) : Host.Outcome State Fault Refusal :=
  onDev s fun x d =>
    match tget d.jobs job with
    | none => d
    | some b =>
      if !d.alive then d
      else if b.step.isSome then (if b.boundaryDue x.time.beat then d.stepEnds x job b else d)
      else if b.rank ≠ 0 ∧ b.spar = false ∧ b.stagedDue x.time.beat = true ∧ d.startable job b = true then d.startStep x job
      else d

/-! Done beats (R24, R191, R241). -/

/-- A window of the job's image of some roles has a flag set (R241). -/
def Dev.windowFlags (d : Dev) (b : Job) (p : Nat → Bool) : Bool :=
  b.info.windows.any fun e => p (ewRole e) && decide (((d.facet (physFacet b.groups (ewFacet e))).win (ewWin e)).flags ≠ 0)

/-- Is every facet of a job between iterations (R84)? -/
def Dev.facetsIdle (d : Dev) (b : Job) : Bool := b.facets.all fun n => decide ((d.facet n).run ≠ .running)

/-- DONE_BEAT (R24, R241): every facet of the job has finished the step on this member and stands between iterations (R84); the member holds the next step's staging record and
pages; results are what the rows produced. -/
def execDoneBeat (job : Nat) (results : List RowResult) (digestBeats : Nat) (s : State) : Host.Outcome State Fault Refusal :=
  onDev s fun x d =>
    let d' := d.supply job
    match tget d.jobs job with
    | none => d
    | some b =>
      match b.step with
      | none => d
      | some st =>
        if !d.alive || st.null || (decide (b.phase ≠ .none) && decide (b.phase ≠ .restoring)) || (tget b.doneBeats b.rank).isSome then d
        else if b.rank ≠ 0 ∧ b.staged.isNone = true ∧ (b.spar = false ∨ b.phase = .restoring) then d
        else if !d.facetsIdle b then d
        else if !d'.supplied job then d'
        else
          let win := d.windowFlags b fun r => decide (r ≤ 2)
          let fl := (if win then 1 else 0) + (if b.inj || d.injArmed then 2 else 0)
          let d := d'.adjJob job fun b => { b with
            doneBeats := tset b.doneBeats b.rank x.time.beat, doneFlags := tset b.doneFlags b.rank fl, results := results }
          let d := if d.windowFlags b fun r => decide (r = 2) then d.count (0x5440 + job) 9 1 else d
          (d.peak (0x54C0 + job) 5 digestBeats).tell job 2 [x.time.beat, fl]

/-- DONE_BEAT_MESSAGE (R24): another member's done beat and flags, which go on along the control tree (R275). -/
def execDoneBeatMessage (job rank beat flags : Nat) (s : State) : Host.Outcome State Fault Refusal :=
  onDev s fun _ d =>
    match tget d.jobs job with
    | none => d
    | some b =>
      if !d.alive || decide (b.slice ≤ rank) || decide (rank = b.rank) then d
      else
      let d := d.relay job rank 2 [beat, flags]
      if b.step.isNone || (tget b.doneBeats rank).isSome then d
      else d.setJob job { b with doneBeats := tset b.doneBeats rank beat, doneFlags := tset b.doneFlags rank flags }

/-- STUCK_STEP (R25): 65,535 beats after its start the step has not reached its boundary. A step whose boundary has come in that beat, at the
length of 65,535 that R23 allows, is not stuck (DEDUCED, assumption 191). -/
def execStuckStep (job : Nat) (s : State) : Host.Outcome State Fault Refusal :=
  onDev s fun x d =>
    match tget d.jobs job with
    | none => d
    | some b =>
      match b.step with
      | some st => if d.alive && decide (st.start + 65535 ≤ x.time.beat) && !b.boundaryDue x.time.beat then d.jobFault x job Config.aborted else d
      | none => d

/-! The staging record on a member (R176, R191, R411). -/

/-- A request as a member holds it, from the lead's table. old is the copy it already holds. -/
def copyReq (k : ReqCopy) (job recB : Nat) (old : Option Req) (pages : List Page) (reserved sharedToks : Nat) : Req where
  job := job
  serial := k.serial
  st := if k.made ≠ [] ∧ k.stream.length ≤ k.kv + 1 then .decode else .prefill
  committed := true
  origin := ⟨k.ring, k.tag⟩
  wset := k.wset
  gen := k.gen
  recB := decide (recB = 1)
  promptLen := k.promptLen
  history := k.stream.take k.history
  kv := k.kv
  input := k.stream.drop k.kv
  maxNew := k.maxNew
  made := k.made
  stops := k.stops
  seed := k.seed
  temp := k.temp
  topk := k.topk
  topp := k.topp
  chunk := k.chunk
  ttft := 0
  tbt := k.tbt
  hard := k.hard
  prio := k.prio
  reuse := false
  deadline := k.deadline
  mask := match k.auto, k.allow with
    | some a, _ => .auto a.num a.state a.start a.from_
    | none, some ts => .allow ts
    | none, none => .none
  cancel := []
  retire := none
  verifyFrom := k.verifyFrom
  verifyUpTo := k.verifyUpTo
  pages := pages
  reserved := reserved
  sharedToks := sharedToks
  lastStep := match old with | some q => q.lastStep | none => 0
  genChanged := false
  replayed := match old with | some q => q.replayed | none => false
  replayTo := match old with | some q => q.replayTo | none => 0
  verified := k.verified

/-- Tokens that a copy's pages are reserved for. -/
def copyTotal (k : ReqCopy) : Nat := max (k.promptLen + k.maxNew) (k.stream.length + (k.maxNew - k.made.length))

/-- The record of a copy's generation: A or B. -/
def Dev.copyRec (d : Dev) (c : Nat) (k : ReqCopy) : Nat :=
  match (d.recsOf c k.wset).find? fun r => decide (r.2.gen = k.gen) with | some r => r.1 | none => 0

/-- Tokens whose pages a member can track for one more request that wants a number of them: the device tracks 1,048,576 pages (R203). -/
def Dev.trackable (d : Dev) (want : Nat) : Nat := min want (64 * (1048576 - d.pagesReserved))

/-- A member holds the automaton of a copy's mask under its number (R208, R247). -/
def Job.takeAuto (b : Job) (k : ReqCopy) : Job := match k.auto with | some a => { b with automata := tset b.automata a.num a.auto } | none => b

/-- Take over one request of the lead's table: a new one takes pages as far as the device can track them, a known one is brought up to date. A new
entry's digest mode is that of the ADMIT (R248). -/
def Dev.takeCopy (x : Ctx) (j : Nat) (d : Dev) (k : ReqCopy) : Dev :=
  match tget d.jobs j with
  | none => d
  | some b =>
    let key := b.reqKey j k.slot
    let rb := d.copyRec b.comp k
    let b := b.takeAuto k
    let d := d.setJob j b
    match tget d.reqs key with
    | some q =>
      let total := max q.reserved (min (copyTotal k) (q.reserved + d.trackable (copyTotal k)))
      let more := pagesFor total - q.pages.length
      let ps := newPages [] 0 more b.tiered b.freeFrames
      let d := d.adjJob j fun b => { b with freeFrames := if b.tiered then b.freeFrames else b.freeFrames.drop more }
      let d := { d with reqs := tset d.reqs key (copyReq k j rb (some q) (q.pages ++ ps) total q.sharedToks) }
      if k.history < q.history.length then d.cutPages key (max 1 k.history) else d
    | none =>
      let g := d.genAt b.comp k.wset rb
      let hs := blockHashes g.wsid (k.stream.take k.kv)
      let live := hs.takeWhile fun h => (b.liveEntry (leNat h)).isSome
      let reused := if b.phase = .none then live.length else 0
      let b := (hs.take reused).foldl (fun b h => b.matchPrefix h x.time.beat) b
      let total := min (copyTotal k) (64 * reused + d.trackable (copyTotal k))
      let need := pagesFor total - reused
      let ps := newPages hs reused (pagesFor total) b.tiered b.freeFrames
      let d := d.setJob j { b with freeFrames := if b.tiered then b.freeFrames else b.freeFrames.drop need }
      let q := copyReq k j rb none ps total (64 * reused)
      let e := newDigest j k.serial k.mode b.info.digest ps fun h n => b.sharedBytes g.wsid h k.stream n
      let d := d.hold b.comp k.wset rb true
      { d with reqs := tset d.reqs key q, digests := tset d.digests key e }

/-- The words of a staging record after its serial and start, by which it goes on along the control tree. -/
def recordWords (groups : List GroupEntry) (rows : List BatchRow) (table : List ReqCopy) (outcomes : List CmdOutcome) : List Nat :=
  [groups.length, rows.length] ++ groups.map GroupEntry.word ++ rows.map BatchRow.word ++
    (table.flatMap fun k => [k.slot, k.serial, k.history, k.kv, k.wset, k.gen] ++ k.stream) ++
    outcomes.flatMap fun o => [o.ring, o.tag, o.opcode, o.serial, o.var, o.beat, o.status]

/-- STAGING_RECORD (R23, R176, R191, R411): a member takes over the lead's request table, the outcomes of the last two boundaries, and the
next step with the beat in which it starts, 0 where it follows the step in progress; a record without groups says that no step follows. The record goes
on along the control tree (R275). -/
def execStagingRecord (job serial start : Nat) (groups : List GroupEntry) (rows : List BatchRow) (table : List ReqCopy)
    (outcomes : List CmdOutcome) (s : State) : Host.Outcome State Fault Refusal :=
  onDev s fun x d =>
    match tget d.jobs job with
    | none => d
    | some b =>
      let d := if d.alive && decide (b.rank ≠ 0) then d.relay job 0 1 ([serial, start] ++ recordWords groups rows table outcomes) else d
      let takes := (decide (b.rank ≠ 0) && b.stepping?) || decide (b.phase = .rejoining)
      if !d.alive || !takes || decide (b.phase = .frozen) then d
      else
        let keep (key : Nat) (q : Req) : Bool := table.any fun k => decide (b.reqKey job k.slot = key) && decide (k.serial = q.serial)
        let gone := d.reqs.filter fun p => decide (p.2.job = job) && !keep p.1 p.2
        let d := gone.foldl (fun (d : Dev) (p : Nat × Req) => d.release p.1) d
        let d := table.foldl (Dev.takeCopy x job) d
        let st : StepRec := ⟨serial, groups, rows, start, rows.all BatchRow.void, false, decide (b.phase = .restoring), none⟩
        let d := d.adjJob job fun b => { b with staged := if b.phase = .rejoining then b.staged else some st, applied := [outcomes] }
        d.supply job

/-! STEP (R214 to R216). -/

/-- One row entry of a step record: request slot, group, count (Table 5.12). -/
structure SparRow where
  slot : Nat
  group : Nat
  count : Nat
  deriving DecidableEq, Repr

/-- A step record: group entries (WSET, GEN) and row entries; none where its counts do not fit its length or the image. -/
def parseStep (rec_ : List Byte) (groups : Nat) : Option (List (Nat × Nat) × List SparRow) :=
  let g := leNat (rec_.take 2)
  let r := leNat ((rec_.drop 2).take 2)
  let w (o n : Nat) : Nat := leNat ((rec_.drop o).take n)
  if g ≠ groups ∨ rec_.length < 64 + 16 * g + 8 * r then none
  else some ((List.range g).map fun i => (bits (w (64 + 16 * i) 16) 12 0, bits (w (64 + 16 * i) 16) 63 32),
    (List.range r).map fun i => let e := w (64 + 16 * g + 8 * i) 8; ⟨bits e 63 50, bits e 49 44, bits e 43 37⟩)

/-- The status of a step record (R215, Table 5.11). -/
def Dev.stepStatus (d : Dev) (j : Nat) (b : Job) (gs : List (Nat × Nat)) (rs : List SparRow) : Nat :=
  let rowsOf (i : Nat) : Nat := rs.foldl (fun n r => if r.group = i then n + r.count else n) 0
  let inputOf (slot : Nat) : Nat := rs.foldl (fun n r => if r.slot = slot then n + r.count else n) 0
  let check (r : SparRow) : Nat :=
    match tget d.reqs r.slot with
    | none => Config.range
    | some q =>
      let g := d.genAt b.comp q.wset (if q.recB then 1 else 0)
      if q.job ≠ j ∨ r.count = 0 ∨ 64 < r.count ∨ gs.length ≤ r.group then Config.range
      else if gs.getD r.group (0, 0) ≠ (q.wset, q.gen) then Config.range
      else if q.st ≠ .prefill ∧ q.st ≠ .decode then Config.range
      else if !g.ready then Config.noResource
      else if q.input.length < inputOf r.slot then Config.range
      else Config.ok
  if (List.range gs.length).any fun i => decide (hRpg b.header < rowsOf i) then Config.range
  else
    let sts := rs.map check
    if sts.any fun t => decide (t = Config.range) then Config.range
    else if sts.any fun t => decide (t = Config.noResource) then Config.noResource else Config.ok

/-- The planned rows of row entries, each at the position after the rows before it of its request. -/
def Dev.sparRows (d : Dev) (rs : List SparRow) : List BatchRow :=
  (rs.foldl (fun (a : List BatchRow × Tab Nat) (r : SparRow) =>
    match tget d.reqs r.slot with
    | none => a
    | some q =>
      let done := tgetD a.2 r.slot 0
      (a.1 ++ (List.range r.count).map fun i => (⟨r.slot, q.serial, r.group, q.kv + done + i, 0, false, false⟩ : BatchRow),
        tset a.2 r.slot (done + r.count))) ([], [])).1

/-- A STEP is refused (0x5400 + j:02 and :03). -/
def Dev.refuseStep (d : Dev) (x : Ctx) (j ring tag st : Nat) : Dev :=
  ((d.count (0x5400 + j) 2 1).setNum (0x5400 + j) 3 st).answer x ring tag st

/-- Has a job a STEP that has not completed (R216): staged, in progress, or discarded by a freeze and not yet answered (R424)? -/
def Job.stepOut (b : Job) : Bool :=
  ((b.staged.toList ++ b.step.toList ++ b.undone.toList).any fun st => st.origin.isSome) || !b.aborts.isEmpty

/-- STEP (R214 to R216): the host's step record is checked and staged. -/
def execStep (ring tag : Nat) (record : Option (List Byte)) (s : State) : Host.Outcome State Fault Refusal :=
  onDev s fun x d =>
    d.runData x ring tag (fun e => decide (eOpcode e = 0x30)) record fun e rec_ d =>
      let j := eJob e
      match tget d.jobs j with
      | none => d.refuseStep x j ring tag Config.range
      | some b =>
        if decide (b.rank ≠ 0) || !b.spar then d.refuseStep x j ring tag Config.range
        else if b.stepOut then d.refuseStep x j ring tag Config.busy
        else if b.st ≠ .running ∧ b.st ≠ .draining then d.refuseStep x j ring tag Config.range
        else match parseStep rec_ (hGroups b.header) with
          | none => d.refuseStep x j ring tag Config.range
          | some (gs, rs) =>
            let st := d.stepStatus j b gs rs
            if st ≠ Config.ok then d.refuseStep x j ring tag st
            else
              let entry (g : Nat × Nat) : GroupEntry :=
                let r := (d.recsOf b.comp g.1).find? fun r => decide (r.2.gen = g.2)
                ⟨g.1, g.2, match r with | some r => r.2.rbase | none => 0, 0, false⟩
              (d.count (0x5400 + j) 1 1).putStaged j b (x.time.beat + b.agree) (gs.map entry) (d.sparRows rs) (some ⟨ring, tag⟩)

/-- STEP_START (R214): the first beat boundary after the record is fetched on every member. -/
def execStepStart (job : Nat) (s : State) : Host.Outcome State Fault Refusal :=
  onDev s fun x d =>
    let d' := d.supply job
    match tget d.jobs job with
    | none => d
    | some b =>
      match b.staged with
      | none => d
      | some st =>
        if d.alive && b.spar && decide (st.start ≤ x.time.beat) && d'.startable job b then d'.startStep x job else d'

end Sys2Proof.Machine
end

