-- ==== Sys2Proof/Machine/Reconfig.lean ====
section
/-!
DEFINITION. Reconfiguration (R117 to R122, R179, Table 3.12): drain, flip, and the forced flip.
-/

namespace Sys2Proof.Machine

/-- The job whose agreement delay and slice a reconfiguration uses: the one that starts, or one that runs on the compartment. -/
def Dev.canopyJob (d : Dev) (c : Nat) (k : Canopy) : Option (Nat × Job) :=
  match k.job with
  | some j => (tget d.jobs j).map fun b => (j, b)
  | none => d.jobs.find? fun p => decide (p.2.comp = c) && (decide (p.2.st = .running) || decide (p.2.st = .draining))

/-- The facets that a reconfiguration drains: those of the job that starts, or the compartment's. -/
def Dev.drainFacets (d : Dev) (c : Nat) (k : Canopy) : List Nat :=
  match k.job.bind fun j => tget d.jobs j with
  | some b => (List.range (128 * b.groups.length)).map fun l => physFacet b.groups l
  | none => facetsOf (d.num (0x4100 + c) 2)

/-- A facet as R119 asks for it: no flit, every credit counter at its circuit's CREDITS, idle between iterations. -/
def Facet.drained (f : Facet) : Bool :=
  decide (f.flits = 0) && decide (f.run = .idle) && (!f.active.valid || f.active.oq.all fun p => decide (f.credit p.1 = p.2.credits))

/-- Is a winch transfer of a compartment into facet memory or a queue outstanding? -/
def Dev.intoFacets (d : Dev) (c : Nat) : Bool :=
  d.engines.any fun e => e.2.recs.any fun r => r.st.live && decide (sdComp r.desc = c) &&
    ((sdPlist r.desc && sdPlside r.desc) || (match regionOf (localOf (sdDst r.desc)) with | .facet _ => true | _ => false))

/-- Is the drain of a compartment's reconfiguration complete (R119)? -/
def Dev.drained (d : Dev) (c : Nat) (k : Canopy) : Bool :=
  let jobs : Tab Job := match k.job with
    | some _ => []
    | none => d.jobs.filter fun (p : Nat × Job) => decide (p.2.comp = c) && decide (p.2.st ≠ .ended)
  (d.drainFacets c k).all (fun n => (d.facet n).drained) && jobs.all (fun (p : Nat × Job) => p.2.gatewayEnds.all fun e => decide (tgetD d.gwCredits e.1 0 = e.2)) &&
    (k.job.isSome || !d.intoFacets c)

/-- DRAIN_COMPLETE (R119, R120): the drain beat is recorded and, in a slice, sent to the other members. -/
def execDrainComplete (comp : Nat) (s : State) : Host.Outcome State Fault Refusal :=
  onDev s fun x d =>
    let k := d.canopyOf comp
    if !d.alive || decide (k.st ≠ .fenced) || !k.staged || !d.drained comp k then d
    else
      let d := d.setCanopy comp { k with st := .flipping, drain := some x.time.beat }
      match d.canopyJob comp k with
      | some (j, _) => d.tell j 4 [x.time.beat]
      | none => d

/-- DRAIN_BEAT_MESSAGE (R120): another member's drain beat, which goes on along the control tree (R275). -/
def execDrainBeatMessage (comp rank beat : Nat) (s : State) : Host.Outcome State Fault Refusal :=
  onDev s fun _ d =>
    let k := d.canopyOf comp
    match d.canopyJob comp k with
    | none => d
    | some (j, b) =>
      if !d.alive || decide (rank = b.rank) || decide (b.slice ≤ rank) then d
      else
      let d := d.relay j rank 4 [beat]
      if !k.staged || (tget k.drains rank).isSome then d
      else d.setCanopy comp { k with drains := tset k.drains rank beat }

/-- Has the flip beat come (R120): D + 1 for a device alone, else the largest drain beat of the members plus A? -/
def Dev.flipDue (d : Dev) (c now : Nat) (k : Canopy) : Bool :=
  match k.drain with
  | none => false
  | some own =>
    match d.canopyJob c k with
    | none => decide (own + 1 ≤ now)
    | some (_, b) =>
      if b.slice ≤ 1 then decide (own + 1 ≤ now)
      else
        let known := (List.range b.slice).all fun r => decide (r = b.rank) || (tget k.drains r).isSome
        known && decide (k.drains.foldl (fun m p => max m p.2) own + b.agree ≤ now)

/-- A facet's copies swap: the shadow becomes active, the old copy is not valid (Table 3.12). -/
def Facet.flip (f : Facet) : Facet :=
  let old := { f.active with valid := false }
  let g := { f with epoch := !f.epoch }
  g.setShadow old

/-- Copies swap on every facet and switch: those of the job that starts, or the compartment's; the objects of Table 3.14 follow. -/
def Dev.flipCopies (d : Dev) (c : Nat) (k : Canopy) : Dev :=
  let ns := d.drainFacets c k
  let d := ns.foldl (fun d n => d.adjFacet n fun f => f.flip.startProgram d.execBeats k.job.isSome) d
  let d := d.setCanopy c { k with st := .idle, active := k.shadow, shadow := ImageInfo.none, epoch := !k.epoch, group := none, job := none,
                                  drain := none, drains := [] }
  d.count (0x2310 + c) 4 1

/-- The shares of a job come into force with it, if none are (R157). -/
def Dev.useShares (d : Dev) (b : Job) : Dev :=
  if d.sharesHeld b.comp then d
  else
    let sh (i : Nat) : Nat := if b.shares.all fun v => decide (v = 0) then d.num (0x4060 + b.comp) (i + 1) else b.shares.getD i 0
    ((d.setNum (0x4060 + b.comp) 4 (sh 0)).setNum (0x4060 + b.comp) 5 (sh 1)).setNum (0x4060 + b.comp) 6 (sh 2)

/-- The slots of a job's formation mask are free again (R279). -/
def Dev.freeForm (d : Dev) (j : Nat) : Dev :=
  d.freeSlots fun e => decide (bits e 62 61 = 2) && decide (bits e 60 55 = j) && decide (bits e 51 40 = 0xFFF)

/-- A job's configuration is active: it runs, its JOB_START completes OK, its formation slots are free (R179, R279). The image stays at hand while
the job lives: a rejoin may take it from this member (R409). -/
def Dev.runJob (d : Dev) (x : Ctx) (j : Nat) (info : ImageInfo) : Dev :=
  match tget d.jobs j with
  | none => d
  | some b =>
    let b := { b with st := .running, info := info, header := info.header, confirmed := [] }
    let d := ((d.setJob j b).useShares b).fillGateways b
    let d := d.freeForm j
    -- the 96 beats without a PROBE are those of a Running job (R274)
    let d : Dev := { d with legs := tmap d.legs fun k l => if k / 4096 = j then { l with lastProbe := x.time.beat } else l }
    d.answer x b.origin.ring b.origin.tag Config.ok

/-- Running jobs of a compartment take over the new configuration (R118). -/
def Dev.retakeJobs (d : Dev) (c : Nat) (info : ImageInfo) : Dev :=
  (d.jobsWhere fun b => decide (b.comp = c) && (decide (b.st = .running) || decide (b.st = .draining))).foldl (fun d j =>
    match tget d.jobs j with
    | some b => (d.setJob j { b with info := info, header := info.header }).fillGateways { b with info := info }
    | none => d) d

/-- The flip (R118, R120, R179): the commit point of a JOB_START or of a reconfiguration's group; stepping resumes. -/
def Dev.flip (d : Dev) (x : Ctx) (c : Nat) : Dev :=
  let k := d.canopyOf c
  match k.job, k.group with
  | some j, _ => ((d.flipCopies c k).runJob x j k.shadow).atBoundary x j
  | none, some n =>
    (match tget d.groups n with
     | none => d.setCanopy c { k with group := none, drain := none, drains := [] }
     | some g =>
       if (d.guardFault g).isSome || (d.groupFault x g).isSome then (d.dropAction n g).commitGroup x n
       else
         let d := ((d.flipCopies c k).retakeJobs c k.shadow).commitGroup x n
         (d.jobsWhere fun b => decide (b.comp = c) && b.stepping?).foldl (fun d j => d.goOn x j) d)
  | none, none => d

/-- At a beat boundary the fence of an aborted reconfiguration is lifted; its shadow copies stay valid (Table 3.12). -/
def Dev.liftFences (d : Dev) : Dev :=
  { d with canopy := tmap d.canopy fun _ k =>
      if (k.st = .fenced ∨ k.st = .flipping) ∧ k.staged = false then { k with st := .shadowValid } else k }

/-- FLIP (R120). -/
def execFlip (comp : Nat) (s : State) : Host.Outcome State Fault Refusal :=
  onDev s fun x d =>
    let k := d.canopyOf comp
    if d.alive && decide (k.st = .flipping) && k.staged && d.flipDue comp x.time.beat k then d.flip x comp else d

/-- FORCED_RECONFIGURATION (R121, R122, R197): at the drain timeout the compartment's flits are discarded and counted, the step in progress
is aborted, the copies flip. -/
def execForcedReconfiguration (comp : Nat) (s : State) : Host.Outcome State Fault Refusal :=
  onDev s fun x d =>
    let k := d.canopyOf comp
    if !d.alive || !k.staged || decide (x.time.beat < k.fence + d.num 0x2300 1) then d
    else
      let ns := d.drainFacets comp k
      let lost := ns.foldl (fun n i => n + (d.facet i).flits) 0
      let d := ns.foldl (fun d n => d.adjFacet n fun f => { f with iq := [], oq := [], bufs := [], grps := [] }) d
      let d := ((d.count (0x2310 + comp) 5 1).setNum (0x2310 + comp) 6 lost).count (0x2310 + comp) 7 lost
      let hit := d.jobsWhere fun b => k.job.isNone && decide (b.comp = comp) && b.stepping? && b.step.isSome
      let d := hit.foldl (fun (d : Dev) (j : Nat) => ((d.answerPlans x j Config.aborted).adjJob j fun b => b.rerun x.time.beat).count (0x5300 + j) 0x0C 1) d
      d.flip x comp

end Sys2Proof.Machine
end

