-- ==== Sys2Proof/Machine/Recover.lean ====
section
/-!
DEFINITION. Ripcord (chapter 13): fail-stop and watchdog, the freeze, the rejoin, the restoring of key-value state, protection groups and
rebuild.
-/

namespace Sys2Proof.Machine

/-! Fail-stop (R400 to R402, Table 13.2). -/

/-- FAIL_STOP: the causes of Table 13.2 that no other command brings. -/
def execFailStop (cause unit addr detail : Nat) (s : State) : Host.Outcome State Fault Refusal :=
  onDev s fun x d => if [1, 2, 3, 4, 5, 9].contains cause then d.stop x cause unit addr detail else d

/-- WATCHDOG (cause 8): after the pilot's, the record is journalled at the next restart. -/
def execWatchdog (pilot : Bool) (unit : Nat) (s : State) : Host.Outcome State Fault Refusal :=
  onDev s fun x d =>
    let t := d.stop x 8 unit 0 0
    if !d.alive || !pilot then t
    else
      let j := t.journal
      let rec_ : Option Nat := match j.queue.getLast? with
        | some ⟨_, _, _, .failStop r⟩ => some r
        | _ => none
      { t with
        journal := { j with queue := j.queue.dropLast, next := j.next - 1, used := j.used - 96 }
        boot := { t.boot with lateRecord := rec_ } }

/-! Freeze and recovery of a job (R403 to R412, R420 to R425, Table 13.6). -/

/-- SLICE_FREEZE (R405): at the beat boundary after the job entered Faulted. -/
def execSliceFreeze (job : Nat) (s : State) : Host.Outcome State Fault Refusal :=
  onDev s fun x d =>
    match tget d.jobs job with
    | none => d
    | some b =>
      if d.alive && decide (b.st = .faulted) && decide (b.phase = .frozen) && !b.iced && decide (b.frozenAt < x.time.beat) then
        d.freeze x job
      else d

/-- The survivors settle the outcome that the freeze left pending (R406). -/
def Dev.settleStep (d : Dev) (x : Ctx) (j : Nat) (committed : Bool) : Dev :=
  match tget d.jobs j with
  | none => d
  | some b =>
    if b.step.isSome && committed && (tget b.doneBeats b.rank).isSome then d.commitStep x j
    else d.setJob j b.discard

/-- On a replacement the loaded copy becomes active, with the slice's epoch as its index (R409). -/
def Dev.activate (d : Dev) (j : Nat) (b : Job) : Dev :=
  let k := d.canopyOf b.comp
  let take (f : Facet) : Facet :=
    let new := f.shadow
    let old := { f.active with valid := false }
    if k.epoch then { f with epoch := true, copy1 := new, copy0 := old } else { f with epoch := false, copy0 := new, copy1 := old }
  let d := b.facets.foldl (fun (d : Dev) (n : Nat) => d.adjFacet n take) d
  let d := d.setCanopy b.comp { k with st := .idle, active := k.shadow, shadow := ImageInfo.none }
  d.setJob j { b with info := k.shadow, header := k.shadow.header }

/-- Both history mirrors of a request were on replaced ranks (R420, R424). -/
def Job.mirrorsLost (b : Job) (slot : Nat) : Bool :=
  b.failed.contains (slot % b.slice) && b.failed.contains ((slot + 1) % b.slice)

/-- A request's positions from first on are written again (R421, R423). -/
def Req.replayFrom (q : Req) (first : Nat) : Req :=
  if first < q.kv then
    { q with input := (q.history.take q.kv ++ q.input).drop first, replayTo := max q.replayTo q.kv, kv := first }
  else q

/-- The digest entry of a request recovered from decoded pages (R252): zero chains, PARTIAL. -/
def DigEntry.partialFrom (e : DigEntry) : DigEntry :=
  let z := List.replicate 16 (0 : Byte)
  { e with kv := z, log := z, tok := z, kvpos := 0, sampled := 0, flags := Nat.lor e.flags 8, next := 0 }

/-- REJOIN_COMPLETE (R406, R421, R423, Table 13.6): every replacement has passed its loader and lifted every hot generation; committed says
whether any survivor committed the step that the freeze met. -/
def execRejoinComplete (job : Nat) (committed : Bool) (s : State) : Host.Outcome State Fault Refusal :=
  onDev s fun x d =>
    match tget d.jobs job with
    | none => d
    | some b =>
      let new := decide (b.st = .loading)
      if !d.alive || decide (b.phase ≠ .rejoining) || (new && !b.passed) then d
      else
        let shadow := decide (d.num (0x5340 + job) 1 = 1)
        let d := if new then d.activate job b else d.settleStep x job committed
        let d := d.adjJob job fun b => { b with phase := .restoring }
        let d := d.unfreeze job
        let lost := (d.reqsOf job).filter fun k => b.mirrorsLost (k % 16384)
        let d := lost.foldl (fun (d : Dev) (k : Nat) => d.retire x k Config.aborted) d
        let first (q : Req) : Nat := if shadow then 64 * (q.kv / 64) else 0
        let again (q : Req) : Req := if q.job = job ∧ q.st.live = true then q.replayFrom (first q) else q
        let d : Dev := { d with reqs := tmap d.reqs fun _ q => again q }
        let d : Dev := if new && shadow then
          { d with digests := tmap d.digests fun _ e => if e.job = job then e.partialFrom else e } else d
        d.goOn x job

/-- The completions that a new lead writes again (R411): those of the last two step boundaries, each live request's last two tokens, or its
ADMIT's where it has no token yet. -/
def Dev.repost (d : Dev) (x : Ctx) (j : Nat) (b : Job) : Dev :=
  let d := b.applied.flatten.foldl (fun (d : Dev) (o : CmdOutcome) =>
    d.post ⟨o.tag, o.serial, o.beat, o.var, j, 0, o.opcode, o.ring, 0, o.status, 0, true⟩) d
  (d.reqsOf j).foldl (fun (d : Dev) (key : Nat) =>
    match tget d.reqs key with
    | none => d
    | some q =>
      if !q.st.live then d
      else if q.made = [] then
        d.post ⟨q.origin.tag, q.serial, x.time.beat, key * 2 ^ 46, j, 0, 1, q.origin.ring, 0, Config.ok, 0, false⟩
      else
        let ps := q.made.drop (q.made.length - 2)
        let d := (List.range ps.length).foldl (fun (d : Dev) (i : Nat) =>
          let p := ps.getD i 0
          let fl := Config.repeatedFlags j key p % 128 / 2 * 2
          d.tokenDone x key { q with genChanged := false } p (q.history.getD p 0) fl (if i = 0 then Config.replayed else Config.ok) false) d
        { d with reqs := tadj d.reqs key fun q => { q with replayed := false } }) d

/-- A replacement's own parity holdings are rebuilt (R423), for every closed page of the job. -/
def Dev.rebuildParity (d : Dev) (j : Nat) : Dev :=
  (d.reqsOf j).foldl (fun d key =>
    match tget d.reqs key with
    | none => d
    | some q => (List.range q.pages.length).foldl (fun d i => if q.pages[i]?.any fun p => decide (p.fill = 64) then d.writeParity key i else d) d) d

/-- The job is back in its previous state (Table 13.6): live requests answer REPLAYED next, the discarded step is staged again, a replacement's
JOB_START completes OK, a replaced lead writes completions again. -/
def Dev.recovered (d : Dev) (x : Ctx) (j : Nat) (b : Job) : Dev :=
  let new := decide (b.st = .loading)
  let d := d.adjJob j fun b => { b with phase := .none, failed := [], st := if new then .running else b.before, confirmed := [] }
  let d := d.adjJob j fun b => b.settleUndone x.time.beat
  let d := (d.count (0x5340 + j) 5 1).setNum (0x5340 + j) 6 (msOf (x.time.beat - (if new then b.formedAt else b.frozenAt)))
  let d : Dev := { d with reqs := tmap d.reqs fun _ q => if q.job = j ∧ q.st.live = true then { q with replayed := true } else q }
  let d := d.freeForm j
  let d : Dev := { d with legs := tmap d.legs fun k l => if k / 4096 = j then { l with lastProbe := x.time.beat } else l }
  let d := if new then ((d.useShares b).answer x b.origin.ring b.origin.tag Config.ok).rebuildParity j else d
  let d := d.answerAborts x j
  let d := if new && decide (b.rank = 0) then d.repost x j b else d
  d.atBoundary x j

/-- RESTORE_COMPLETE (Table 13.6): the last restore step has committed and the decode is done; the resume flip beat (R120). -/
def execRestoreComplete (job : Nat) (s : State) : Host.Outcome State Fault Refusal :=
  onDev s fun x d =>
    match tget d.jobs job with
    | none => d
    | some b =>
      let open_ := d.reqs.any fun p => decide (p.2.job = job) && p.2.st.live && decide (p.2.kv < p.2.replayTo)
      if d.alive && decide (b.phase = .restoring) && b.step.isNone && !open_ then d.recovered x job b else d

/-- RECOVERY_TIMEOUT (Table 13.6): the job ends, every request completes ABORTED. -/
def execRecoveryTimeout (job : Nat) (s : State) : Host.Outcome State Fault Refusal :=
  onDev s fun x d =>
    match tget d.jobs job with
    | none => d
    | some b =>
      let from_ := if b.st = .loading ∨ b.st = .forming then b.formedAt else b.frozenAt
      if d.alive && decide (b.phase ≠ .none) && decide (from_ + d.num (0x5340 + job) 4 * Config.round ≤ x.time.beat) then
        (d.answerAborts x job).killJob x job Config.aborted
      else d

/-! Protection groups (R413 to R419). -/

/-- Bytes of a shard. -/
def shardBytes : Nat := 0x400000

/-- Device numbers of a compartment's protection group, by position. -/
def Dev.groupMembers (d : Dev) (c : Nat) : List Nat :=
  let m := d.blob (0x4200 + c) 1
  (List.range (d.num (0x4200 + c) 2)).map fun i => leNat ((m.drop (8 * i)).take 8)

/-- The role index of this member in stripe s (R413). -/
def Dev.roleIn (d : Dev) (c s : Nat) : Nat :=
  let n := max 1 (d.num (0x4200 + c) 2)
  (d.num (0x4200 + c) 4 + n * s - s) % n

/-- The local address of this member's shard of a stripe. -/
def Dev.shardAddr (d : Dev) (c s : Nat) : Nat := d.num (0x4200 + c) 5 + s * shardBytes

/-- A checkpoint (R419, Table 13.5): journalled, and shown in 0x4200 + c:09. -/
def Dev.checkpoint (d : Dev) (x : Ctx) (c s pass kind : Nat) : Dev :=
  (d.setNum (0x4200 + c) 9 s).journal' x 0 (.checkpoint c s pass kind)

/-- RE_PROTECTION (R415): the sweep's next stripe. This member's Dirty bit is read and cleared if it holds a data shard; remoteDirty says
whether any member's bit was set, and then the parity holders take the parity of the data shards given. -/
def execReProtection (comp : Nat) (remoteDirty : Bool) (shards : List (List Byte)) (s : State) : Host.Outcome State Fault Refusal :=
  onDev s fun x d =>
    let n := d.num (0x4200 + comp) 2
    let k := n - d.num (0x4200 + comp) 3
    let stripes := d.num (0x4200 + comp) 6 / shardBytes
    let g := d.groupMembers comp
    let runs := d.jobs.any fun p => decide (p.2.comp = comp) && decide (p.2.st = .running) && g.all fun m => p.2.members.contains m
    if !d.winchOn || decide (d.state = .moored) || decide (n < 2) || decide (stripes = 0) || !runs || (remoteDirty && decide (shards.length ≠ k)) then d
    else
      let t := tgetD d.sweep comp 0 % stripes
      let pass := tgetD d.sweep (8 + comp) 0
      let q := d.roleIn comp t
      let key := stripeKey comp t
      let d : Dev := if q < k then { d with dirtySet := serase d.dirtySet key, unprot := serase d.unprot key }
        else if remoteDirty then
          { d with unprot := serase d.unprot key, dirtySet := serase d.dirtySet key }.memOp
            (.write (d.shardAddr comp t) (rsParity (q - k) shardBytes (shards.map fun b => lpad shardBytes 0 b)))
        else { d with unprot := serase d.unprot key, dirtySet := serase d.dirtySet key }
      let next := (t + 1) % stripes
      let d : Dev := { d with sweep := tset (tset d.sweep comp next) (8 + comp) (if next = 0 then pass + 1 else pass) }
      d.checkpoint x comp t pass 1

/-- Shards of a stripe by role. -/
def shardOf (shards : List (Nat × List Byte)) (q : Nat) : Option (List Byte) :=
  (shards.find? fun p => decide (p.1 = q)).map fun p => lpad shardBytes 0 p.2

/-- The data shards of a stripe from the shards at hand, by role, if enough of them are there (R413): none missing, one, or two. -/
def recoverData (k m : Nat) (shards : List (Nat × List Byte)) : Option (List (List Byte)) :=
  let z := List.replicate shardBytes (0 : Byte)
  let have_ (q : Nat) : List Byte := (shardOf shards q).getD z
  let missing := (List.range k).filter fun q => (shardOf shards q).isNone
  let known := (List.range k).map have_
  let put (a : Nat) (v : List Byte) (l : List (List Byte)) : List (List Byte) := lset l a v
  let p0 := shardOf shards k
  let p1 := if 2 ≤ m then shardOf shards (k + 1) else none
  match missing, p0, p1 with
  | [], _, _ => some known
  | [a], some p, _ => some (put a (xorBytes p (rsParity 0 shardBytes known)) known)
  | [a], none, some p => some (put a (gfTimes (gfInv (gfMulPow a 1)) (xorBytes p (rsParity 1 shardBytes known))) known)
  | [a, b], some p, some r =>
    -- x + y = u and 2^a x + 2^b y = v, so y = (v + 2^a u) / (2^a + 2^b)
    let u := xorBytes p (rsParity 0 shardBytes known)
    let v := xorBytes r (rsParity 1 shardBytes known)
    let y := gfTimes (gfInv (Nat.xor (gfMulPow a 1) (gfMulPow b 1))) (xorBytes v (gfScale a u))
    some (put b y (put a (xorBytes u y) known))
  | _, _, _ => none

/-- This member's shard of a stripe from the others. -/
def rebuildShard (k m q : Nat) (shards : List (Nat × List Byte)) : Option (List Byte) :=
  match shardOf shards q with
  | some s => some s
  | none => (recoverData k m shards).map fun data => if q < k then data.getD q [] else rsParity (q - k) shardBytes data

/-- Does a run of bytes touch this member's shard of a stripe? -/
def Dev.inShard (d : Dev) (c s a n : Nat) : Bool :=
  decide (a < d.shardAddr c s + shardBytes) && decide (d.shardAddr c s < a + n)

/-- Do a generation's directory or tiles touch this member's shard of a stripe (R418)? -/
def Dev.genTouches (d : Dev) (x : Ctx) (c s : Nat) (g : GenRec) : Bool :=
  d.inShard c s g.dir (8 * g.tiles) || (List.range g.tiles).any fun i =>
    let ent := leNat (x.mem.bytes (g.dir + 8 * i) 8)
    d.inShard c s (bits ent 63 21 * 64) (bits ent 10 0 * 64)

/-- The records of a compartment that satisfy a test turn bad. -/
def Dev.badWhere (d : Dev) (c st : Nat) (p : GenRec → Bool) : Dev :=
  ((d.gens c).filter fun r => decide (r.2.2.role ≠ 0) && decide (r.2.2.res ≠ 3) && p r.2.2).foldl
    (fun (d : Dev) (r : Nat × Nat × GenRec) => d.markBad c r.1 r.2.1 st) d

/-- REBUILD (R410, R417, R418): this member's shard of a stripe is rebuilt from the other members' shards, given by role; a directory whose
last shard it is gets its check. Too few shards make the stripe lost, and so does its having been unprotected when the shard was lost. -/
def execRebuild (comp stripe : Nat) (unprotected : Bool) (shards : List (Nat × List Byte)) (s : State) : Host.Outcome State Fault Refusal :=
  onDev s fun x d =>
    let n := d.num (0x4200 + comp) 2
    let m := d.num (0x4200 + comp) 3
    let stripes := d.num (0x4200 + comp) 6 / shardBytes
    if !d.winchOn || decide (n < 2) || decide (n ≤ m) || decide (stripes ≤ stripe) then d
    else match (if unprotected then none else rebuildShard (n - m) m (d.roleIn comp stripe) shards) with
      | none => (d.setJ x (0x4200 + comp) 0x0B (.num (satAdd (2 ^ 32 - 1) (d.num (0x4200 + comp) 0x0B) 1))).badWhere comp Config.poison (d.genTouches x comp stripe)
      | some bytes =>
        let a := d.shardAddr comp stripe
        let x' : Ctx := { x with mem := x.mem.write a bytes }
        let d := d.memOp (.write a bytes)
        let d := (d.count (0x4200 + comp) 0x0C 1).checkpoint x comp stripe (tgetD d.sweep (8 + comp) 0) 2
        let due (g : GenRec) : Bool :=
          d.rejoining comp && d.inShard comp stripe (g.dir + 8 * g.tiles - 1) 1 && !d.directoryOk x' comp g.dir g.tiles
        d.badWhere comp Config.accessDenied due

/-! Shadow parity (R422, R423). -/

/-- SHADOW_DECODE (R148, R423): the stripe engine has decoded a closed page of a request that this replacement lost; where a parity frame's tag does
not verify, the history from there runs again as prefill, and the lead is told (assumption 186). -/
def execShadowDecode (job slot page : Nat) (pageData : List Byte) (tagOk : Bool) (s : State) : Host.Outcome State Fault Refusal :=
  onDev s fun x d =>
    match tget d.jobs job with
    | none => d
    | some b =>
      let key := b.reqKey job slot
      match tget d.reqs key with
      | none => d
      | some q =>
        if !d.winchOn || decide (d.num (0x5340 + job) 1 ≠ 1) || decide (b.st ≠ .loading) || decide (b.phase ≠ .rejoining ∧ b.phase ≠ .restoring) ||
            decide (q.job ≠ job) || decide (q.kv < 64 * (page + 1)) then d
        else if !tagOk then
          let d := if b.rank = 0 then d else d.tell job 8 [slot, page]
          { d with reqs := tset d.reqs key (q.replayFrom (64 * page)) }
        else
          let d := match q.pages[page]?, b.freeFrames with
            | some ⟨.reserved, _, _, _⟩, fr :: rest =>
              (d.adjJob job fun b => { b with freeFrames := rest }).adjPage key page fun p => { p with place := .working fr, fill := 0 }
            | _, _ => d
          let pg : Option Page := (tget d.reqs key).bind fun q => q.pages[page]?
          match pg with
          | some ⟨.working fr, fill, _, _⟩ =>
            if fill = 64 then d
            else
              let d := d.memOp (.write (b.frameAddr fr + 128) (lpad b.pageSize 0 (pageData.take b.pageSize)))
              ((d.fillPage key page 64).register x key page).count (0x5340 + job) 0x0B 1
          | _ => d

end Sys2Proof.Machine
end

