-- ==== Sys2Proof/Machine/Beat.lean ====
section
/-!
DEFINITION. Beat and Round boundaries (chapter 1): the beat number, pending changes in the order of R32, what every boundary does, and the
loss of BEATREF.
-/

namespace Sys2Proof.Machine

/-- The pilot serves groups: replay is done, no reset is held. -/
def Dev.pilotRuns (d : Dev) : Bool := d.pilotOn && !d.boot.sysrstLow

/-! Pending changes (R30 to R32). -/

/-- Groups of class I that were granted in the beat that ends commit in it (R30); a fuse write ends by itself. -/
def Dev.commitI (d : Dev) (x : Ctx) : Dev :=
  (d.granted fun g => decide (g.cls = 0) && !g.fuses).foldl (fun d n => d.commitGroup x n) d

/-- Groups of class D, at a Round boundary. -/
def Dev.commitD (d : Dev) (x : Ctx) : Dev :=
  (d.granted fun g => decide (g.cls = 3) && decide (g.grantBeat < x.time.beat)).foldl (fun d n => d.commitGroup x n) d

/-- Has a compartment a Running job (R31)? -/
def Dev.compRuns (d : Dev) (c : Nat) : Bool := d.jobs.any fun p => decide (p.2.comp = c) && decide (p.2.st = .running)

/-- Is a job Running? -/
def Dev.jobRuns (d : Dev) (j : Nat) : Bool := match tget d.jobs j with | some b => decide (b.st = .running) | none => false

/-- Changes of class S of jobs that are not Running, and of compartments without a Running job, at a beat boundary (R31), in order of acceptance
(R32). What reaches a Draining job's requests waits for its step boundary (R180, R190). -/
def Dev.idleS (d : Dev) (x : Ctx) : Dev :=
  let pg (g : Group) : Bool := ((List.range 64).any fun j => g.ownedBy j && !d.jobRuns j) || (List.range 8).any fun c => g.ownedBy (64 + c) && !d.compRuns c
  let ps (s : SChange) : Bool := !s.ofSteps && (match s.job with | some j => !d.jobRuns j | none => !d.compRuns s.comp)
  let d := d.orderedS x none pg ps
  (List.range 8).foldl (fun (d : Dev) (c : Nat) =>
    let d := if d.compRuns c then d else (d.tidyCatalog c).tidyTombs c
    d.compBoundary x c) d

/-- Is a job without a step at a step boundary in this beat (R195, R216): a Spar job whose requests are in Prefill or Decode is at its next STEP's only? -/
def Dev.freeBoundary (d : Dev) (j : Nat) (b : Job) : Bool := !b.spar || decide (b.phase ≠ .none) || !d.serving j

/-- Does a staged step of a job start by itself in the beat that it names: the lead's own, and a member's in native job mode and in restore steps? -/
def Job.startsAlone (b : Job) : Bool := b.forms || (decide (b.rank ≠ 0) && (!b.spar || decide (b.phase = .restoring)))

/-- A job that steps, at a beat boundary: a step whose boundary has come is due; a staged step starts; a job without a step is at a step boundary. -/
def Dev.jobBeat (x : Ctx) (d : Dev) (j : Nat) : Dev :=
  match tget d.jobs j with
  | none => d
  | some b =>
    if !b.stepping? then d
    else if b.step.isSome then
      let d := d.settlePlans j
      (if b.boundaryDue x.time.beat then { d with stepDue := sinsert d.stepDue j } else d)
    else
      let ready : Bool := match b.staged with | some st => decide (st.groups ≠ []) | none => false
      if ready then (if b.startsAlone then d.goOn x j else d)
      else if !d.freeBoundary j b then d
      else
        let before := d.tether.pend.length
        let d := d.atBoundary x j
        if before < d.tether.pend.length then d.noteApplied j before else d

/-! What happens at every boundary. -/

/-- Adoption moves the number forward at once (R17): what was stamped before moves with it. -/
def Dev.shift (d : Dev) (n : Nat) : Dev :=
  if n = 0 then d
  else
    let d := { d with ports := tmap d.ports fun _ q =>
      { q with lastMarker := q.lastMarker + n, lastHeart := q.lastHeart + n, since := if q.since = 0 then 0 else q.since + n } }
    let d := d.adjBoot fun b => { b with releasedAt := b.releasedAt + n, trainFrom := b.trainFrom + n, memFrom := b.memFrom.map fun m => m + n }
    d.adjTether fun t => { t with since := if t.since = 0 then 0 else t.since + n }

/-- Every port sends a MARKER as the first frame of a beat (R261), and a HEARTBEAT in every 64th (R262). -/
def Dev.beacons (d : Dev) (now : Nat) : Dev :=
  (List.range 16).foldl (fun (d : Dev) (p : Nat) =>
    if !(d.port p).speaks then d
    else
      let d := d.sendControl p { idleFrame with typ := 2, ctl := leBytes 8 now ++ leBytes 1 p }
      if now % 64 = 0 then
        d.sendControl p { idleFrame with typ := 3, ctl := leBytes 8 now ++ leBytes 1 d.state.code ++ leBytes 1 d.profile }
      else d) d

/-- The skip count that was chosen comes into force at the start of a window (R28, R384); the choice for the next is made in the last beat
of a window. -/
def Dev.skipBeat (d : Dev) (now : Nat) (env : BeatEnv) : Dev :=
  let d := if now % 16 = 0 then
      match d.ballast.nextSkip with
      | some s => (d.adjBallast fun b => { b with skip := s, nextSkip := none }).setNum 0x3100 8 s
      | none => d
    else d
  if now % 16 = 15 then d.windowChoice env else d

/-- Holds that start and end at the boundary of beat now (R29, R380, R390, R397, R399), gust that ends, scans that are over, fences that are
lifted. -/
def Dev.holds (d : Dev) (now : Nat) : Dev :=
  let d := d.adjBallast fun b => { b with
    brakeCanopy := b.brakeOn && !(b.delayDone && !b.brakeLow && decide (now % 16 = 0))
    mooredHold := (b.mooredHold && decide (b.moored ≠ .awake)) || (decide (b.moored = .entering) && b.emptied) }
  let d := d.endProfHold
  let d := if d.gust.disarmDue then d.gustOff else d
  d.resumeScans.liftFences

/-- The beat that begins is executed, or skipped or held (R26, R27, R29). -/
def Dev.countBeat (d : Dev) (x : Ctx) : Dev :=
  if !d.alive then d
  else if d.executes x then { d with execBeats := d.execBeats + 1 } else d.count 0x3100 0x0E 1

/-- One millisecond in beats, rounded up. -/
def msBeats : Nat := 977

/-- NOTIFY to the last manager whose session is open, at most once in a millisecond (R342). -/
def Dev.notify (d : Dev) (x : Ctx) : Dev :=
  if !d.notifyDue then d
  else match d.mgr with
    | none => { d with notifyDue := false }
    | some (client, s) =>
      if (tget d.sessions s).isNone then { d with notifyDue := false }
      else if d.notified ≠ 0 ∧ x.time.beat < d.notified + msBeats then d
      else { d with notifyDue := false, notified := x.time.beat }.emit (.notify client s d.alerts x.time.beat)

/-- Work of a Round boundary (R16, R341, R381, R383, R388). -/
def Dev.roundWork (d : Dev) (x : Ctx) (margin : Int) : Dev :=
  let d := d.commitD x
  let d := if d.pilotOn then d.leaseRound else d
  let d := d.trimCore margin
  if d.num 0x1220 2 = 1 then d.emit (.announce d.alerts) else d

/-- The links at a boundary: numbers adopted and compared (R17, R18), markers, heartbeats, the frames of Tether, and training. -/
def Dev.linkBeat (d : Dev) (x : Ctx) : Dev :=
  let d := d.conform x.time.beat x.time.beat
  let d := ((d.beacons x.time.beat).startMemory x).evalTraining x
  let d := (d.tetherTrain x).tetherBeat x
  (List.range 32).foldl (fun (d : Dev) (r : Nat) => d.interrupt x r) d

/-- Pending changes of a boundary in the order D, S, B (R32). -/
def Dev.changesAt (d : Dev) (x : Ctx) (margin : Int) : Dev :=
  let d := if x.time.beat % Config.round = 0 then d.roundWork x margin else d
  let d := d.idleS x
  let d := (tkeys d.jobs).foldl (Dev.jobBeat x) d
  if d.stepDue.isEmpty then d.applyB x else { d with bWaiting := true }

/-- A beat boundary (R13 to R17): x is the device as the beat ends. -/
def Dev.boundary (d : Dev) (x : Ctx) (env : BeatEnv) (margin : Int) : Dev :=
  if d.boot.porstLow then d
  else
    let d := if d.bWaiting then d.applyB x else d
    let d := if d.pilotRuns then d.commitI x else d
    let op : TimeOp := if x.time.ref = 2 then .first else .tick
    let d := d.eff (.time op)
    let x : Ctx := { x with time := x.time.run op }
    let (d, x) : Dev × Ctx :=
      match d.adoption x.time.beat with
      | some (n, p) => ((d.eff (.time (.adopt n p))).shift (n - x.time.beat), { x with time := x.time.run (.adopt n p) })
      | none => (d, x)
    let d := if d.pilotOn then d.expireLease else d
    let d := d.holds x.time.beat
    let d := if d.pilotRuns then d.changesAt x margin else d
    let d := if d.alive then (d.noteGust).linkBeat x else d
    let d := if d.pilotOn then d.sampleTemps env.temps else d
    let d := if d.alive && d.pilotOn then d.skipBeat x.time.beat env else d
    (d.countBeat x).notify x

/-- BEAT_BOUNDARY (R13). -/
def execBeatBoundary (env : BeatEnv) (s : State) : Host.Outcome State Fault Refusal :=
  onDev s fun x d => d.boundary x env 0

/-- ROUND_BOUNDARY (R16): a beat boundary whose number is a multiple of 2^20; margin is what the ring oscillators ask for (R383). -/
def execRoundBoundary (env : BeatEnv) (margin : Int) (s : State) : Host.Outcome State Fault Refusal :=
  onDev s fun x d =>
    let next := if x.time.ref = 2 then 0 else x.time.beat + 1
    if next % Config.round = 0 then d.boundary x env margin else d

/-- BEATREF_LOSS (R14): holdover counts beats from REFCLK; alert cause 0. -/
def execBeatrefLoss (s : State) : Host.Outcome State Fault Refusal :=
  onDev s fun x d => if !d.boot.porstLow && decide (x.time.ref = 0) then (d.eff (.time .holdover)).alert 0 else d

/-- HOLDOVER_EXIT (R14). -/
def execHoldoverExit (s : State) : Host.Outcome State Fault Refusal :=
  onDev s fun x d => if !d.boot.porstLow && decide (x.time.ref = 1) then d.eff (.time .lock) else d

end Sys2Proof.Machine
end

