-- ==== Sys2Proof/Machine/Abort.lean ====
section
/-!
DEFINITION. ABORT (R307, Table 9.8): the swap of a target command's operation record.
-/

namespace Sys2Proof.Machine

/-- The commands that can be aborted (Table 9.8). -/
def abortable (op : Nat) : Bool := [0x11, 0x20, 0x30, 0x31, 0x42, 0x50, 0x51].contains op

/-- A job that forms or loads ends, nothing loaded: its shadow copies go (Table 9.8, R179). -/
def Dev.abortStart (d : Dev) (x : Ctx) (j : Nat) (b : Job) : Dev :=
  let k := d.canopyOf b.comp
  let mine := decide (b.st = .loading) && (decide (k.job = some j) || b.passed || (tget d.images j).isSome)
  let d := if mine then
      let d := b.facets.foldl (fun (d : Dev) (n : Nat) => d.adjFacet n fun f => f.setShadow { f.shadow with valid := false }) d
      d.setCanopy b.comp { k with st := .idle, shadow := ImageInfo.none, job := none, drain := none, drains := [] }
    else d
  d.refuseJob x j Config.aborted 0 true

/-- The group that a DICT_COMMIT has granted or asked for and whose commit point has not come. -/
def Dev.groupOfCmd (d : Dev) (r tag : Nat) : Option (Nat × Group) :=
  d.groups.find? fun g => g.2.live && (match g.2.asker with
    | some w => (match w.via with | .ring i t => decide (i = r) && decide (t = tag) | .port _ => false)
    | none => false)

/-- A pending CATALOG_SWAP goes: the record stays staged (R185). -/
def Dev.abortSwap (d : Dev) (x : Ctx) (r tag : Nat) : Option Dev :=
  let mine (s : SChange) : Bool := match s.effect with | .swapCmd _ _ o => decide (o = ⟨r, tag⟩) | _ => false
  match d.schanges.find? mine with
  | none => none
  | some s =>
    let k := d.catalog s.comp
    let d := d.setCatalog s.comp { k with entries := tmap k.entries fun _ en => if en.swap = some (cmdKey r tag) then { en with swap := none } else en }
    some ({ d with schanges := d.schanges.filter fun s => !mine s }.answer x r tag Config.aborted)

/-- A staged STEP goes: no step runs. -/
def Dev.abortStep (d : Dev) (x : Ctx) (r tag : Nat) : Option Dev :=
  let mine (b : Job) : Bool := match b.staged with | some st => decide (st.origin = some ⟨r, tag⟩) | none => false
  match d.jobs.find? fun p => mine p.2 with
  | some (j, b) => some ((((d.setJob j { b with staged := none }).sendStaging j).setNum (0x5400 + j) 3 Config.aborted).answer x r tag Config.aborted)
  | none => none

/-- A SCAN_OUT stops: committed records stand, facets resume at the next beat boundary (R127). -/
def Dev.abortScan (d : Dev) (x : Ctx) (r tag : Nat) : Option Dev :=
  match d.scans.find? fun p => decide (p.2.ring = r) && decide (p.2.tag = tag) with
  | some (c, k) =>
    let phys := match d.scanJob k with | some (_, b) => k.facets.map fun l => physFacet b.groups l | none => []
    some ({ d with scans := terase d.scans c, resume := phys.foldl sinsert d.resume }.answer x r tag Config.aborted)
  | none => none

/-- Abort a command that runs: the device after it if the swap found it before its commit point. -/
def Dev.abortRunning (d : Dev) (x : Ctx) (r tag op : Nat) : Option Dev :=
  if op = 0x20 then
    match d.jobs.find? fun p => decide (p.2.origin = ⟨r, tag⟩) && (decide (p.2.st = .forming) || decide (p.2.st = .loading)) with
    | some (j, b) => some (d.abortStart x j b)
    | none => none
  else if op = 0x11 then d.abortSwap x r tag
  else if op = 0x42 then (d.groupOfCmd r tag).map fun g => (d.abortGroup x g.1).2
  else if op = 0x30 then d.abortStep x r tag
  else if op = 0x50 then d.abortScan x r tag
  else none

/-- The abort swap on the command of a ring and TAG: the status of the ABORT. -/
def Dev.abortSwapOf (d : Dev) (x : Ctx) (r tag : Nat) : Nat × Dev :=
  match tget (d.ring r).seen tag with
  | none => (Config.range, d)
  | some op =>
    if !abortable op then (Config.range, d)
    else match d.cmd r tag with
      | none => (Config.alreadyDone, d)
      | some c =>
        if op = 0x31 ∨ d.answered r tag = true then (Config.alreadyDone, d)
        else if !c.started then (Config.aborted, d.turnAway x r tag c.entry Config.aborted)
        else match d.abortRunning x r tag op with
          | some d => (Config.aborted, d)
          | none => (Config.alreadyDone, d)

/-- ABORT (R307): byte 8 is the target ring, bytes 12 to 15 the target TAG. A commit whose fuse write runs cannot be stopped; its ABORT
waits (R326). -/
def execAbort (ring tag : Nat) (s : State) : Host.Outcome State Fault Refusal :=
  onDev s fun x d =>
    let target (e : Nat) : Nat × Nat := (ebyte e 8, efield e 12 4)
    let waits : Bool := match d.waiting ring tag with
      | some e => (match d.groupOfCmd (target e).1 (target e).2 with | some g => decide (g.2.st = .granted) && g.2.fuses | none => false)
      | none => false
    if waits then d
    else d.runCmd x ring tag (fun e => decide (eOpcode e = 0x60)) fun e d =>
      let (r, t) := target e
      if r = 0 ∨ 63 < r then d.answer x ring tag Config.range
      else if d.ringComp r ≠ d.ringComp ring then d.answer x ring tag Config.accessDenied
      else
        let (st, d) := d.abortSwapOf x r t
        d.answer x ring tag st

end Sys2Proof.Machine
end

