-- ==== Sys2Proof/Machine/Board.lean ====
section
/-!
DEFINITION. Board space as target and as requester (R169 to R172, R282).
-/

namespace Sys2Proof.Machine

/-- The job and compartment a request's job tag stands for here (R170). -/
def Dev.boardComp (d : Dev) (tag : Nat) : Option (Nat × Nat) :=
  d.routes.findSome? fun p =>
    if p.2.tag = tag then
      match tget d.jobs p.1 with
      | some b => if b.st = .ended then none else some (p.1, b.comp)
      | none => none
    else none

/-- Answer a board-space request on the reverse leg of its job j; where no job here has the request's tag there is no such leg, and the answer
leaves as a message only (assumption 45). -/
def Dev.boardReply (d : Dev) (j : Option Nat) (op status : Nat) (m : BoardMsg) (data : List Byte) : Dev :=
  let r : BoardMsg := ⟨m.addr, max 1 ((data.length + 63) / 64), m.tag, d.ownSlot % 8, m.jobtag, status, 0, false, 0, data⟩
  match d.boardLeg (fun i => decide (j = some i)) m.sslot with
  | some (key, _) => d.boardOut key m.sslot op r
  | none => d.emit (.board m.sslot op r)

/-- Refuse a request as target: counted in 0x4070:05 where ACCESS_DENIED (R170). -/
def Dev.boardRefuse (d : Dev) (j : Option Nat) (op status : Nat) (m : BoardMsg) : Dev :=
  (if status = Config.accessDenied then d.count 0x4070 5 1 else d).boardReply j op status m []

/-- Serve a request of operation q with a reply of operation op: its flits leave the leg's buffer, g acts for the job and the compartment it
owns here; no such job is ACCESS_DENIED. -/
def Dev.serve (d : Dev) (m : BoardMsg) (q op : Nat) (g : Dev → Option Nat → Nat → Dev) : Dev :=
  if !d.alive then d
  else
    let d := d.takeFlits q m
    match d.boardComp m.jobtag with
    | some (j, c) => if d.compState c = 1 then g d (some j) c else d.boardRefuse (some j) op Config.accessDenied m
    | none => d.boardRefuse none op Config.accessDenied m

/-- BOARD_READ (R171): within the compartment's ranges, no weight granule or line (R153), POISON as R65. -/
def execBoardRead (msg : BoardMsg) (env : MemEnv) (s : State) : Host.Outcome State Fault Refusal :=
  onDev s fun x d => d.serve msg 0 8 fun d j c =>
    let a := localOf msg.addr
    let n := 64 * msg.lines
    let st := d.wordStatus c a n
    if st ≠ Config.ok then d.boardRefuse j 8 st msg
    else if x.mem.touchesWeight a n then d.boardRefuse j 8 Config.accessDenied msg
    else
      let d := d.memErrors x a n env
      if !d.alive then d
      else if x.mem.anyPoison a n then d.boardReply j 8 Config.poison msg []
      else d.boardReply j 8 Config.ok msg (x.mem.bytes a n)

/-- BOARD_WRITE (R171): the data lands; DSYNC of the last write counts. Data for a resting tier comes only in stored form, from a
source that lies in a resting tier (R154): the sender's engine has checked it. -/
def execBoardWrite (msg : BoardMsg) (env : MemEnv) (s : State) : Host.Outcome State Fault Refusal :=
  onDev s fun x d => d.serve msg 1 9 fun d j c =>
    let a := localOf msg.addr
    let st := d.wordStatus c a msg.data.length
    if st ≠ Config.ok then d.boardRefuse j 9 st msg
    else
      let d := d.burstErrors x a env
      if !d.alive then d
      else
        let d := d.memOp (.write a msg.data)
        let d := if msg.dsyncEn then d.addSync msg.dsync 1 else d
        d.boardReply j 9 Config.ok msg []

/-- A board-space atomic as target: the bank's status and bytes go back, unless a word has stopped the device. -/
def Dev.atomicReply (d : Dev) (j : Option Nat) (m : BoardMsg) (st : Nat) (data : List Byte) : Dev :=
  if !d.alive then d else if st = Config.ok then d.boardReply j 10 st m data else d.boardRefuse j 10 st m

/-- BOARD_FETCH_ADD_32 (R66, R171). -/
def execBoardFetchAdd32 (msg : BoardMsg) (s : State) : Host.Outcome State Fault Refusal :=
  onDev s fun x d => d.serve msg 2 10 fun d j c =>
    let (st, old, d) := d.bankFetchAdd x c (localOf msg.addr) 4 msg.operand
    d.atomicReply j msg st (leBytes 4 old)

/-- BOARD_FETCH_ADD_64 (R66, R171). -/
def execBoardFetchAdd64 (msg : BoardMsg) (s : State) : Host.Outcome State Fault Refusal :=
  onDev s fun x d => d.serve msg 3 10 fun d j c =>
    let (st, old, d) := d.bankFetchAdd x c (localOf msg.addr) 8 msg.operand
    d.atomicReply j msg st (leBytes 8 old)

/-- BOARD_SWAP (R66, R171). -/
def execBoardSwap (msg : BoardMsg) (s : State) : Host.Outcome State Fault Refusal :=
  onDev s fun x d => d.serve msg 4 10 fun d j c =>
    let (st, old, d) := d.bankSwap x c (localOf msg.addr) msg.data
    d.atomicReply j msg st old

/-- A reply of operation op takes its request out once its last acknowledgement has come; NO_TARGET and LINK_DOWN count here (Table 4.13).
Answers the request and whether it is over. -/
def Dev.takeReply (d : Dev) (kinds : List Nat) (op : Nat) (m : BoardMsg) : Option (BoardReq × Dev) :=
  match tget d.board m.tag with
  | none => none
  | some r =>
    if kinds.contains r.kind then
      let d := d.takeFlits op m
      let d := if m.status = Config.noTarget then d.count 0x4070 3 1 else if m.status = Config.linkDown then d.count 0x4070 4 1 else d
      some (r, { d with board := if 1 < r.left then tset d.board m.tag { r with left := r.left - 1 } else terase d.board m.tag })
    else none

/-- A gondola's access completes with the reply's status and data. -/
def Dev.gondolaReply (d : Dev) (g : Nat) (m : BoardMsg) : Dev :=
  d.emit (.gondola g m.status (if m.status = Config.ok then m.data else []))

/-- READ_DATA (R282): the data goes to the gondola, or is kept for the engine's element. -/
def execReadData (msg : BoardMsg) (s : State) : Host.Outcome State Fault Refusal :=
  onDev s fun _ d =>
    if !d.alive then d
    else match d.takeReply [0] 8 msg with
      | none => d
      | some (r, d) =>
        match r.user with
        | .gondola g => d.gondolaReply g msg
        | .engine e n el => d.readReply e n el r.addr msg.status (lpad (64 * r.len) 0 msg.data)

/-- WRITE_ACKNOWLEDGE (R277, R282). -/
def execWriteAcknowledge (msg : BoardMsg) (s : State) : Host.Outcome State Fault Refusal :=
  onDev s fun _ d =>
    if !d.alive then d
    else match d.takeReply [1] 9 msg with
      | none => d
      | some (r, d) =>
        match r.user with
        | .gondola g => d.emit (.gondola g msg.status [])
        | .engine e n el => d.writeReply e n el r.len msg.status

/-- ATOMIC_RESULT (R282): the old value goes to the gondola. -/
def execAtomicResult (msg : BoardMsg) (s : State) : Host.Outcome State Fault Refusal :=
  onDev s fun _ d =>
    if !d.alive then d
    else match d.takeReply [2, 3, 4] 10 msg with
      | none => d
      | some (r, d) =>
        match r.user with
        | .gondola g => d.gondolaReply g msg
        | .engine .. => d

end Sys2Proof.Machine
end

