-- ==== Sys2Proof/Machine/Gondola.lean ====
section
/-!
DEFINITION. Memory-mapped accesses by gondolas (R57 to R66, R83, R93, R129 to R134, R153, R162, R172): loads, stores, atomics,
control registers.
-/

namespace Sys2Proof.Machine

/-- What an offset of control space is: register block and offset in it (Table 4.1, R83, Table 4.10). -/
inductive CtlAddr where
  | facet (n off : Nat)
  | winch (e off : Nat)
  | none
  deriving DecidableEq, Repr

/-- The control block that a local address lies in. -/
def ctlAddr (a : Nat) : CtlAddr :=
  let o := a - controlBase
  if a < controlBase then .none
  else if o < 0x400000 then .facet (o / 0x1000) (o % 0x1000)
  else if o < 0x400000 + 32 * 0x1000 then .winch ((o - 0x400000) / 0x1000) (o % 0x1000)
  else .none

/-- STATE (Table 2.15). -/
def stateReg (f : Facet) : Nat :=
  let run := if f.held then 3 else match f.run with | .idle => 0 | .running => 1 | .halted => 2
  let fl := f.wins.foldl (fun a w => Nat.lor a w.2.flags) 0
  run + (if f.epoch then 4 else 0) + (if f.poisonSeen then 8 else 0) + fl % 8 * 16

/-- Flits in a switch's input buffers (SWBUF). -/
def swbuf (f : Facet) : Nat := f.bufs.foldl (fun a b => a + b.2.length) 0

/-- A register of a facet control block (Tables 2.15 and 3.3); an offset inside the block that the tables do not name reads 0 (R4). ITER stops
at the top of its range (R477). -/
def Dev.facetReg (d : Dev) (n off : Nat) : Nat :=
  let f := d.facet n
  if off = 0 then stateReg f
  else if off = 0x008 then min f.iter (2 ^ 64 - 1)
  else if off = 0x010 then min (d.lag f) (2 ^ 32 - 1)
  else if off = 0x018 then f.eccCe
  else if off = 0x01C then f.epochDisc
  else if off = 0x020 then f.staleGrp
  else if off = 0x024 then f.discGrp
  else if 0x040 ≤ off ∧ off < 0x060 ∧ off % 2 = 0 then f.valid.getD ((off - 0x040) / 2) 0
  else if 0x080 ≤ off ∧ off < 0x180 then
    let r := f.win ((off - 0x080) / 16)
    match off % 16 with
    | 0 => r.serial
    | 4 => r.expect
    | 8 => r.arrivals
    | 12 => r.flags
    | _ => 0
  else if 0x200 ≤ off ∧ off < 0x220 ∧ off % 4 = 0 then
    let q := (off - 0x200) / 4
    f.credit q % 256 + (f.oqOf q).length % 256 * 256
  else if 0x220 ≤ off ∧ off < 0x240 ∧ off % 4 = 0 then (f.iqOf ((off - 0x220) / 4)).length % 256
  else if 0x240 ≤ off ∧ off < 0x260 ∧ off % 4 = 0 then tgetD f.cstall ((off - 0x240) / 4) 0
  else if off = 0x260 then (if f.epoch then 1 else 0) + (if f.shadow.valid then 2 else 0)
  else if off = 0x264 then swbuf f
  else 0

/-- Readable registers of a winch control block (Table 4.10); none where only writes are allowed. -/
def Dev.winchReg (d : Dev) (e off : Nat) : Option Nat :=
  let g := d.engine e
  match off with
  | 0x048 => some g.substat
  | 0x04C => some g.outst
  | 0x054 => some g.abtstat
  | 0x058 => some (match d.engineComp e with | some c => tgetD d.stepser c 0 | none => 0)
  | 0x060 => some g.errlog
  | _ => if off < 0x044 ∨ off = 0x050 then none else some 0

/-- A change with commit timing S that a register write asks for (R31, R84): it waits for the step boundary of the job that owns
the facet. -/
def Dev.pendS (d : Dev) (x : Ctx) (c : Nat) (job : Option Nat) (e : SEffect) : Dev := { d with nextOrder := d.nextOrder + 1 }.waitS x c job d.nextOrder e

/-- Write a register of a facet control block (Tables 2.15, 3.3): valid counts and window registers wait for the step boundary
(R84), a counter is cleared by 0; a write to an offset inside the block that the tables do not name is ignored (R4), one to a read-only
register is refused, a valid count above 64 answers RANGE and is dropped (assumption 43). Answers the status. -/
def Dev.facetWrite (d : Dev) (x : Ctx) (c n off v : Nat) : Nat × Dev :=
  let j := d.facetJob n
  let clear (g : Facet → Facet) : Nat × Dev := (Config.ok, if v = 0 then d.adjFacet n g else d)
  if off = 0x018 then clear fun f => { f with eccCe := 0 }
  else if off = 0x01C then clear fun f => { f with epochDisc := 0 }
  else if off = 0x020 then clear fun f => { f with staleGrp := 0 }
  else if off = 0x024 then clear fun f => { f with discGrp := 0 }
  else if 0x040 ≤ off ∧ off < 0x060 ∧ off % 2 = 0 then
    if v % 65536 ≤ 64 then (Config.ok, d.pendS x c j (.vcount n ((off - 0x040) / 2) (v % 65536))) else (Config.range, d)
  else if 0x080 ≤ off ∧ off < 0x180 then
    let w := (off - 0x080) / 16
    match off % 16 with
    | 0 => (Config.ok, d.pendS x c j (.window n w (v % 65536)))
    | 4 => (Config.ok, d.pendS x c j (.wexpect n w (v % 2 ^ 32)))
    | 8 => (Config.readOnly, d)
    | 12 => clear fun f => let r := f.win w; f.setWin w { r with flags := 0 }
    | _ => (Config.ok, d)
  else if 0x240 ≤ off ∧ off < 0x260 ∧ off % 4 = 0 then
    clear fun f => { f with cstall := tset f.cstall ((off - 0x240) / 4) 0 }
  else if off = 0 ∨ off = 8 ∨ off = 0x10 ∨ (0x200 ≤ off ∧ off < 0x268) then (Config.readOnly, d)
  else (Config.ok, d)

/-- Write n bytes to a register of a winch control block (Table 4.10). SUBMIT takes a whole descriptor: a store of another length to it submits
nothing and answers RANGE (DESIGN CHOICE, assumption 185: the manual gives SUBMIT 64 bytes and does not say what a shorter store does). -/
def Dev.winchWrite (d : Dev) (x : Ctx) (c e off n v : Nat) : Nat × Dev :=
  match off with
  | 0x000 => if n = 64 then (Config.ok, (d.submit e c (v % 2 ^ 512) .gondola).2.2) else (Config.range, d)
  | 0x040 =>
    (Config.ok, match (d.canopyOf c).active.descs[v % 65536]? with
      | some w => (d.submit e c w .image).2.2
      | none => d.setEngine e { d.engine e with substat := Config.range })
  | 0x050 => (Config.ok, d.abortCmd e (v % 65536))
  | 0x058 => (Config.ok, d.pendS x c none (.stepser (v % 65536)))
  | 0x048 | 0x04C | 0x054 | 0x060 => (Config.readOnly, d)
  | _ => (Config.ok, d)

/-- A control-space access of a gondola of compartment c: who may reach the block (R83, R162). -/
def Dev.ctlReach (d : Dev) (c : Nat) : CtlAddr → Bool
  | .facet n _ => decide (d.facetComp n = some c)
  | .winch e _ => decide (d.engineComp e = some c)
  | .none => false

/-- Is an access to n bytes here a secure access to secure memory (R130, R359)? The key material of the model lies in state of its own, so no
load of secure memory returns any. -/
def Dev.secureHere (d : Dev) (secure : Bool) (addr n : Nat) : Bool :=
  secure && decide (slotOf addr = d.ownSlot) && decide (regionOf (localOf addr) = .secure) &&
    decide (regionOf (localOf addr + (n - 1)) = .secure)

/-- GONDOLA_LOAD. A far address is read over the board (R169, R172); control space gives a register; weight granules and lines are
refused (R153); POISON completes POISON (R65). secure says that the gondola is in machine mode and runs the security monitor (R359): its loads
reach secure memory. -/
def execGondolaLoad (gondola addr len : Nat) (secure : Bool) (env : MemEnv) (s : State) : Host.Outcome State Fault Refusal :=
  onDev s fun x d =>
    if !d.alive then d
    else if d.secureHere secure addr len then d.emit (.gondola gondola Config.ok (x.mem.bytes (localOf addr) len))
    else match d.gondolaComp gondola with
      | none => d.emit (.gondola gondola Config.accessDenied [])
      | some c =>
        let a := localOf addr
        if slotOf addr ≠ d.ownSlot then
          if 512 ≤ d.gondolaReads ∨ 4096 ≤ d.remoteReads then
            (d.count 0x4070 2 1).emit (.gondola gondola Config.busy [])
          else
            let (st, d) := d.boardRequest c (.gondola gondola) 0 addr (max 1 ((len + 63) / 64)) 0 none []
            if st = Config.ok then d else d.emit (.gondola gondola st [])
        else if regionOf a = .control then
          let t := ctlAddr a
          if t = .none then d.emit (.gondola gondola Config.range [])
          else if !d.ctlReach c t then d.emit (.gondola gondola Config.accessDenied [])
          else match t with
            | .facet n o => d.emit (.gondola gondola Config.ok (leBytes len (d.facetReg n o)))
            | .winch e o => match d.winchReg e o with
              | some v => d.emit (.gondola gondola Config.ok (leBytes len v))
              | none => d.emit (.gondola gondola Config.accessDenied [])
            | .none => d
        else
          let st := d.wordStatus c a len
          if st ≠ Config.ok then d.emit (.gondola gondola st [])
          else if x.mem.touchesWeight a len then d.emit (.gondola gondola Config.accessDenied [])
          else
            let d := d.memErrors x a len env
            if !d.alive then d
            else if x.mem.anyPoison a len then d.emit (.gondola gondola Config.poison [])
            else d.emit (.gondola gondola Config.ok (x.mem.bytes a len))

/-- GONDOLA_STORE: memory, a control register, or a write over the board; secure as for GONDOLA_LOAD. -/
def execGondolaStore (gondola addr : Nat) (data : List Byte) (secure : Bool) (env : MemEnv) (s : State) : Host.Outcome State Fault Refusal :=
  onDev s fun x d =>
    if !d.alive then d
    else if d.secureHere secure addr data.length then
      (d.memOp (.write (localOf addr) data)).emit (.gondola gondola Config.ok [])
    else match d.gondolaComp gondola with
      | none => d.emit (.gondola gondola Config.accessDenied [])
      | some c =>
        let a := localOf addr
        if slotOf addr ≠ d.ownSlot then
          let (st, d) := d.boardRequest c (.gondola gondola) 1 addr (max 1 ((data.length + 63) / 64)) 0 none data
          if st = Config.ok then d else d.emit (.gondola gondola st [])
        else if regionOf a = .control then
          let t := ctlAddr a
          if t = .none then d.emit (.gondola gondola Config.range [])
          else if !d.ctlReach c t then d.emit (.gondola gondola Config.accessDenied [])
          else
            let (st, d) := match t with
              | .facet n o => d.facetWrite x c n o (leNat data)
              | .winch e o => d.winchWrite x c e o data.length (leNat data)
              | .none => (Config.range, d)
            d.emit (.gondola gondola st [])
        else
          let st := d.wordStatus c a data.length
          if st ≠ Config.ok then d.emit (.gondola gondola st [])
          else
            let d := d.burstErrors x a env
            if !d.alive then d
            else (d.memOp (.write a data)).emit (.gondola gondola Config.ok [])

/-- An atomic of a gondola: here, or over the board with operation op. -/
def Dev.gondolaFetchAdd (d : Dev) (x : Ctx) (g addr nb op operand : Nat) : Dev :=
  if !d.alive then d
  else match d.gondolaComp g with
    | none => d.emit (.gondola g Config.accessDenied [])
    | some c =>
      if slotOf addr ≠ d.ownSlot then
        let (st, d) := d.boardRequest c (.gondola g) op addr 1 operand none []
        if st = Config.ok then d else d.emit (.gondola g st [])
      else
        let (st, old, d) := d.bankFetchAdd x c (localOf addr) nb operand
        if !d.alive then d else
        d.emit (.gondola g st (if st = Config.ok then leBytes nb old else []))

/-- FETCH_ADD_32 (R66). -/
def execFetchAdd32 (gondola addr operand : Nat) (s : State) : Host.Outcome State Fault Refusal :=
  onDev s fun x d => d.gondolaFetchAdd x gondola addr 4 2 operand

/-- FETCH_ADD_64 (R66). -/
def execFetchAdd64 (gondola addr operand : Nat) (s : State) : Host.Outcome State Fault Refusal :=
  onDev s fun x d => d.gondolaFetchAdd x gondola addr 8 3 operand

/-- SWAP (R66). -/
def execSwap (gondola addr : Nat) (data : List Byte) (s : State) : Host.Outcome State Fault Refusal :=
  onDev s fun x d =>
    if !d.alive then d
    else match d.gondolaComp gondola with
      | none => d.emit (.gondola gondola Config.accessDenied [])
      | some c =>
        if slotOf addr ≠ d.ownSlot then
          let (st, d) := d.boardRequest c (.gondola gondola) 4 addr 1 0 none (lpad 64 0 data)
          if st = Config.ok then d else d.emit (.gondola gondola st [])
        else
          let (st, old, d) := d.bankSwap x c (localOf addr) data
          if !d.alive then d else
          d.emit (.gondola gondola st old)

/-- WSERIAL (R83, R84): the window's serial waits for the step boundary, where the arrivals return to 0. -/
def execWserial (gondola facet window value : Nat) (s : State) : Host.Outcome State Fault Refusal :=
  onDev s fun x d =>
    if !d.alive then d
    else match d.gondolaComp gondola with
      | none => d.emit (.gondola gondola Config.accessDenied [])
      | some c =>
        if d.facetComp facet ≠ some c then d.emit (.gondola gondola Config.accessDenied [])
        else if 16 ≤ window then d.emit (.gondola gondola Config.ok [])
        else (d.pendS x c (d.facetJob facet) (.window facet window (value % 65536))).emit (.gondola gondola Config.ok [])

/-- REGISTER_WRITE (R8): a control register by a gondola of the owner, or 4 bytes to Tether's register window (Table 9.3): a doorbell acts; a write
to an offset that the table does not name, or to DEVSTAT, is discarded and counted in 0x2400:0E (R291). -/
def execRegisterWrite (target : RegTarget) (value : Nat) (s : State) : Host.Outcome State Fault Refusal :=
  onDev s fun x d =>
    if !d.alive then d
    else match target with
      | .window o => if d.linkUp then d.windowWrite o (leBytes 4 value) else d
      | .facet g n o =>
        match d.gondolaComp g with
        | some c =>
          if d.facetComp n = some c then
            let (st, d) := d.facetWrite x c n o value
            d.emit (.gondola g st [])
          else d.emit (.gondola g Config.accessDenied [])
        | none => d.emit (.gondola g Config.accessDenied [])
      | .winch g e o =>
        match d.reaches g e with
        | some c =>
          let (st, d) := d.winchWrite x c e o 64 value
          d.emit (.gondola g st [])
        | none => d.emit (.gondola g Config.accessDenied [])

end Sys2Proof.Machine
end

