-- ==== Sys2Proof/Machine/Vector.lean ====
section
/-!
DEFINITION. The vector engine's operations (R52 to R56, R67, R70, Table 2.3): each acts on the current bundle of a facet, row by
row, and stalls where a queue is empty or has no room.
-/

namespace Sys2Proof.Machine

/-- The rows of the current vector operation from row vrow on, fuel above the rows left: waiting flits go out first; then row does the
next row, unless the operation is done or stalls (Facet.vectorStall). -/
def Dev.eachRow (n : Nat) (row : Nat → Dev → Dev) : Nat → Dev → Dev
  | 0, d => d
  | k + 1, d =>
    let w := (d.facet n).vop
    let d := d.adjFacet n (Facet.pushOut (vD w - 8) 4)
    let f := d.facet n
    match f.vectorStall with
    | some st => d.stallOn n st
    | none =>
      if f.vrow ≥ vRows w then d.adjFacet n Facet.endV
      else
        let d := row f.vrow d
        if d.alive then Dev.eachRow n row k (d.adjFacet n fun g => { g with vrow := f.vrow + 1 }) else d

/-- One row of an operation whose operands are rows: the sources are read together, g of them is written. -/
def Dev.vecRow (n : Nat) (g : Nat → List Row → Row) (r : Nat) (d : Dev) : Dev :=
  let w := (d.facet n).vop
  let (rows, d) := d.readRows n r (vSources w)
  d.adjFacet n fun f => f.writeRow (vD w) r (g r rows) (decide (r + 1 = vRows w))

/-- The vector operation with opcode o of facet n's bundle: the row function takes the word, the number of a fresh draw, the row's number
and the operands' rows. -/
def Dev.vecOp (d : Dev) (x : Ctx) (n o : Nat) (g : Nat → Nat → Nat → List Row → Row) : Dev :=
  let w := (d.facet n).vop
  if vOpc w = o then
    d.doOp x n (d.mayVector x n) fun d =>
      let (k, d) := d.draw
      Dev.eachRow n (Dev.vecRow n (g w k)) 18 d
  else d

/-- The row of a list. -/
def rowAt (rs : List Row) (i : Nat) : Row := rs.getD i zeroRow

/-- A lane-by-lane function of one row; the mask travels with the row (R50). -/
def rowMap (g : Lane → Lane) (rs : List Row) : Row :=
  let a := rowAt rs 0
  ⟨(List.range 64).map fun i => g (a.lane i), a.mask⟩

/-- A lane-by-lane function of two rows; a lane is valid where both are (assumption 175). -/
def rowMap2 (g : Lane → Lane → Lane) (rs : List Row) : Row :=
  let a := rowAt rs 0
  let b := rowAt rs 1
  ⟨(List.range 64).map fun i => g (a.lane i) (b.lane i), Nat.land a.mask b.mask⟩

/-- A lane-by-lane function of three rows; a lane is valid where all three are (assumption 175). -/
def rowMap3 (g : Lane → Lane → Lane → Lane) (rs : List Row) : Row :=
  let a := rowAt rs 0
  let b := rowAt rs 1
  let c := rowAt rs 2
  ⟨(List.range 64).map fun i => g (a.lane i) (b.lane i) (c.lane i), Nat.land (Nat.land a.mask b.mask) c.mask⟩

/-- A free lane: draw k, position i (assumption 28). -/
def freeLane (k i : Nat) : Lane := BitVec.ofNat 32 (Config.unstated (k * 2 ^ 32 + i))

/-- One level of the fixed tree (R54): adjacent values combine. -/
def treeLevel {α : Type} (g : α → α → α) : List α → List α
  | a :: b :: t => g a b :: treeLevel g t
  | l => l

/-- Six levels of the tree over 64 values. -/
def tree6 {α : Type} (g : α → α → α) (l : List α) : List α :=
  treeLevel g (treeLevel g (treeLevel g (treeLevel g (treeLevel g (treeLevel g l)))))

/-- −∞. -/
def negInf : Lane := f32Inf true

/-- RSUM of a row (R54). -/
def rowSum (a : Row) : Lane := (tree6 f32Add ((List.range 64).map fun i => a.laneOr i 0)).headD 0

/-- RMAX of a row (R54). -/
def rowMax (a : Row) : Lane := (tree6 f32Max ((List.range 64).map fun i => a.laneOr i negInf)).headD 0

/-- The larger of two values with their indices: the lower index among equals; a NaN prevails. -/
def maxIdx (p q : Lane × Nat) : Lane × Nat :=
  let v := f32Max p.1 q.1
  if f32IsNaN p.1 then (v, p.2) else if f32IsNaN q.1 then (v, q.2) else if f32Lt p.1 q.1 then (v, q.2) else (v, p.2)

/-- RMAXI of a row (R54). -/
def rowMaxIdx (a : Row) : Lane × Nat := (tree6 maxIdx ((List.range 64).map fun i => (a.laneOr i negInf, i))).headD (0, 0)

/-- Is the score of p above that of q (R219): a NaN ranks below every number, equal scores keep the lower index first. -/
def ranksAbove (p q : Lane × Nat) : Bool :=
  if f32IsNaN p.1 then false else if f32IsNaN q.1 then true else f32Lt q.1 p.1

/-- The best of a list by ranksAbove, the first among equals. -/
def bestOf (l : List (Lane × Nat)) : Lane × Nat :=
  match l with
  | [] => (0, 0)
  | p :: t => t.foldl (fun b q => if ranksAbove q b then q else b) p

/-- TOP2 of a row (Table 2.3): per group of 16 lanes the two largest values and their lane indices; the other lanes are free
(assumption 28). A masked lane counts as −∞ (assumption 29). -/
def rowTop2 (k r : Nat) (a : Row) : Row :=
  let grp (g : Nat) : List Lane :=
    let l := (List.range 16).map fun i => (a.laneOr (16 * g + i) negInf, 16 * g + i)
    let b := bestOf l
    let c := bestOf (l.filter fun p => decide (p.2 ≠ b.2))
    [b.1, c.1, BitVec.ofNat 32 b.2, BitVec.ofNat 32 c.2] ++ (List.range 12).map fun i => freeLane k (r * 64 + 16 * g + 4 + i)
  ⟨(List.range 4).flatMap grp, a.mask⟩

/-- Inclusive prefix sums of U32 lanes; a masked lane counts as 0 (assumption 29). -/
def rowPsum (a : Row) : Row :=
  let step (acc : Lane × List Lane) (i : Nat) : Lane × List Lane :=
    let s := acc.1 + a.laneOr i 0
    (s, acc.2 ++ [s])
  ⟨((List.range 64).foldl step (0, [])).2, a.mask⟩

/-- CVT of a row to a store format (R55): lane bits 7..0 or 15..0 the element code, bits 23..16 the shared scale code of an MX
format (assumption 30). An infinity in a format without infinities takes a free code (assumption 20). -/
def rowCvt (fmt k r : Nat) (a : Row) : Row :=
  let half (h : Nat) : List Lane :=
    let ls := (List.range 32).map fun i => a.laneOr (32 * h + i) 0
    let sc := if isMx fmt then mxScale fmt ls else 127
    let bad := (decide (fmt = 0) || decide (fmt = 3)) && ls.any f32IsNaN
    let code (i : Nat) (v : Lane) : Nat :=
      cvtElem fmt ((sc : Int) - 127) (Config.cvtInfinity fmt (v.toNat.testBit 31) (k * 2 ^ 32 + r * 64 + 32 * h + i) % 256) v
    (List.range 32).map fun i =>
      BitVec.ofNat 32 (code i (ls.getD i 0) + (if isMx fmt then (if bad then 255 else sc) * 65536 else 0))
  ⟨half 0 ++ half 1, a.mask⟩

def execMov (facet : Nat) (s : State) : Host.Outcome State Fault Refusal :=
  onDev s fun x d => d.vecOp x facet 0x01 fun _ _ _ rs => rowAt rs 0

def execAdd (facet : Nat) (s : State) : Host.Outcome State Fault Refusal :=
  onDev s fun x d => d.vecOp x facet 0x02 fun _ _ _ => rowMap2 f32Add

def execSub (facet : Nat) (s : State) : Host.Outcome State Fault Refusal :=
  onDev s fun x d => d.vecOp x facet 0x03 fun _ _ _ => rowMap2 f32Sub

def execMul (facet : Nat) (s : State) : Host.Outcome State Fault Refusal :=
  onDev s fun x d => d.vecOp x facet 0x04 fun _ _ _ => rowMap2 f32Mul

def execFma (facet : Nat) (s : State) : Host.Outcome State Fault Refusal :=
  onDev s fun x d => d.vecOp x facet 0x05 fun _ _ _ => rowMap3 f32Fma

def execMax (facet : Nat) (s : State) : Host.Outcome State Fault Refusal :=
  onDev s fun x d => d.vecOp x facet 0x06 fun _ _ _ => rowMap2 f32Max

def execMin (facet : Nat) (s : State) : Host.Outcome State Fault Refusal :=
  onDev s fun x d => d.vecOp x facet 0x07 fun _ _ _ => rowMap2 f32Min

def execScale (facet : Nat) (s : State) : Host.Outcome State Fault Refusal :=
  onDev s fun x d => d.vecOp x facet 0x08 fun w _ _ => rowMap fun a => f32Scale a (signed 12 (vImm w))

/-- Lane imm of a, in every lane, with the source's mask (assumption 175); a lane number of 64 or more selects a free value (assumption 28). -/
def execBcast (facet : Nat) (s : State) : Host.Outcome State Fault Refusal :=
  onDev s fun x d => d.vecOp x facet 0x09 fun w k r rs =>
    let a := rowAt rs 0
    let v := if vImm w < 64 then a.lane (vImm w) else freeLane k r
    ⟨List.replicate 64 v, a.mask⟩

def execExp2 (facet : Nat) (s : State) : Host.Outcome State Fault Refusal :=
  onDev s fun x d => d.vecOp x facet 0x0A fun _ _ _ => rowMap f32Exp2

def execRcp (facet : Nat) (s : State) : Host.Outcome State Fault Refusal :=
  onDev s fun x d => d.vecOp x facet 0x0B fun _ _ _ => rowMap f32Rcp

def execRsqrt (facet : Nat) (s : State) : Host.Outcome State Fault Refusal :=
  onDev s fun x d => d.vecOp x facet 0x0C fun _ _ _ => rowMap f32Rsqrt

/-- The sum in every lane, with the source's mask (assumption 175). -/
def execRsum (facet : Nat) (s : State) : Host.Outcome State Fault Refusal :=
  onDev s fun x d => d.vecOp x facet 0x0D fun _ _ _ rs =>
    ⟨List.replicate 64 (rowSum (rowAt rs 0)), (rowAt rs 0).mask⟩

/-- The maximum in every lane, with the source's mask (assumption 175). -/
def execRmax (facet : Nat) (s : State) : Host.Outcome State Fault Refusal :=
  onDev s fun x d => d.vecOp x facet 0x0E fun _ _ _ rs =>
    ⟨List.replicate 64 (rowMax (rowAt rs 0)), (rowAt rs 0).mask⟩

/-- Lane 0 the maximum, lane 1 its index; the other lanes are free (assumption 28). -/
def execRmaxi (facet : Nat) (s : State) : Host.Outcome State Fault Refusal :=
  onDev s fun x d => d.vecOp x facet 0x0F fun _ k r rs =>
    let m := rowMaxIdx (rowAt rs 0)
    ⟨[m.1, BitVec.ofNat 32 m.2] ++ (List.range 62).map fun i => freeLane k (r * 64 + 2 + i), (rowAt rs 0).mask⟩

def execIadd (facet : Nat) (s : State) : Host.Outcome State Fault Refusal :=
  onDev s fun x d => d.vecOp x facet 0x10 fun _ _ _ => rowMap2 fun a b => a + b

def execPsum (facet : Nat) (s : State) : Host.Outcome State Fault Refusal :=
  onDev s fun x d => d.vecOp x facet 0x11 fun _ _ _ rs => rowPsum (rowAt rs 0)

/-- One row of TOP2. On a router facet every NaN score of a valid lane is counted (R219, 0x5440 + j:0A). -/
def Dev.top2Row (n draw r : Nat) (d : Dev) : Dev :=
  let w := (d.facet n).vop
  let (rows, d) := d.readRows n r (vSources w)
  let a := rowAt rows 0
  let nans := ((List.range 64).filter fun i => a.ok i && f32IsNaN (a.lane i)).length
  let d := d.adjFacet n fun f => f.writeRow (vD w) r (rowTop2 draw r a) (decide (r + 1 = vRows w))
  match d.routedJob n 199 184 with
  | some j => if nans = 0 then d else d.count (0x5440 + j) 0x0A nans
  | none => d

/-- TOP2. -/
def execTop2 (facet : Nat) (s : State) : Host.Outcome State Fault Refusal :=
  onDev s fun x d =>
    if vOpc (d.facet facet).vop = 0x12 then
      d.doOp x facet (d.mayVector x facet) fun d =>
        let (k, d) := d.draw
        Dev.eachRow facet (Dev.top2Row facet k) 18 d
    else d

def execCvt (facet : Nat) (s : State) : Host.Outcome State Fault Refusal :=
  onDev s fun x d => d.vecOp x facet 0x18 fun w k r rs => rowCvt (vFn w) k r (rowAt rs 0)

/-! XADD, XRD and XCLR: the function field is the window, the scalar register of field a holds the first lane (assumption 31). -/

/-- The first lane: the scalar register as the bundle found it at issue (R80). -/
def Facet.firstLane (f : Facet) (w : Nat) : Nat := (f.sIssue.getD (vA w % 16) 0).toNat

/-- One row of XADD: its valid lanes are added into the window from lane first + 64 r on; a discard window takes nothing (R74). -/
def Dev.xaddRow (x : Ctx) (n first r : Nat) (d : Dev) : Dev :=
  let f := d.facet n
  let w := f.vop
  let (row, d) := d.readRow n (vA w) r
  let vs := if winDiscard (f.active.prog.windows.getD (vFn w) 0) then [] else
    (List.range 64).map fun i => (row.ok i, row.lane i)
  let (d, bad) := d.exactAdd x n (vFn w) (first + 64 * r) vs
  if bad then d.poisonRead x n else d

def execXadd (facet : Nat) (s : State) : Host.Outcome State Fault Refusal :=
  onDev s fun x d =>
    let f := d.facet facet
    if vOpc f.vop = 0x1C then
      d.doOp x facet (d.mayVector x facet) fun d => Dev.eachRow facet (Dev.xaddRow x facet (f.firstLane f.vop)) 18 d
    else d

/-- Lanes of one row of a window as FP32, valid below LANES; and the OR of their flags (R70). -/
def xrdRow (f : Facet) (m : MemSys) (n wn first k : Nat) : Row × Nat :=
  let w := f.active.prog.windows.getD wn 0
  let inside (i : Nat) : Bool := decide (first + i < winLanes w)
  let v (i : Nat) : Lane :=
    if !inside i then 0
    else if lanePoison m n w (first + i) then freeLane k (first + i)
    else laneValue (winF w) (laneBits m n w (first + i))
  let fl := (List.range 64).foldl (fun a i => if inside i then Nat.lor a (laneFlags (laneBits m n w (first + i))) else a) 0
  (⟨(List.range 64).map v, (List.range 64).foldl (fun a i => if inside i then a + 2 ^ i else a) 0⟩, fl)

/-- One row of XRD: SECDED and POISON of the lanes as for any program read. -/
def Dev.xrdOne (x : Ctx) (n first draw r : Nat) (d : Dev) : Dev :=
  let f := d.facet n
  let w := f.vop
  let wr := f.active.prog.windows.getD (vFn w) 0
  let at_ := first + 64 * r
  let cnt := min 64 (winLanes wr - at_)
  let (row, fl) := xrdRow f x.mem n (vFn w) at_ draw
  let d := (d.progRead x n (winBase wr + 16 * at_) (16 * cnt)).2
  if d.alive then d.adjFacet n fun f => { f.writeRow (vD w) r row (decide (r + 1 = vRows w)) with vflags := fl } else d

def execXrd (facet : Nat) (s : State) : Host.Outcome State Fault Refusal :=
  onDev s fun x d =>
    let f := d.facet facet
    if vOpc f.vop = 0x1D then
      d.doOp x facet (d.mayVector x facet) fun d =>
        let (k, d) := d.draw
        Dev.eachRow facet (Dev.xrdOne x facet (f.firstLane f.vop) k) 18 d
    else d

/-- XCLR: VALUE and flags 0 in every lane of the rows that lies in the window; whole lanes are written. -/
def execXclr (facet : Nat) (s : State) : Host.Outcome State Fault Refusal :=
  onDev s fun x d =>
    let f := d.facet facet
    if vOpc f.vop = 0x1E then d.doOp x facet (d.mayVector x facet) fun d =>
      let w := f.active.prog.windows.getD (vFn f.vop) 0
      let first := f.firstLane f.vop
      let cnt := min (64 * vRows f.vop) (winLanes w - first)
      let d := (List.range cnt).foldl (fun d i => d.memOp (.write (laneAddr facet w (first + i)) (leBytes 16 0))) d
      d.adjFacet facet Facet.endV
    else d

end Sys2Proof.Machine
end

