-- ==== Sys2Proof/Machine/Dispatch.lean ====
section
/-!
DEFINITION. One arm per command of the opcode table: the meaning it calls.
-/

namespace Sys2Proof.Machine

def exec (i : Instr) (s : State) : Host.Outcome State Fault Refusal :=
  match i with
  | .beatBoundary env => Sys2Proof.Machine.execBeatBoundary env s
  | .roundBoundary env margin => Sys2Proof.Machine.execRoundBoundary env margin s
  | .beatrefLoss => Sys2Proof.Machine.execBeatrefLoss s
  | .holdoverExit => Sys2Proof.Machine.execHoldoverExit s
  | .iterationStart facet => Sys2Proof.Machine.execIterationStart facet s
  | .stallRelease facet => Sys2Proof.Machine.execStallRelease facet s
  | .passComplete facet bank => Sys2Proof.Machine.execPassComplete facet bank s
  | .flitArrival facet => Sys2Proof.Machine.execFlitArrival facet s
  | .creditReturn facet queue => Sys2Proof.Machine.execCreditReturn facet queue s
  | .exactAddGroup facet queue => Sys2Proof.Machine.execExactAddGroup facet queue s
  | .nop facet unit => Sys2Proof.Machine.execNop facet unit s
  | .issue facet => Sys2Proof.Machine.execIssue facet s
  | .mov facet => Sys2Proof.Machine.execMov facet s
  | .add facet => Sys2Proof.Machine.execAdd facet s
  | .sub facet => Sys2Proof.Machine.execSub facet s
  | .mul facet => Sys2Proof.Machine.execMul facet s
  | .fma facet => Sys2Proof.Machine.execFma facet s
  | .max facet => Sys2Proof.Machine.execMax facet s
  | .min facet => Sys2Proof.Machine.execMin facet s
  | .scale facet => Sys2Proof.Machine.execScale facet s
  | .bcast facet => Sys2Proof.Machine.execBcast facet s
  | .exp2 facet => Sys2Proof.Machine.execExp2 facet s
  | .rcp facet => Sys2Proof.Machine.execRcp facet s
  | .rsqrt facet => Sys2Proof.Machine.execRsqrt facet s
  | .rsum facet => Sys2Proof.Machine.execRsum facet s
  | .rmax facet => Sys2Proof.Machine.execRmax facet s
  | .rmaxi facet => Sys2Proof.Machine.execRmaxi facet s
  | .iadd facet => Sys2Proof.Machine.execIadd facet s
  | .psum facet => Sys2Proof.Machine.execPsum facet s
  | .top2 facet => Sys2Proof.Machine.execTop2 facet s
  | .cvt facet => Sys2Proof.Machine.execCvt facet s
  | .xadd facet => Sys2Proof.Machine.execXadd facet s
  | .xrd facet => Sys2Proof.Machine.execXrd facet s
  | .xclr facet => Sys2Proof.Machine.execXclr facet s
  | .ld facet => Sys2Proof.Machine.execLd facet s
  | .st facet => Sys2Proof.Machine.execSt facet s
  | .saddi facet => Sys2Proof.Machine.execSaddi facet s
  | .loop facet => Sys2Proof.Machine.execLoop facet s
  | .endIteration facet => Sys2Proof.Machine.execEndIteration facet s
  | .swait facet => Sys2Proof.Machine.execSwait facet s
  | .ssig facet => Sys2Proof.Machine.execSsig facet s
  | .fadd32 facet => Sys2Proof.Machine.execFadd32 facet s
  | .fadd64 facet => Sys2Proof.Machine.execFadd64 facet s
  | .waitl facet => Sys2Proof.Machine.execWaitl facet s
  | .waitw facet => Sys2Proof.Machine.execWaitw facet s
  | .gondolaLoad gondola addr len secure env => Sys2Proof.Machine.execGondolaLoad gondola addr len secure env s
  | .gondolaStore gondola addr data secure env => Sys2Proof.Machine.execGondolaStore gondola addr data secure env s
  | .fetchAdd32 gondola addr operand => Sys2Proof.Machine.execFetchAdd32 gondola addr operand s
  | .fetchAdd64 gondola addr operand => Sys2Proof.Machine.execFetchAdd64 gondola addr operand s
  | .swap gondola addr data => Sys2Proof.Machine.execSwap gondola addr data s
  | .wserial gondola facet window value => Sys2Proof.Machine.execWserial gondola facet window value s
  | .registerWrite target value => Sys2Proof.Machine.execRegisterWrite target value s
  | .scanOut ring tag => Sys2Proof.Machine.execScanOut ring tag s
  | .scanHold comp => Sys2Proof.Machine.execScanHold comp s
  | .scanRecordCommit comp facet => Sys2Proof.Machine.execScanRecordCommit comp facet s
  | .scanIn ring tag tagOk => Sys2Proof.Machine.execScanIn ring tag tagOk s
  | .submit gondola engine desc => Sys2Proof.Machine.execSubmit gondola engine desc s
  | .start gondola engine index => Sys2Proof.Machine.execStart gondola engine index s
  | .winchAbort gondola engine record => Sys2Proof.Machine.execWinchAbort gondola engine record s
  | .descriptorStart engine => Sys2Proof.Machine.execDescriptorStart engine s
  | .elementTransfer engine record env => Sys2Proof.Machine.execElementTransfer engine record env s
  | .descriptorComplete engine record => Sys2Proof.Machine.execDescriptorComplete engine record s
  | .descriptorFail engine record => Sys2Proof.Machine.execDescriptorFail engine record s
  | .boardRead msg env => Sys2Proof.Machine.execBoardRead msg env s
  | .boardWrite msg env => Sys2Proof.Machine.execBoardWrite msg env s
  | .boardFetchAdd32 msg => Sys2Proof.Machine.execBoardFetchAdd32 msg s
  | .boardFetchAdd64 msg => Sys2Proof.Machine.execBoardFetchAdd64 msg s
  | .boardSwap msg => Sys2Proof.Machine.execBoardSwap msg s
  | .readData msg => Sys2Proof.Machine.execReadData msg s
  | .writeAcknowledge msg => Sys2Proof.Machine.execWriteAcknowledge msg s
  | .atomicResult msg => Sys2Proof.Machine.execAtomicResult msg s
  | .refresh unit multiple => Sys2Proof.Machine.execRefresh unit multiple s
  | .periodicRetraining => Sys2Proof.Machine.execPeriodicRetraining s
  | .memoryTrainingDone gddrOk lpOk densityOk rate => Sys2Proof.Machine.execMemoryTrainingDone gddrOk lpOk densityOk rate s
  | .trainingStart => Sys2Proof.Machine.execTrainingStart s
  | .jobStart ring tag host => Sys2Proof.Machine.execJobStart ring tag host s
  | .formationConfirmation job rank confirm => Sys2Proof.Machine.execFormationConfirmation job rank confirm s
  | .formationTimeout job => Sys2Proof.Machine.execFormationTimeout job s
  | .probeCheckTimeout job => Sys2Proof.Machine.execProbeCheckTimeout job s
  | .imageArrival job image => Sys2Proof.Machine.execImageArrival job image s
  | .loaderComplete job sigOk micros => Sys2Proof.Machine.execLoaderComplete job sigOk micros s
  | .jobEndDrain ring tag => Sys2Proof.Machine.execJobEndDrain ring tag s
  | .jobEndCancel ring tag => Sys2Proof.Machine.execJobEndCancel ring tag s
  | .jobResourceRelease job => Sys2Proof.Machine.execJobResourceRelease job s
  | .weightRegionRelease job => Sys2Proof.Machine.execWeightRegionRelease job s
  | .admitReq ring tag tokens => Sys2Proof.Machine.execAdmitReq ring tag tokens s
  | .append ring tag tokens => Sys2Proof.Machine.execAppend ring tag tokens s
  | .cancel ring tag => Sys2Proof.Machine.execCancel ring tag s
  | .trim ring tag => Sys2Proof.Machine.execTrim ring tag s
  | .setMaskNone ring tag => Sys2Proof.Machine.execSetMaskNone ring tag s
  | .setMaskAllowList ring tag tokens => Sys2Proof.Machine.execSetMaskAllowList ring tag tokens s
  | .setMaskAutomaton ring tag => Sys2Proof.Machine.execSetMaskAutomaton ring tag s
  | .loadAutomaton ring tag bytes => Sys2Proof.Machine.execLoadAutomaton ring tag bytes s
  | .catalogLoad ring tag digest => Sys2Proof.Machine.execCatalogLoad ring tag digest s
  | .catalogSwap ring tag => Sys2Proof.Machine.execCatalogSwap ring tag s
  | .catalogEvict ring tag => Sys2Proof.Machine.execCatalogEvict ring tag s
  | .step ring tag record => Sys2Proof.Machine.execStep ring tag record s
  | .stepStart job => Sys2Proof.Machine.execStepStart job s
  | .roundPlan ring tag => Sys2Proof.Machine.execRoundPlan ring tag s
  | .roundPlanForward job member layer group serial rounds => Sys2Proof.Machine.execRoundPlanForward job member layer group serial rounds s
  | .planRelease job layer group => Sys2Proof.Machine.execPlanRelease job layer group s
  | .countCompletion job layer group => Sys2Proof.Machine.execCountCompletion job layer group s
  | .stagingRecord job serial start groups rows table outcomes => Sys2Proof.Machine.execStagingRecord job serial start groups rows table outcomes s
  | .liftStart job wset recB => Sys2Proof.Machine.execLiftStart job wset recB s
  | .liftComplete job wset recB member gone => Sys2Proof.Machine.execLiftComplete job wset recB member gone s
  | .doneBeat job results digestBeats => Sys2Proof.Machine.execDoneBeat job results digestBeats s
  | .doneBeatMessage job rank beat flags => Sys2Proof.Machine.execDoneBeatMessage job rank beat flags s
  | .stepBoundary job => Sys2Proof.Machine.execStepBoundary job s
  | .stuckStep job => Sys2Proof.Machine.execStuckStep job s
  | .drainComplete comp => Sys2Proof.Machine.execDrainComplete comp s
  | .drainBeatMessage comp rank beat => Sys2Proof.Machine.execDrainBeatMessage comp rank beat s
  | .flip comp => Sys2Proof.Machine.execFlip comp s
  | .forcedReconfiguration comp => Sys2Proof.Machine.execForcedReconfiguration comp s
  | .signalDetected port => Sys2Proof.Machine.execSignalDetected port s
  | .lanesLocked port lanes flight residual rtt => Sys2Proof.Machine.execLanesLocked port lanes flight residual rtt s
  | .trainingTimeout port => Sys2Proof.Machine.execTrainingTimeout port s
  | .identity port frame fec => Sys2Proof.Machine.execIdentity port frame fec s
  | .lossOfSignal port => Sys2Proof.Machine.execLossOfSignal port s
  | .markerLoss port => Sys2Proof.Machine.execMarkerLoss port s
  | .heartbeatLoss port => Sys2Proof.Machine.execHeartbeatLoss port s
  | .resendLimit port => Sys2Proof.Machine.execResendLimit port s
  | .skewLimit port => Sys2Proof.Machine.execSkewLimit port s
  | .downRetry port => Sys2Proof.Machine.execDownRetry port s
  | .data port frame tagOk fec => Sys2Proof.Machine.execData port frame tagOk fec s
  | .idle port frame fec => Sys2Proof.Machine.execIdle port frame fec s
  | .marker port frame flight residual fec => Sys2Proof.Machine.execMarker port frame flight residual fec s
  | .heartbeatFrame port frame fec => Sys2Proof.Machine.execHeartbeatFrame port frame fec s
  | .probe port frame fec => Sys2Proof.Machine.execProbe port frame fec s
  | .badFrame port raw uncorrectable fec => Sys2Proof.Machine.execBadFrame port raw uncorrectable fec s
  | .probeSend job leg => Sys2Proof.Machine.execProbeSend job leg s
  | .legBroken job leg => Sys2Proof.Machine.execLegBroken job leg s
  | .laneChangeDone port lanes flight residual rtt => Sys2Proof.Machine.execLaneChangeDone port lanes flight residual rtt s
  | .tetherLanesLocked low high => Sys2Proof.Machine.execTetherLanesLocked low high s
  | .tetherTrainingTimeout => Sys2Proof.Machine.execTetherTrainingTimeout s
  | .tetherFrameLoss => Sys2Proof.Machine.execTetherFrameLoss s
  | .tetherDownRetry => Sys2Proof.Machine.execTetherDownRetry s
  | .sqtail ring value => Sys2Proof.Machine.execSqtail ring value s
  | .cqhead ring value => Sys2Proof.Machine.execCqhead ring value s
  | .aperture comp offset data => Sys2Proof.Machine.execAperture comp offset data s
  | .ringFetch => Sys2Proof.Machine.execRingFetch s
  | .rdata tag status data => Sys2Proof.Machine.execRdata tag status data s
  | .tetherReadTimeout tag => Sys2Proof.Machine.execTetherReadTimeout tag s
  | .completionWrite ring => Sys2Proof.Machine.execCompletionWrite ring s
  | .abort ring tag => Sys2Proof.Machine.execAbort ring tag s
  | .dictRead ring tag msg => Sys2Proof.Machine.execDictRead ring tag msg s
  | .dictWrite ring tag msg => Sys2Proof.Machine.execDictWrite ring tag msg s
  | .dictCommit ring tag msg => Sys2Proof.Machine.execDictCommit ring tag msg s
  | .hello msg => Sys2Proof.Machine.execHello msg s
  | .sessionOpen msg => Sys2Proof.Machine.execSessionOpen msg s
  | .sessionClose msg => Sys2Proof.Machine.execSessionClose msg s
  | .heartbeat msg => Sys2Proof.Machine.execHeartbeat msg s
  | .read msg => Sys2Proof.Machine.execRead msg s
  | .list msg => Sys2Proof.Machine.execList msg s
  | .segRead msg => Sys2Proof.Machine.execSegRead msg s
  | .write msg => Sys2Proof.Machine.execWrite msg s
  | .groupOpen msg => Sys2Proof.Machine.execGroupOpen msg s
  | .stage msg => Sys2Proof.Machine.execStage msg s
  | .segWrite msg => Sys2Proof.Machine.execSegWrite msg s
  | .groupAbort msg => Sys2Proof.Machine.execGroupAbort msg s
  | .commit msg => Sys2Proof.Machine.execCommit msg s
  | .groupCommit group => Sys2Proof.Machine.execGroupCommit group s
  | .groupIdleExpiry group => Sys2Proof.Machine.execGroupIdleExpiry group s
  | .sessionIdleTimeout session => Sys2Proof.Machine.execSessionIdleTimeout session s
  | .orphanTimeout => Sys2Proof.Machine.execOrphanTimeout s
  | .neighborSolicitation client net => Sys2Proof.Machine.execNeighborSolicitation client net s
  | .echoRequest client net data => Sys2Proof.Machine.execEchoRequest client net data s
  | .phyLinkUp => Sys2Proof.Machine.execPhyLinkUp s
  | .duplicateAddressDetection duplicate => Sys2Proof.Machine.execDuplicateAddressDetection duplicate s
  | .permitExpiry permit => Sys2Proof.Machine.execPermitExpiry permit s
  | .fuseWriteDone => Sys2Proof.Machine.execFuseWriteDone s
  | .tamperN => Sys2Proof.Machine.execTamperN s
  | .glitchSensor kind => Sys2Proof.Machine.execGlitchSensor kind s
  | .teardownWaitEnd comp => Sys2Proof.Machine.execTeardownWaitEnd comp s
  | .scrubDone comp badDevices badPackages => Sys2Proof.Machine.execScrubDone comp badDevices badPackages s
  | .vddCoreInTolerance => Sys2Proof.Machine.execVddCoreInTolerance s
  | .clockRelock => Sys2Proof.Machine.execClockRelock s
  | .gddr7RetrainingDone => Sys2Proof.Machine.execGddr7RetrainingDone s
  | .pmbusPoll core sram => Sys2Proof.Machine.execPmbusPoll core sram s
  | .pmbAlertN coreStatus sramStatus => Sys2Proof.Machine.execPmbAlertN coreStatus sramStatus s
  | .regulatorTimeout rail => Sys2Proof.Machine.execRegulatorTimeout rail s
  | .leaseExpiry => Sys2Proof.Machine.execLeaseExpiry s
  | .brakeNFall => Sys2Proof.Machine.execBrakeNFall s
  | .brakeNRise => Sys2Proof.Machine.execBrakeNRise s
  | .brakeReleaseDelay => Sys2Proof.Machine.execBrakeReleaseDelay s
  | .brakeHoldEnd => Sys2Proof.Machine.execBrakeHoldEnd s
  | .thermalTrip sensor => Sys2Proof.Machine.execThermalTrip sensor s
  | .enginesEmpty => Sys2Proof.Machine.execEnginesEmpty s
  | .mooredEntryAbandon => Sys2Proof.Machine.execMooredEntryAbandon s
  | .mooredEntryDone => Sys2Proof.Machine.execMooredEntryDone s
  | .mooredExitDone => Sys2Proof.Machine.execMooredExitDone s
  | .failStop cause unit addr detail => Sys2Proof.Machine.execFailStop cause unit addr detail s
  | .watchdog pilot unit => Sys2Proof.Machine.execWatchdog pilot unit s
  | .sliceFreeze job => Sys2Proof.Machine.execSliceFreeze job s
  | .rejoinComplete job committed => Sys2Proof.Machine.execRejoinComplete job committed s
  | .restoreComplete job => Sys2Proof.Machine.execRestoreComplete job s
  | .recoveryTimeout job => Sys2Proof.Machine.execRecoveryTimeout job s
  | .reProtection comp remoteDirty shards => Sys2Proof.Machine.execReProtection comp remoteDirty shards s
  | .rebuild comp stripe unprotected shards => Sys2Proof.Machine.execRebuild comp stripe unprotected shards s
  | .shadowDecode job slot page pageData tagOk => Sys2Proof.Machine.execShadowDecode job slot page pageData tagOk s
  | .porstNAsserted => Sys2Proof.Machine.execPorstNAsserted s
  | .porstNReleased => Sys2Proof.Machine.execPorstNReleased s
  | .sysrstNAsserted => Sys2Proof.Machine.execSysrstNAsserted s
  | .sysrstNReleased => Sys2Proof.Machine.execSysrstNReleased s
  | .powerLoss => Sys2Proof.Machine.execPowerLoss s
  | .railExcursion aon => Sys2Proof.Machine.execRailExcursion aon s
  | .bootRomDone flashOk capacity => Sys2Proof.Machine.execBootRomDone flashOk capacity s
  | .firmwareVerify sigOk => Sys2Proof.Machine.execFirmwareVerify sigOk s
  | .journalReplay phyOk => Sys2Proof.Machine.execJournalReplay phyOk s
  | .recoveryAnnounce => Sys2Proof.Machine.execRecoveryAnnounce s
  | .recoveryWrite client offset total data net => Sys2Proof.Machine.execRecoveryWrite client offset total data net s
  | .recoveryInstall client sigOk compareOk net => Sys2Proof.Machine.execRecoveryInstall client sigOk compareOk net s
  | .recoveryClaimLapse => Sys2Proof.Machine.execRecoveryClaimLapse s
  | .eraseDone => Sys2Proof.Machine.execEraseDone s
  | .programDone => Sys2Proof.Machine.execProgramDone s
  | .readBackDone equal => Sys2Proof.Machine.execReadBackDone equal s
  | .recordDurable ok => Sys2Proof.Machine.execRecordDurable ok s
  | .compactionCut => Sys2Proof.Machine.execCompactionCut s
  | .compactionDone => Sys2Proof.Machine.execCompactionDone s
  | .gustRunEnd => Sys2Proof.Machine.execGustRunEnd s
  | .simulatedFailStop => Sys2Proof.Machine.execSimulatedFailStop s
  | .sample comp => Sys2Proof.Machine.execSample comp s
  | .bypass => Sys2Proof.Machine.execBypass s
  | .idcode => Sys2Proof.Machine.execIdcode s
  | .samplePreload => Sys2Proof.Machine.execSamplePreload s
  | .extest => Sys2Proof.Machine.execExtest s
  | .clamp => Sys2Proof.Machine.execClamp s
  | .extestPulse => Sys2Proof.Machine.execExtestPulse s
  | .extestTrain => Sys2Proof.Machine.execExtestTrain s
  | .unlockExchange sigOk => Sys2Proof.Machine.execUnlockExchange sigOk s
  | .slot index => Sys2Proof.Machine.execSlot index s
  | .phyLinkDown => Sys2Proof.Machine.execPhyLinkDown s
  | .plcaBeaconLoss => Sys2Proof.Machine.execPlcaBeaconLoss s
  | .plcaBeaconSeen => Sys2Proof.Machine.execPlcaBeaconSeen s
  | .tamperCounterIncrement => Sys2Proof.Machine.execTamperCounterIncrement s

end Sys2Proof.Machine
end

