-- ==== Sys2Proof/Safety.lean ====
section
/-!
DEFINITION. What holds of every state the machine can be in: the fuses within what the chip has (R354, R356, R358), memory in its
canonical form (R57, R64, R153), the time base within its registers (R15, R17), nothing left to settle.
-/

namespace Sys2Proof.Machine

/-- The fuses are what the chip can hold: a lifecycle code of Table 11.5, at most 16 transition fuses (R354), at most 32 tamper fuses
(R356), four signer slots (R358). -/
def Fuses.wf (f : Fuses) : Bool :=
  decide (f.lifecycle ≤ 4) && decide (f.transitions ≤ 16) && decide (f.tamper ≤ 32) && decide (f.signers.length = 4)

/-- Fuses only ever go from unset to set (R354, R356, R357, R358): of f and a later g, none of f's has gone back. -/
def Fuses.grown (f g : Fuses) : Prop :=
  f.transitions ≤ g.transitions ∧ f.tamper ≤ g.tamper ∧ (f.lifecycle = 4 → g.lifecycle = 4) ∧
  (∀ n, f.uds = some n → g.uds = some n ∧ g.number = f.number) ∧ g.makerRoot = f.makerRoot ∧
  ∀ (i : Nat) (dig : List Byte) (st : Nat), f.signers[i]? = some (dig, st) → st ≠ 0 → ∃ st', g.signers[i]? = some (dig, st') ∧ st ≤ st'

/-- The time base's registers are within their range: BEATREF state 0 to 2 (0x2010:03), counters that stop at the top (R477), the 64-bit beat number
(R15). -/
def TimeBase.wf (t : TimeBase) : Bool := decide (t.ref ≤ 2) && decide (t.losses ≤ 2 ^ 32 - 1) && decide (t.mismatches ≤ 2 ^ 32 - 1) &&
  decide (t.beat ≤ 2 ^ 64 - 1)

/-- What a command may read besides the device. -/
def State.ctx (s : State) : Ctx := ⟨s.fuse, s.time, s.mem⟩

/-- The state with another device. -/
def State.withDev (s : State) (d : Dev) : State := { s with dev := d }

/-- The invariant of the machine. -/
def State.Inv (s : State) : Prop := s.fuse.wf = true ∧ s.time.wf = true ∧ s.mem.wf = true ∧ s.dev.effs = []

/-! ## Terms of the statements about a facet's program -/

/-- The facet, in the form statements use. -/
def State.facet (s : State) (n : Nat) : Facet := s.dev.facet n

/-- Facet n's program runs and is not stalled (R21, R79). -/
def ProgramRuns (s : State) (n : Nat) : Prop := s.dev.effs = [] ∧ s.dev.runs s.ctx n = true ∧ (s.facet n).stall = .none

/-- Facet n's bundle has issued or may issue, and its vector operation, whose code is o, is to be done from its first row (R56, R80). -/
def VectorReady (s : State) (n o : Nat) : Prop :=
  s.dev.effs = [] ∧ s.dev.mayVector s.ctx n = true ∧ vOpc (s.facet n).vop = o ∧ (s.facet n).vrow = 0 ∧ (s.facet n).vout = []

/-- Facet n's bundle has issued or may issue, and its control operation, whose code is o, is to be done (R80). -/
def ControlReady (s : State) (n o : Nat) : Prop :=
  s.dev.effs = [] ∧ s.dev.mayControl s.ctx n = true ∧ cOpc (s.facet n).cop = o

/-- Facet n's bundle has not issued, and neither its array nor its vector operation keeps it from that (R80). -/
def ControlDecides (s : State) (n o : Nat) : Prop :=
  ProgramRuns s n ∧ (s.facet n).issued = false ∧ (s.facet n).doneC = false ∧ cOpc (s.facet n).cop = o ∧
  (s.facet n).arrayStall = none ∧ (s.facet n).vectorStall = none

/-- A facet whose bundle has issued (R80). -/
def Facet.asIssued (f : Facet) : Facet := { f with issued := true }

/-- The device after one draw of the model's own free values. -/
def Dev.drawn (d : Dev) : Dev := { d with draws := d.draws + 1 }

/-- A facet whose bundle has issued, with other tile rows, v rows of the vector operation done. -/
def Facet.withRows (f : Facet) (T : Tab Row) (v : Nat) : Facet := { f with issued := true, tregs := T, vrow := v }

/-- A row operation whose destination and operands are tile registers: every row r of T[d] becomes g of the operands' rows r, row
by row; no other tile row, nothing else of the facet but the end of its vector operation, and nothing else of the machine but
the draw counter changes. g may use the operation word, the draw's number and the row's number. -/
def TileRowOp (mk : Nat → Instr) (o : Nat) (g : Nat → Nat → Nat → List Row → Row) : Prop :=
  ∀ (s : State) (n : Nat), VectorReady s n o → vD (s.facet n).vop < 8 → (∀ c ∈ vSources (s.facet n).vop, c < 8) →
    ∃ (t : State) (T : Tab Row), exec (mk n) s = .next t ∧
      t = s.withDev (s.dev.setFacet n ((s.facet n).withRows T (vRows (s.facet n).vop)).endV).drawn ∧
      (∀ r < vRows (s.facet n).vop, tgetD T (vD (s.facet n).vop * 16 + r) zeroRow =
        g (s.facet n).vop s.dev.draws r ((vSources (s.facet n).vop).map fun c => (s.facet n).trow c r)) ∧
      (∀ k, (k < vD (s.facet n).vop * 16 ∨ vD (s.facet n).vop * 16 + vRows (s.facet n).vop ≤ k) →
        tgetD T k zeroRow = tgetD (s.facet n).tregs k zeroRow)

/-! ## Terms of the statements about commands of a ring -/

/-- The command of a ring and TAG with entry e and opcode o is accepted and runs now (R295, R297, Table 9.5), in a device that is not
Moored. -/
def CommandReady (s : State) (r tag o e : Nat) : Prop :=
  s.dev.effs = [] ∧ s.dev.alive = true ∧ s.dev.state ≠ .moored ∧ s.dev.waiting r tag = some e ∧ eOpcode e = o

/-- The device after the command of a ring and TAG has begun to run. -/
def Dev.began (d : Dev) (r tag : Nat) : Dev := d.adjCmd r tag fun c => { c with started := true }

/-! ## Terms of the statements about losses and fail-stops -/

/-- Everything outside the always-on domain is lost in t (R401, Table 14.1): jobs have ended, requests, catalogs, images, legs, routes,
keys, key stores, descriptors and board requests are gone, rings are disabled with nothing accepted or posted, Gust is disarmed, every lane is
idle. -/
def State.lostAll (t : State) : Prop :=
  (∀ p ∈ t.dev.jobs, p.2.st = .ended) ∧ t.dev.reqs = [] ∧ t.dev.catalogs = [] ∧ t.dev.images = [] ∧ t.dev.legs = [] ∧ t.dev.routes = [] ∧
  (∀ p ∈ t.dev.keys, p.2 = ⟨5, 0, 0⟩) ∧ (∀ p ∈ t.dev.comps, p.2.store = [] ∧ p.2.linkSecret = none) ∧ t.dev.engines = [] ∧ t.dev.board = [] ∧
  t.dev.tether = Tether.reset ∧ t.dev.gust.armed = false ∧ (∀ p ∈ t.dev.ports, ∃ plan, p.2 = { Port.reset with plan := plan })

/-- Job j has ended in t with a status (Table 5.2): no step, no staging, no image on its way. -/
def State.JobEnded (t : State) (j status : Nat) : Prop :=
  ∃ b, tget t.dev.jobs j = some b ∧ b.st = .ended ∧ b.endStatus = status ∧ b.step = none ∧ b.staged = none ∧ b.released = false ∧
    tget t.dev.images j = none

/-- The device of t has restarted (R355, R435): no stop cause, its plan is checked anew, and it is Placed or Booting. -/
def State.restarted (t : State) : Prop :=
  t.dev.boot.stopCause = 0 ∧ t.dev.num 0x2000 7 = Config.planMismatch ∧ (t.dev.state = .placed ∨ t.dev.state = .booting)

/-- A fail-stop takes s to t (R401, R402): everything is lost, the device is Stopped with its tiers and secure memory empty and its facet
memories as they were, LP_RESET_N is low, the record of Table 13.3 is kept, journalled now or at the
next restart, and counted, and cause 9 is set if a job was not Ended. -/
def State.FailStopped (s t : State) (cause unit addr detail : Nat) : Prop :=
  let open_ := s.dev.jobsWhere fun b => decide (b.st ≠ .ended)
  let record := failRecord s.time.beat addr (open_.foldl (fun m j => m + 2 ^ j) 0) detail unit cause s.dev.state.code
  t.lostAll ∧ t.fuse = s.fuse ∧ t.time = s.time ∧ t.pending = s.pending ∧ t.dev.state = .stopped ∧ t.dev.boot.lpResetLow = true ∧ t.dev.boot.stopCause = cause ∧
  (open_ ≠ [] → t.dev.alerts.testBit 9 = true) ∧ t.dev.blob 0x1020 2 = leBytes 64 record ∧
  t.dev.num 0x1020 1 = min (2 ^ 32 - 1) (s.dev.num 0x1020 1 + 1) ∧ ((∃ r ∈ t.dev.journal.queue, r.pay = .failStop record) ∨ t.dev.boot.lateRecord = some record) ∧
  (∀ a, a < facetTop → t.mem.byte a = s.mem.byte a) ∧ (∀ a, regionOf a = .secure ∨ workBase ≤ a → t.mem.byte a = 0)

/-! ## Terms of the statements about rounds (chapter 6) -/

/-- From s to t the rounds of a layer and group of job j, whose routing record is r, are released (R228, R229): the plan is Released with
them, the plan word is in the RETURN facet's memory, nothing else of the memory changed, round flits 2 to rounds are on their way to RQ of the dispatch facet with
the last one marked, no other facet is touched, PLANCTR has advanced, and rounds and extra rounds are counted. -/
def State.RoundsReleased (s t : State) (j : Nat) (b : Job) (r : Nat) (st : StepRec) (layer group rounds : Nat) : Prop :=
  let disp := physFacet b.groups (rrDispatch r)
  let flit (i : Nat) : Nat × Flit := (rrRq r, ⟨roundWord st.serial layer group i rounds, mkSb true (s.facet disp).epoch (decide (i = rounds)) 0⟩)
  (∃ b' p, tget t.dev.jobs j = some b' ∧ b'.planOf layer group = some p ∧ p.st = .released ∧ p.serial = st.serial ∧ p.rounds = rounds ∧
    b' = { b with plans := b'.plans, step := some { st with extra := st.extra || decide (1 < rounds) } }) ∧
  t.mem = s.mem.write (facetAddr (physFacet b.groups (rrReturn r)) (rrPlan r)) (leBytes 8 (roundWord st.serial layer group 0 rounds)) ∧
  t.facet disp = { s.facet disp with arriving := (s.facet disp).arriving ++ (List.range' 2 (rounds - 1)).map flit } ∧
  (∀ n, n ≠ disp → t.facet n = s.facet n) ∧
  t.dev.sync = tset s.dev.sync (syncOf b.comp (rrPlanctr r)) (s.dev.syncCtr (syncOf b.comp (rrPlanctr r)) + 1) ∧
  t.dev.num (0x5440 + j) 1 = satAdd (2 ^ 64 - 1) (s.dev.num (0x5440 + j) 1) rounds ∧
  t.dev.num (0x5440 + j) 2 = satAdd (2 ^ 64 - 1) (s.dev.num (0x5440 + j) 2) (rounds - 1)

/-! ## Terms of the statements about the Object Access Protocol (chapter 10) -/

/-- The row of the management port for a request's operation (Table 10.6). -/
def portCmd (m : OapMsg) : Instr :=
  match m.op with
  | 0x01 => .hello m
  | 0x02 => .sessionOpen m
  | 0x03 => .sessionClose m
  | 0x04 => .heartbeat m
  | 0x11 => .list m
  | 0x12 => .segRead m
  | 0x20 => .write m
  | 0x21 => .groupOpen m
  | 0x22 => .stage m
  | 0x23 => .segWrite m
  | 0x24 => .groupAbort m
  | 0x30 => .commit m
  | _ => .read m

/-- The opcode of the DICT command that takes a request's operation (R311). -/
def dictOpcode (op : Nat) : Nat := if [0x01, 0x10, 0x11, 0x12].contains op then 0x40 else if op = 0x30 then 0x42 else 0x41

/-- That DICT command. -/
def dictCmd (ring tag : Nat) (m : OapMsg) : Instr :=
  if dictOpcode m.op = 0x40 then .dictRead ring tag (some m) else if dictOpcode m.op = 0x42 then .dictCommit ring tag (some m)
  else .dictWrite ring tag (some m)

/-- The device that serves a request: on the port it is counted, on Tether its DICT command has begun. -/
def Dev.brought (d : Dev) : Via → Dev
  | .port _ => d.count 0x1200 8 1
  | .ring r tag => d.began r tag

/-- cmd brings a well-formed request of Table 10.6 on either transport (R311, R328): on the port that is up, or as a DICT
command in its turn, whose entry is e. -/
def Brings (s : State) (m : OapMsg) (cmd : Instr) (e : Nat) : Prop :=
  s.dev.effs = [] ∧ m.lengthOk = true ∧ m.version = 1 ∧ opCodes.contains m.op = true ∧
  match m.via with
  | .port _ => cmd = portCmd m ∧ s.dev.portUp = true ∧ s.dev.boot.stage = .done ∧ netOk m.net = true ∧ m.net.waiting < 32
  | .ring ring tag => cmd = dictCmd ring tag m ∧ CommandReady s ring tag (dictOpcode m.op) e ∧ s.dev.dictTurn ring tag = true

/-- The request's session q accepts it (R332, R334): its transport and tag are right, its SEQ is new and above every other, its role may use the
operation here (R330, R348). -/
def Accepts (s : State) (m : OapMsg) (q : Session) : Prop :=
  tget s.dev.sessions m.session = some q ∧ sameVia q.via m.via = true ∧ m.tagOk = true ∧ q.high < m.seq ∧ (∀ p ∈ q.replies, p.1 ≠ m.seq) ∧
  (q.role = 2 → s.fuse.lifecycle ≠ 4) ∧ (match m.via with | .ring ring _ => q.role = 0 → q.mask.testBit (s.dev.ringComp ring) = true | .port _ => True)

/-- The session after it has accepted a request. -/
def Session.took (q : Session) (m : OapMsg) (round : Nat) : Session :=
  { q with high := m.seq, last := round, seen := (q.seen ++ [m.seq]).filter fun n => decide (m.seq < n + 64)
           replies := (q.replies ++ [(m.seq, none)]).drop ((q.replies ++ [(m.seq, (none : Option Reply))]).length - 16) }

/-- The device that serves an accepted request. -/
def State.served (s : State) (m : OapMsg) (q : Session) : Dev :=
  { s.dev.brought m.via with sessions := tset (s.dev.brought m.via).sessions m.session (q.took m (s.time.beat / Config.round)) }

/-- In t reply r to a request has left and is kept in its session for a repeat (R334): on the port, or in the reply buffer of the DICT command
with entry e, whose completion carries the status and the reply's length (R311). -/
def State.Replied (s t : State) (m : OapMsg) (e : Nat) (r : Reply) : Prop :=
  (∃ q, tget t.dev.sessions m.session = some q ∧ q.high = m.seq ∧ (m.seq, some r) ∈ q.replies) ∧
  match m.via with
  | .port _ => t.dev.out = s.dev.out ++ [.reply r] ∧ t.dev.tether = s.dev.tether
  | .ring ring tag => 48 + r.body.length ≤ efield e 32 4 → t.dev.out = s.dev.out ++ [.hostWrite (efield e 24 8) r.wire] ∧
    ∃ k, t.dev.tether.pend = s.dev.tether.pend ++ [k] ∧ k.tag = tag ∧ k.ring = ring ∧ k.status = r.status ∧ k.var = (48 + r.body.length) * 2 ^ 28

/-- Objects whose write stores a value and changes no other object: those for which Table 10.3 and the owning chapters name no such effect. -/
def plainObject (b s : Nat) : Bool :=
  !unstored b s && decide (b ≠ 0x1200) && !([(0x2100, 1), (0x2200, 0x15), (0x2410, 7), (0x3000, 1), (0x3100, 1), (0x3100, 3),
    (0x3100, 6), (0x3100, 7), (0x3400, 1), (0x4100, 7), (0x4100, 0x0A), (0x4100, 0x13), (0x4200, 2), (0x4200, 3), (0x4200, 4), (0x4200, 5), (0x4200, 6),
    (0x5340, 3), (0x6000, 2), (0x7010, 2)].contains (b, s))

/-- A group all of whose entries write such objects, none of type KEY (Table 10.1), and no placement (R265). -/
def Group.plain (g : Group) : Prop :=
  ∀ e ∈ g.entries, e.act = false ∧ e.sub < 256 ∧ e.index ≠ 0x2000 ∧ ∃ r, objRow e.index e.sub = some r ∧ r.ty ≠ 0x0B ∧ plainObject r.base e.sub = true

/-- Group n, which was g, has ended in t (R325, R326): its state, status and detail, its staged values gone, and if a COMMIT or WRITE asked for it the
reply waits for the journal's records. -/
def State.GroupEnded (t : State) (n : Nat) (g : Group) (st : GroupState) (status detail : Nat) (body : List Byte) : Prop :=
  (∃ g', tget t.dev.groups n = some g' ∧ g'.st = st ∧ g'.status = status ∧ g'.detail = detail ∧ g'.entries = []) ∧
  ∀ w, g.asker = some w → ∃ k, (k, (⟨w.via, w.session, w.seq, w.op, n, status, detail, false, true, body⟩ : Reply)) ∈ t.dev.heldReplies

end Sys2Proof.Machine
end

