-- ==== Sys2Proof/Certificates/Slice0/Obligations.lean ====
section
/-!
DEFINITION. The statements for the provers, by chapter of the manual.
-/

open Sys2Proof Sys2Proof.Machine

/-- A step takes the command at the front of the queue and runs it on the state with the rest (assumption 1). -/
def Obligations.StepRunsTheFrontCommand : Prop :=
  ∀ (c : Instr) (rest : List Instr) (s : State),
    step { s with pending := c :: rest } = exec c { s with pending := rest }

/-- On an empty queue the block idles (assumption 1).
No command reorders or adds to the queue: after a step it is the rest.
No command stops the block: in every state each one answers a next state (assumption 2). -/
def Obligations.TheQueueIsFirstInFirstOut : Prop :=
  (∀ s : State, s.pending = [] → step s = .next s) ∧
  (∀ (c : Instr) (rest : List Instr) (s t : State),
    step { s with pending := c :: rest } = .next t → t.pending = rest) ∧
  (∀ (c : Instr) (s : State), ∃ t, exec c s = .next t ∧ t.pending = s.pending)

/-- Every step keeps the invariant: fuses within what the chip has (R354, R356, R358), memory in its canonical form, the time base
within its registers (R15, R477), nothing left to settle. -/
def Obligations.EveryStepKeepsTheInvariant : Prop :=
  ∀ s t : State, s.Inv → step s = .next t → t.Inv

/-- The invariant holds right after reset. -/
def Obligations.ResetMeetsTheInvariant : Prop := State.reset.Inv

/-- No step unsets a fuse: the transition and tamper counts never fall, Scrapped stays, the UDS and the device number it gives stay, a
firmware signer's digest stays and its state only goes from installed to revoked. -/
def Obligations.NoStepUnsetsAFuse : Prop :=
  ∀ s t : State, step s = .next t → s.fuse.grown t.fuse

/-- Table 2.3, R52, R53, R54, R55: with tile registers as destination and operands, each row operation gives every row of d its
result from the same rows of its operands, and changes nothing else but the end of the operation and the draw counter (the draw is the
model's own: free lanes of BCAST, RMAXI and CVT take it, assumptions 20 and 28). -/
def Obligations.RowOperationsWriteTheirResultRows : Prop :=
  TileRowOp Instr.mov 0x01 (fun _ _ _ rs => rowAt rs 0) ∧
  TileRowOp Instr.add 0x02 (fun _ _ _ => rowMap2 f32Add) ∧
  TileRowOp Instr.sub 0x03 (fun _ _ _ => rowMap2 f32Sub) ∧
  TileRowOp Instr.mul 0x04 (fun _ _ _ => rowMap2 f32Mul) ∧
  TileRowOp Instr.fma 0x05 (fun _ _ _ => rowMap3 f32Fma) ∧
  TileRowOp Instr.max 0x06 (fun _ _ _ => rowMap2 f32Max) ∧
  TileRowOp Instr.min 0x07 (fun _ _ _ => rowMap2 f32Min) ∧
  TileRowOp Instr.scale 0x08 (fun w _ _ => rowMap fun a => f32Scale a (signed 12 (vImm w))) ∧
  TileRowOp Instr.bcast 0x09 (fun w k r rs =>
    ⟨List.replicate 64 (if vImm w < 64 then (rowAt rs 0).lane (vImm w) else freeLane k r), (rowAt rs 0).mask⟩) ∧
  TileRowOp Instr.exp2 0x0A (fun _ _ _ => rowMap f32Exp2) ∧
  TileRowOp Instr.rcp 0x0B (fun _ _ _ => rowMap f32Rcp) ∧
  TileRowOp Instr.rsqrt 0x0C (fun _ _ _ => rowMap f32Rsqrt) ∧
  TileRowOp Instr.rsum 0x0D (fun _ _ _ rs => ⟨List.replicate 64 (rowSum (rowAt rs 0)), (rowAt rs 0).mask⟩) ∧
  TileRowOp Instr.rmax 0x0E (fun _ _ _ rs => ⟨List.replicate 64 (rowMax (rowAt rs 0)), (rowAt rs 0).mask⟩) ∧
  TileRowOp Instr.rmaxi 0x0F (fun _ k r rs =>
    ⟨[(rowMaxIdx (rowAt rs 0)).1, BitVec.ofNat 32 (rowMaxIdx (rowAt rs 0)).2] ++
      (List.range 62).map fun i => freeLane k (r * 64 + 2 + i), (rowAt rs 0).mask⟩) ∧
  TileRowOp Instr.iadd 0x10 (fun _ _ _ => rowMap2 fun a b => a + b) ∧
  TileRowOp Instr.psum 0x11 (fun _ _ _ rs => rowPsum (rowAt rs 0)) ∧
  TileRowOp Instr.cvt 0x18 (fun w k r rs => rowCvt (vFn w) k r (rowAt rs 0))

/-- Table 2.3, TOP2, with tile registers, on a facet that no routing record names (on a router facet R219 also counts NaN scores). -/
def Obligations.Top2WritesTheTwoLargestOfEachGroup : Prop :=
  ∀ (s : State) (n : Nat), VectorReady s n 0x12 → vD (s.facet n).vop < 8 → vA (s.facet n).vop < 8 →
    s.dev.routedJob n 199 184 = none →
    ∃ (t : State) (T : Tab Row), exec (.top2 n) s = .next t ∧
      t = s.withDev (s.dev.setFacet n ((s.facet n).withRows T (vRows (s.facet n).vop)).endV).drawn ∧
      ∀ r < vRows (s.facet n).vop, ∀ g < 4,
        let a := (s.facet n).trow (vA (s.facet n).vop) r
        let group := (List.range 16).map fun i => (a.laneOr (16 * g + i) negInf, 16 * g + i)
        let first := bestOf group
        let second := bestOf (group.filter fun p => decide (p.2 ≠ first.2))
        let out : Row := tgetD T (vD (s.facet n).vop * 16 + r) zeroRow
        out.mask = a.mask ∧ out.lane (16 * g) = first.1 ∧ out.lane (16 * g + 1) = second.1 ∧
        out.lane (16 * g + 2) = BitVec.ofNat 32 first.2 ∧ out.lane (16 * g + 3) = BitVec.ofNat 32 second.2

/-- R56, R50, R52: the operand forms, shown by MOV of one row into a tile register: an input queue gives four flits in order, 16 lanes
each, all valid, and owes their credits; ACC gives the next drained row with its lane-valid mask; ZERO gives +0. -/
def Obligations.OperandFormsOfOneRow : Prop :=
  ∀ (s : State) (n : Nat), VectorReady s n 0x01 → vRows (s.facet n).vop = 1 → vD (s.facet n).vop < 8 →
    (∀ q, srcQueue (vA (s.facet n).vop) = some q → 4 ≤ ((s.facet n).iqOf q).length →
      tget (s.facet n).active.iq q = none →
      ∃ t, exec (.mov n) s = .next t ∧
        (t.facet n).trow (vD (s.facet n).vop) 0 = ⟨(((s.facet n).iqOf q).take 4).flatMap flitLanes, 2 ^ 64 - 1⟩ ∧
        (t.facet n).iqOf q = ((s.facet n).iqOf q).drop 4 ∧
        { t.dev with facets := s.dev.facets, draws := s.dev.draws } = s.dev ∧ t.mem = s.mem ∧ t.fuse = s.fuse ∧
        ∀ k, k ≠ n → t.facet k = s.facet k) ∧
    (vA (s.facet n).vop = 16 → (s.facet n).drainQ ≠ [] →
      ∃ t, exec (.mov n) s = .next t ∧
        (t.facet n).trow (vD (s.facet n).vop) 0 = ((s.facet n).popAcc).1 ∧
        { t.dev with facets := s.dev.facets, draws := s.dev.draws } = s.dev ∧ t.mem = s.mem ∧ t.fuse = s.fuse ∧
        ∀ k, k ≠ n → t.facet k = s.facet k) ∧
    (vA (s.facet n).vop = 0x11 →
      ∃ t, exec (.mov n) s = .next t ∧ (t.facet n).trow (vD (s.facet n).vop) 0 = zeroRow ∧
        { t.dev with facets := s.dev.facets, draws := s.dev.draws } = s.dev ∧ t.mem = s.mem ∧ t.fuse = s.fuse ∧
        ∀ k, k ≠ n → t.facet k = s.facet k)

/-- R77, R51, R76: a row written to an output queue with room for four flits and a credit is four flits in order with V = 1, the
facet's epoch, the circuit's stream, L on the last flit of the operation (assumption 26), +0 in masked lanes.
R80, R93: with no credit the bundle stalls, nothing of it is done, and the first such stall of a bundle is counted; the same from an
input queue that holds fewer than four flits: no flit moves. A bundle that has issued stalls there between its rows.
R65: a facet that has read POISON leaves no flits. -/
def Obligations.QueuesStallOrTakeWholeRows : Prop :=
  ∀ (s : State) (n q : Nat), q < 8 → vOpc (s.facet n).vop = 0x01 → vRows (s.facet n).vop = 1 → (s.facet n).vrow = 0 →
    (s.facet n).vout = [] →
    (VectorReady s n 0x01 → vA (s.facet n).vop < 8 → vD (s.facet n).vop = 8 + q →
      ∀ b, tget (s.facet n).active.oq q = some b →
      let flits : List Flit := (List.range 4).map fun i =>
        ⟨lanesPay ((List.range 16).map fun j => ((s.facet n).trow (vA (s.facet n).vop) 0).laneOr (16 * i + j) 0),
          mkSb true (s.facet n).epoch (decide (i = 3)) b.stream⟩
      (((s.facet n).oqOf q).length + 4 ≤ min b.oqlim 64 → 0 < (s.facet n).credit q → (s.facet n).poisonSeen = false →
        ∃ t, exec (.mov n) s = .next t ∧ (t.facet n).oqOf q = (s.facet n).oqOf q ++ flits ∧
          { t.dev with facets := s.dev.facets, draws := s.dev.draws } = s.dev ∧ t.mem = s.mem ∧ t.fuse = s.fuse ∧
          ∀ k, k ≠ n → t.facet k = s.facet k) ∧
      ((s.facet n).poisonSeen = true →
        ∃ t, exec (.mov n) s = .next t ∧ (t.facet n).oqOf q = (s.facet n).oqOf q ∧ (t.facet n).doneV = (s.facet n).asIssued.endV.doneV ∧
          { t.dev with facets := s.dev.facets, draws := s.dev.draws } = s.dev ∧ t.mem = s.mem)) ∧
    (ProgramRuns s n → (s.facet n).doneV = false → (s.facet n).arrayStall = none → vD (s.facet n).vop = 8 + q →
      (s.facet n).poisonSeen = false → (s.facet n).credit q = 0 →
      ∃ t, exec (.mov n) s = .next t ∧
        t.facet n = { s.facet n with
          stall := .oqFull q, counted := true
          cstall := if (s.facet n).counted = true then (s.facet n).cstall
            else tset (s.facet n).cstall q (satAdd (2 ^ 32 - 1) (tgetD (s.facet n).cstall q 0) 1) } ∧
        { t.dev with facets := s.dev.facets, draws := s.dev.draws, objs := s.dev.objs } = s.dev ∧
        ((s.facet n).counted = true → t.dev.objs = s.dev.objs) ∧ t.mem = s.mem ∧ ∀ k, k ≠ n → t.facet k = s.facet k) ∧
    (ProgramRuns s n → (s.facet n).doneV = false → (s.facet n).arrayStall = none → vD (s.facet n).vop < 8 →
      srcQueue (vA (s.facet n).vop) = some q → ((s.facet n).iqOf q).length < 4 →
      let stalled := s.dev.setFacet n { s.facet n with stall := .iqEmpty q }
      exec (.mov n) s = .next (s.withDev (if (s.facet n).issued = true then stalled.drawn else stalled)))

/-- R68: what any number of addends up to the loader's bound leave in a lane that starts at 0 with its flags clear depends on the
multiset of addends alone, and the sum never saturates; the loader accepts no window whose bound is larger; a sum that would leave the 96-bit
range leaves the lane at the end of the range with OVF set. Each addend is rounded and clamped on its own. -/
def Obligations.ExactAddDependsOnTheMultisetAlone : Prop :=
  (∀ (F : Int) (b C : Nat) (xs ys : List Lane), C * 2 ^ b ≤ 2 ^ 95 → xs.length ≤ C → xs.Perm ys →
    xs.foldl (fun l x => (laneAdd F b l x).1) 0 = ys.foldl (fun l x => (laneAdd F b l x).1) 0 ∧
    (laneFlags (xs.foldl (fun l x => (laneAdd F b l x).1) 0)).testBit 2 = false) ∧
  (∀ (progs : List Prog) (ews : List Nat), windowsOk progs ews = true → ∀ e ∈ ews, bits (ewWindow e) 127 96 * 2 ^ winB (ewWindow e) ≤ 2 ^ 95) ∧
  (∀ (F : Int) (b l : Nat) (x : Lane) (a : Int) (clamped : Bool), addend F b x = some (a, clamped) →
    let sum := signed 96 (bits l 95 0) + a
    let after := (laneAdd F b l x).1
    ((2 : Int) ^ 95 ≤ sum → signed 96 (bits after 95 0) = 2 ^ 95 - 1 ∧ (laneFlags after).testBit 2 = true) ∧
    (sum < -(2 : Int) ^ 95 → signed 96 (bits after 95 0) = -2 ^ 95 ∧ (laneFlags after).testBit 2 = true) ∧
    (-(2 : Int) ^ 95 ≤ sum → sum < (2 : Int) ^ 95 → signed 96 (bits after 95 0) = sum))

/-- R67, R69, R70, R51: on a window that lies in facet memory and whose words are neither POISON nor in error, XADD of one row of a tile
register adds every valid lane's value into its window lane and ORs the flags raised into the window's summary; XRD of one row gives each
lane as FP32, valid inside the window, and the OR of the lanes' flags; XCLR leaves 0 with its flags clear in every lane of its rows
inside the window. No other byte of memory changes, XRD none at all.
R73, R74: a group that stands whole at the head of its queue, header and one data flit: a group of another serial is discarded and
counted as stale; one for a discard window is consumed and counted there; one that fits its window is added lane by lane from
OFFSET on, COUNT addends, and counts one arrival. Both flits go in each case. -/
def Obligations.ExactAddWindowsAndGroups : Prop :=
  (∀ (s : State) (n : Nat) (w first : Nat),
    w = (s.facet n).active.prog.windows.getD (vFn (s.facet n).vop) 0 → first = (s.facet n).firstLane (s.facet n).vop →
    s.mem.wf = true → winBase w % 128 = 0 → winBase w + 16 * winLanes w ≤ 0x80000 →
    (∀ i < winLanes w, lanePoison s.mem n w i = false) →
    (∀ i < winLanes w, tget s.mem.flips (laneAddr n w i / 8) = none ∧ tget s.mem.flips (laneAddr n w i / 8 + 1) = none) →
    (VectorReady s n 0x1C → vRows (s.facet n).vop = 1 → vA (s.facet n).vop < 8 → winDiscard w = false →
      ∃ t, exec (.xadd n) s = .next t ∧
        (∀ i < winLanes w, laneBits t.mem n w i =
          if first ≤ i ∧ i < first + 64 ∧ ((s.facet n).trow (vA (s.facet n).vop) 0).ok (i - first) = true then
            (laneAdd (winF w) (winB w) (laneBits s.mem n w i) (((s.facet n).trow (vA (s.facet n).vop) 0).lane (i - first))).1
          else laneBits s.mem n w i) ∧
        (∀ a, a < facetAddr n (winBase w) ∨ facetAddr n (winBase w) + 16 * winLanes w ≤ a → t.mem.byte a = s.mem.byte a) ∧
        ((t.facet n).win (vFn (s.facet n).vop)).flags = (List.range 64).foldl (fun fl i =>
          if ((s.facet n).trow (vA (s.facet n).vop) 0).ok i = true ∧ first + i < winLanes w then
            Nat.lor fl (laneAdd (winF w) (winB w) (laneBits s.mem n w (first + i)) (((s.facet n).trow (vA (s.facet n).vop) 0).lane i)).2
          else fl) ((s.facet n).win (vFn (s.facet n).vop)).flags ∧
        (t.facet n).tregs = (s.facet n).tregs ∧ { t.dev with facets := s.dev.facets } = s.dev ∧ t.fuse = s.fuse ∧
        ∀ k, k ≠ n → t.facet k = s.facet k) ∧
    (VectorReady s n 0x1D → vRows (s.facet n).vop = 1 → vD (s.facet n).vop < 8 → first + 64 ≤ winLanes w →
      ∃ t, exec (.xrd n) s = .next t ∧
        (∀ i < 64, ((t.facet n).trow (vD (s.facet n).vop) 0).lane i = laneValue (winF w) (laneBits s.mem n w (first + i)) ∧
          ((t.facet n).trow (vD (s.facet n).vop) 0).ok i = true) ∧
        (t.facet n).vflags = (List.range 64).foldl (fun fl i => Nat.lor fl (laneFlags (laneBits s.mem n w (first + i)))) 0 ∧
        t.mem = s.mem ∧ { t.dev with facets := s.dev.facets, draws := s.dev.draws } = s.dev ∧ t.fuse = s.fuse ∧
        ∀ k, k ≠ n → t.facet k = s.facet k) ∧
    (VectorReady s n 0x1E →
      ∃ t, exec (.xclr n) s = .next t ∧
        (∀ i < winLanes w, laneBits t.mem n w i =
          if first ≤ i ∧ i < first + 64 * vRows (s.facet n).vop then 0 else laneBits s.mem n w i) ∧
        (∀ a, a < facetAddr n (winBase w) ∨ facetAddr n (winBase w) + 16 * winLanes w ≤ a → t.mem.byte a = s.mem.byte a) ∧
        t.dev = s.dev.setFacet n (s.facet n).asIssued.endV ∧ t.fuse = s.fuse)) ∧
  (∀ (s : State) (n q : Nat) (h t : Flit) (rest : List Flit),
    let f := s.facet n
    let hd := h.pay
    let wn := grpWin hd
    let w := f.active.prog.windows.getD wn 0
    s.dev.effs = [] → s.dev.alive = true → f.powered = true → f.active.valid = true → f.held = false → f.frozen = false → q < 8 →
    f.iqOf q = h :: t :: rest → flitL h = false → flitL t = true → tget f.grps q = none → tget f.active.iq q = none →
    s.dev.facetJob n = none →
    (grpSerial hd ≠ (f.win wn).serial →
      ∃ u, exec (.exactAddGroup n q) s = .next u ∧ (u.facet n).iqOf q = rest ∧
        (u.facet n).staleGrp = satAdd (2 ^ 32 - 1) f.staleGrp 1 ∧ u.mem = s.mem ∧
        { u.facet n with iq := f.iq, grps := f.grps, staleGrp := f.staleGrp } = f ∧
        { u.dev with facets := s.dev.facets } = s.dev) ∧
    (grpSerial hd = (f.win wn).serial → grpOp hd = 1 → grpOffset hd + grpCount hd ≤ winLanes w → grpOffset hd % 8 = 0 →
      winDiscard w = true →
      ∃ u, exec (.exactAddGroup n q) s = .next u ∧ (u.facet n).iqOf q = rest ∧
        (u.facet n).discGrp = satAdd (2 ^ 32 - 1) f.discGrp 1 ∧ u.mem = s.mem ∧
        { u.facet n with iq := f.iq, grps := f.grps, discGrp := f.discGrp } = f ∧
        { u.dev with facets := s.dev.facets } = s.dev) ∧
    (grpSerial hd = (f.win wn).serial → grpOp hd = 1 → grpOffset hd + grpCount hd ≤ winLanes w → grpOffset hd % 8 = 0 →
      grpCount hd ≤ 16 → winDiscard w = false → s.mem.wf = true → winBase w % 128 = 0 → winBase w + 16 * winLanes w ≤ 0x80000 →
      (∀ i < winLanes w, lanePoison s.mem n w i = false) →
      (∀ i < winLanes w, tget s.mem.flips (laneAddr n w i / 8) = none ∧ tget s.mem.flips (laneAddr n w i / 8 + 1) = none) →
      ∃ u, exec (.exactAddGroup n q) s = .next u ∧ (u.facet n).iqOf q = rest ∧
        (∀ i < winLanes w, laneBits u.mem n w i =
          if grpOffset hd ≤ i ∧ i < grpOffset hd + grpCount hd then
            (laneAdd (winF w) (winB w) (laneBits s.mem n w i) ((flitLanes t).getD (i - grpOffset hd) 0)).1
          else laneBits s.mem n w i) ∧
        (∀ a, a < facetAddr n (winBase w) ∨ facetAddr n (winBase w) + 16 * winLanes w ≤ a → u.mem.byte a = s.mem.byte a) ∧
        ((u.facet n).win wn).arrivals = satAdd (2 ^ 32 - 1) (f.win wn).arrivals 1 ∧
        { u.facet n with iq := f.iq, grps := f.grps, wins := f.wins } = f ∧ { u.dev with facets := s.dev.facets } = s.dev))

/-- Table 2.14, R80, R81: NOP ends its unit's operation; SADDI writes S[a] plus the signed immediate modulo 2^64; LOOP counts S[a] down
and branches while it is not 0; END ends the iteration with the bundle; SSIG adds S[a] to a sync counter. The bundle has issued with it.
Nothing else changes. -/
def Obligations.ScalarControlOperations : Prop :=
  ∀ (s : State) (n : Nat),
    let f := s.facet n
    let w := f.cop
    (s.dev.effs = [] → s.dev.mayArray s.ctx n = true → bits f.aop 31 28 = 0 →
      exec (.nop n .array) s = .next (s.withDev (s.dev.setFacet n f.asIssued.endA))) ∧
    (s.dev.effs = [] → s.dev.mayVector s.ctx n = true → vOpc f.vop = 0 →
      exec (.nop n .vector) s = .next (s.withDev (s.dev.setFacet n f.asIssued.endV))) ∧
    (ControlReady s n 0x00 → exec (.nop n .control) s = .next (s.withDev (s.dev.setFacet n f.asIssued.endC))) ∧
    (ControlReady s n 0x03 → ∃ v : Nat, v < 2 ^ 64 ∧
      ((v : Int) - ((f.sreg (cA w) : Nat) + signed 14 (cImm w))) % (2 ^ 64 : Nat) = 0 ∧
      exec (.saddi n) s = .next (s.withDev (s.dev.setFacet n (f.asIssued.setSreg (cD w) v).endC))) ∧
    (ControlReady s n 0x04 → f.sreg (cA w) = 0 → exec (.loop n) s = .next (s.withDev (s.dev.setFacet n f.asIssued.endC))) ∧
    (ControlReady s n 0x04 → f.sreg (cA w) ≠ 0 → exec (.loop n) s =
      .next (s.withDev (s.dev.setFacet n { f.asIssued.setSreg (cA w) (f.sreg (cA w) - 1) with next := bits (cImm w) 10 0 }.endC))) ∧
    (ControlReady s n 0x05 → exec (.endIteration n) s = .next (s.withDev (s.dev.setFacet n { f.asIssued with ended := true }.endC))) ∧
    (ControlReady s n 0x07 → exec (.ssig n) s =
      .next (s.withDev ((s.dev.addSync (bits (cImm w) 12 0) (f.sreg (cA w))).setFacet n f.asIssued.endC)))

/-- R79, R80, R65: when the last of a bundle's three operations ends, the facet goes to its next bundle; after END the iteration is over,
and the facet halts if it has read POISON. -/
def Obligations.BundleEndsWithItsThirdOperation : Prop :=
  ∀ f : Facet, f.doneA = true → f.doneV = true →
    (f.ended = false → f.endC = { f with doneA := false, doneV := false, doneC := false, issued := false, counted := false, vrow := 0,
                                         sIssue := f.s, pc := f.next, next := f.next + 1 }) ∧
    (f.ended = true → f.endC.pc = 0 ∧ f.endC.iter = f.iter + 1 ∧ f.endC.ended = false ∧
      f.endC.run = if f.poisonSeen then .halted else .idle) ∧
    (f.doneC = false → f.ended = false → { f with doneA := false }.endC = { f with doneA := false, doneC := true })

/-- Table 2.14, R21, R80: in a bundle that nothing else keeps from its issue, SWAIT, WAITL and WAITW issue it when their condition holds; while
it does not hold the bundle stalls with all three of its operations, whichever of them is tried, and nothing moves. A bundle that has
issued meets no condition again. STALL_RELEASE ends the stall once the condition holds, and leaves the facet alone while it does not. -/
def Obligations.WaitsStallUntilTheirCondition : Prop :=
  ∀ (s : State) (n : Nat),
    let f := s.facet n
    let w := f.cop
    let signalled := f.sreg (cA w) ≤ s.dev.syncCtr (bits (cImm w) 12 0)
    let grouped := ∃ t ∈ f.iqOf (bits (cImm w) 2 0), flitL t = true ∧ flitStream t = f.sreg (cA w)
    let arrived := (f.win (bits (cImm w) 3 0)).expect ≤ (f.win (bits (cImm w) 3 0)).arrivals
    let goesOn := s.withDev (s.dev.setFacet n f.asIssued.endC)
    let stalls := fun (r : Stall) => s.withDev (s.dev.setFacet n { f with stall := r })
    (ControlDecides s n 0x06 → signalled → exec (.swait n) s = .next goesOn) ∧
    (ControlDecides s n 0x06 → ¬ signalled → exec (.swait n) s = .next (stalls .sync)) ∧
    (ControlDecides s n 0x06 → ¬ signalled → f.doneV = false → vOpc f.vop = 0x01 → exec (.mov n) s = .next (stalls .sync)) ∧
    (ControlDecides s n 0x0A → grouped → exec (.waitl n) s = .next goesOn) ∧
    (ControlDecides s n 0x0A → ¬ grouped → exec (.waitl n) s = .next (stalls .waitl)) ∧
    (ControlDecides s n 0x0B → arrived → exec (.waitw n) s = .next goesOn) ∧
    (ControlDecides s n 0x0B → ¬ arrived → exec (.waitw n) s = .next (stalls .waitw)) ∧
    (f.issued = true → (ControlReady s n 0x06 → exec (.swait n) s = .next goesOn) ∧ (ControlReady s n 0x0A → exec (.waitl n) s = .next goesOn) ∧
      (ControlReady s n 0x0B → exec (.waitw n) s = .next goesOn)) ∧
    (s.dev.effs = [] → s.dev.runs s.ctx n = true → f.stall = .sync → signalled → exec (.stallRelease n) s = .next (stalls .none)) ∧
    (s.dev.effs = [] → s.dev.runs s.ctx n = true → f.stall = .sync → ¬ signalled → exec (.stallRelease n) s = .next s) ∧
    (s.dev.effs = [] → s.dev.runs s.ctx n = true → f.stall = .waitl → grouped → exec (.stallRelease n) s = .next (stalls .none)) ∧
    (s.dev.effs = [] → s.dev.runs s.ctx n = true → f.stall = .waitw → arrived → exec (.stallRelease n) s = .next (stalls .none)) ∧
    (s.dev.effs = [] → s.dev.runs s.ctx n = true → ∀ q, f.stall = .iqEmpty q →
      4 * ((vSources f.vop).filter fun c => decide (c = q + 8)).length ≤ (f.iqOf q).length →
      exec (.stallRelease n) s = .next (stalls .none)) ∧
    (s.dev.effs = [] → s.dev.runs s.ctx n = true → ∀ q, f.stall = .oqFull q → f.oqRoom q = true →
      exec (.stallRelease n) s = .next (stalls .none))

/-- Table 2.14, R57, R63, R65, R66: on words that are neither POISON nor in error, LD fills rows of a tile register with 256 bytes of
facet memory each, every lane valid; ST of full rows writes them there and nothing else; FADD32 and FADD64 leave the wrapped sum in the
word, the old value in S[d], and every other byte as it was. -/
def Obligations.ProgramMemoryAccess : Prop :=
  ∀ (s : State) (n : Nat), s.mem.wf = true →
    let f := s.facet n
    let w := f.cop
    let a := lineAddr (f.sreg (cA w))
    let cnt := bits (cImm w) 13 10 + 1
    let start := bits (cImm w) 9 6
    (∀ (sz : Nat) (c : Instr), (sz = 4 ∧ c = .fadd32 n ∧ ControlReady s n 0x08) ∨ (sz = 8 ∧ c = .fadd64 n ∧ ControlReady s n 0x09) →
      let p := facetAddr n (f.sreg (cA w) / sz * sz)
      tget s.mem.flips (p / 8) = none → s.mem.poisoned (8 * (p / 8)) = false →
      ∃ t, exec c s = .next t ∧
        leNat (t.mem.bytes p sz) = (leNat (s.mem.bytes p sz) + f.sreg (cB w)) % 2 ^ (8 * sz) ∧
        (∀ b, b < p ∨ p + sz ≤ b → t.mem.byte b = s.mem.byte b) ∧
        t.dev = s.dev.setFacet n (f.asIssued.setSreg (cD w) (leNat (s.mem.bytes p sz))).endC ∧ t.fuse = s.fuse) ∧
    (ControlReady s n 0x01 → a + 256 * cnt ≤ 0x80000 →
      (∀ k ∈ facetWords n a (256 * cnt), tget s.mem.flips k = none ∧ s.mem.poisoned (8 * k) = false) → start + cnt ≤ 16 →
      ∃ t, exec (.ld n) s = .next t ∧
        (∀ i < cnt, (t.facet n).trow (cD w % 8) (start + i) = bytesRow (s.mem.bytes (n * 0x80000 + a + 256 * i) 256)) ∧
        (∀ k, (k < cD w % 8 * 16 + start ∨ cD w % 8 * 16 + start + cnt ≤ k) →
          tgetD (t.facet n).tregs k zeroRow = tgetD f.tregs k zeroRow) ∧
        t.mem = s.mem ∧ { t.dev with facets := s.dev.facets } = s.dev ∧ t.fuse = s.fuse ∧ ∀ k, k ≠ n → t.facet k = s.facet k) ∧
    (ControlReady s n 0x02 → a + 256 * cnt ≤ 0x80000 → start + cnt ≤ 16 →
      (∀ i < cnt, (f.trow (cD w % 8) (start + i)).mask = 2 ^ 64 - 1) →
      ∃ t, exec (.st n) s = .next t ∧
        (∀ i < cnt, ∀ j < 64, t.mem.bytes (n * 0x80000 + a + 256 * i + 4 * j) 4 =
          leBytes 4 ((f.trow (cD w % 8) (start + i)).lane j).toNat) ∧
        (∀ b, b < n * 0x80000 + a ∨ n * 0x80000 + a + 256 * cnt ≤ b → t.mem.byte b = s.mem.byte b) ∧
        t.dev = s.dev.setFacet n f.asIssued.endC ∧ t.fuse = s.fuse)

/-- R44, R47, R82: on a tile of one pass whose operands lie in clean facet memory, ISSUE stalls the bundle while the tile's bank waits to be
drained; otherwise the pass starts with its operands' bytes, the bank changes over after DRN, the tile's issue count advances the
addresses of its next issue, and the array operation ends. Nothing else changes.
R41, R46, R50: a pass that has all its operands and whose bank is free completes: every unmasked cell holds its blocks added in ascending
K onto its start value (its old value with ACC, else +0), a masked cell +0; with DRN the bank waits to be drained behind those that
wait already. Nothing else changes. -/
def Obligations.PassesStartAndFillTheirBank : Prop :=
  (∀ (s : State) (n : Nat),
    let f := s.facet n
    let i := bits f.aop 27 22
    let w := f.active.prog.tiles.getD i 0
    let c := tgetD f.tileIssues i 0
    let a := stepAddr (tcAaddr w) (tcAstep w) c
    let b := stepAddr (tcBaddr w) (tcBstep w) c
    let bytes := fun (k len : Nat) => (List.range len).map fun j => s.mem.byte (facetAddr n (k + j))
    bits f.aop 31 28 = 1 → passes (tcShape w) = 1 →
    (ProgramRuns s n → f.issued = false → f.doneA = false → f.bankBusy f.curBank = true →
      exec (.issue n) s = .next (s.withDev (s.dev.setFacet n { f with stall := .bank f.curBank }))) ∧
    (s.dev.effs = [] → s.dev.mayArray s.ctx n = true → f.passes = [] → tcAsrc w = false → tcBsrc w = false →
      (∀ k ∈ facetWords n a (aBytes w) ++ facetWords n b (bBytes w), tget s.mem.flips k = none ∧ s.mem.poisoned (8 * k) = false) →
      exec (.issue n) s = .next (s.withDev (s.dev.setFacet n
        { f with issued := true
                 passes := [⟨f.curBank, w, ⟨bytes a (aBytes w), aBytes w, none, false, false⟩,
                             ⟨bytes b (bBytes w), bBytes w, none, false, false⟩, passRowMask f w 0, passColMask f w⟩]
                 curBank := if tcDrn w then 1 - f.curBank % 2 else f.curBank
                 tileIssues := tset f.tileIssues i (c + 1) }.endA)))) ∧
  (∀ (s : State) (n : Nat) (p : Pass),
    let f := s.facet n
    let old := f.bank p.bank
    s.dev.effs = [] → s.dev.executes s.ctx = true → f.powered = true → f.held = false → f.frozen = false →
    f.passes = [p] → p.a.full = true → p.b.full = true → p.a.queue = none → p.b.queue = none → p.bank < 2 → old.st = .free →
    ∃ t, exec (.passComplete n p.bank) s = .next t ∧
      (∀ i < 16, ∀ j < 64, (((t.facet n).bank p.bank).acc.getD i []).getD j 0 =
        if p.rowMask.testBit i = true ∧ p.colMask.testBit j = true then
          (List.range (kBlocks (tcShape p.cmd))).foldl (fun acc kb => cellBlock (tcAfmt p.cmd) (tcBfmt p.cmd) acc
            (operandBlock (tcAfmt p.cmd) 16 (p.a.have_.take p.a.need) kb i) (operandBlock (tcBfmt p.cmd) 64 (p.b.have_.take p.b.need) kb j))
            (if tcAcc p.cmd then (old.acc.getD i []).getD j 0 else 0)
        else 0) ∧
      ((t.facet n).bank p.bank).st = (if tcDrn p.cmd then .ready else .free) ∧
      (t.facet n).drainQ = f.drainQ ++ (if tcDrn p.cmd then [p.bank] else []) ∧ (t.facet n).passes = [] ∧
      (t.facet n).bank (1 - p.bank) = f.bank (1 - p.bank) ∧
      { t.facet n with bank0 := f.bank0, bank1 := f.bank1, drainQ := f.drainQ, passes := f.passes } = f ∧
      { t.dev with facets := s.dev.facets } = s.dev ∧ t.mem = s.mem ∧ t.fuse = s.fuse ∧ ∀ k, k ≠ n → t.facet k = s.facet k)

/-- R79: an idle facet whose next iteration is due starts it at bundle 0; one whose next iteration is not due yet stays idle. -/
def Obligations.IterationsStartWhenDue : Prop :=
  ∀ (s : State) (n c : Nat),
    let f := s.facet n
    s.dev.effs = [] → s.dev.executes s.ctx = true → f.powered = true → f.run = .idle → f.started = true → f.active.valid = true →
    f.held = false → f.frozen = false → s.dev.facetComp n = some c → (s.dev.canopyOf c).st ≠ .flipping →
    (f.iter ≤ s.dev.nominal f → exec (.iterationStart n) s = .next (s.withDev (s.dev.setFacet n
      { f with run := .running, pc := 0, next := 1, doneA := false, doneV := false, doneC := false, issued := false, counted := false
               vrow := 0, ended := false, stall := .none, sIssue := f.s }))) ∧
    (s.dev.nominal f < f.iter → exec (.iterationStart n) s = .next s)

/-- R76, R77, R91: the oldest flit on its way to a facet that awaits no operand: a bubble (V = 0) is dropped, a flit of the other epoch is
discarded and counted, any other enters its queue behind those there, and waits while the queue holds 64. A credit on its way
reaches its counter. Nothing else changes. -/
def Obligations.FlitsAndCreditsArrive : Prop :=
  ∀ (s : State) (n : Nat),
    let f := s.facet n
    s.dev.effs = [] → s.dev.executes s.ctx = true → f.powered = true → f.held = false → f.frozen = false →
    (∀ (q : Nat) (t : Flit) (rest : List (Nat × Flit)), f.arriving = (q, t) :: rest →
      (flitV t = false → exec (.flitArrival n) s = .next (s.withDev (s.dev.setFacet n { f with arriving := rest }))) ∧
      (flitV t = true → flitE t ≠ f.epoch → s.dev.facetJob n = none →
        exec (.flitArrival n) s = .next (s.withDev (s.dev.setFacet n
          { f with arriving := rest, epochDisc := satAdd (2 ^ 32 - 1) f.epochDisc 1 }))) ∧
      (flitV t = true → flitE t = f.epoch → f.passes = [] → (f.iqOf q).length < 64 →
        exec (.flitArrival n) s = .next (s.withDev (s.dev.setFacet n
          { f with arriving := rest, iq := tset f.iq q (f.iqOf q ++ [t]) }))) ∧
      (flitV t = true → flitE t = f.epoch → 64 ≤ (f.iqOf q).length → exec (.flitArrival n) s = .next s)) ∧
    (∀ q, 0 < tgetD f.creditFly q 0 → exec (.creditReturn n q) s = .next (s.withDev (s.dev.setFacet n
      { f with creditFly := tset f.creditFly q (tgetD f.creditFly q 0 - 1), credits := tset f.credits q (f.credit q + 1) })))

/-- R22, R87, R88, R89, R91, R267: in a slot of an executed beat, an enabled local output hands the flits that are due in this slot, at most
the profile's number, to its queue; an enabled output toward another facet takes flits of its queue against credits and leaves them
with the neighbour, due one hop's advance later; an out port In service with nothing to send sends an IDLE frame. Each clause is
shown on a machine where nothing else moves in the slot. -/
def Obligations.SlotsMoveFlitsAndSendFrames : Prop :=
  ∀ (s : State) (i : Nat), i < 64 → s.dev.effs = [] → s.dev.alive = true → s.dev.legs = [] →
    let cap := Config.flitsPerSlot s.dev.profile
    let now : Dev := { s.dev with slotAt := 64 * s.time.beat + i }
    (∀ (n k : Nat) (f : Facet), (∀ p < 16, (s.dev.port p).st ≠ .inService) → s.dev.executes s.ctx = true →
      s.dev.facets = [(n, f)] → f.switching = true →
      let e := outField (f.active.slots.getD i 0)
      (∀ dir < 4, ofEn (e dir) = false) → ofEn (e 4) = true → ofSrc (e 4) = k → k < 4 →
      let due := (tgetD f.bufs k []).filter fun t => decide (t.1 = i)
      let later := (tgetD f.bufs k []).filter fun t => decide (t.1 ≠ i)
      exec (.slot i) s = .next (s.withDev (now.setFacet n
        { f with bufs := tset f.bufs k (later ++ due.drop cap)
                 arriving := f.arriving ++ (due.take cap).map fun t => (ofQueue (e 4), t.2) }))) ∧
    (∀ (n m dir side : Nat) (f g : Facet), (∀ p < 16, (s.dev.port p).st ≠ .inService) → s.dev.executes s.ctx = true → n ≠ m →
      s.facet n = f → s.facet m = g → f.poisonSeen = false →
      tkeys s.dev.facets = [Nat.min n m, Nat.max n m] → f.switching = true → dir < 4 → neighbour n dir = some (m, side) →
      let e := outField (f.active.slots.getD i 0)
      let q := ofQueue (e dir)
      (∀ k < 5, k ≠ dir → ofEn (e k) = false) → ofEn (e dir) = true → ofSrc (e dir) = 4 →
      (∀ k < 5, ofEn (outField (g.active.slots.getD i 0) k) = false) →
      let k := min cap (min (f.credit q) (f.oqOf q).length)
      exec (.slot i) s = .next (s.withDev ((now.setFacet n
          { f with oq := tset f.oq q ((f.oqOf q).drop k), credits := tset f.credits q (f.credit q - k) }).setFacet m
          { g with bufs := tset g.bufs side (tgetD g.bufs side [] ++
              ((f.oqOf q).take k).map fun t => ((i + hopAdvance (n % 32) dir) % 64, t)) }))) ∧
    (∀ p < 16, s.dev.facets = [] → (∀ k < 16, k ≠ p → (s.dev.port k).st ≠ .inService) → (s.dev.port p).st = .inService →
      (s.dev.port p).changing = false → (s.dev.port p).resend = [] → (s.dev.port p).pass = [] → (s.dev.port p).ctl = [] →
      (s.dev.port p).fifo = [] → ((s.dev.port p).slot i).testBit 63 = false →
      exec (.slot i) s = .next (s.withDev (now.sendControl p { idleFrame with slot := i })))

/-- Table 8.5, R254, R257, R264: a link's way from Idle to Conforming, in a device that is not in Training. An enabled Idle port with a
signal trains; lanes locked are measured (the round trip rounded up to whole slots) and IDENTITY goes out; a failed attempt counts; a
far end that matches the plan makes the link Conforming with the smaller lane count, an unplanned or a wrong one Disables the port; the
symbols that FEC corrected in a frame count (R255); a Down port is Idle again after 64 beats; a port that changes lanes takes its new
ones. -/
def Obligations.LinksTrainAndIdentify : Prop :=
  ∀ (s : State) (p : Nat),
    let q := s.dev.port p
    let now := s.time.beat
    s.dev.effs = [] → s.dev.alive = true → s.dev.state ≠ .training → p < 16 →
    (q.st = .idle → s.dev.portOn p = true → s.dev.state.placed? = true → (q.since = 0 ∨ q.since + 64 ≤ now) →
      exec (.signalDetected p) s = .next (s.withDev (s.dev.setPort p { q with st := .training, since := now }))) ∧
    (∀ (lanes flight rtt : Nat) (residual : Int), q.st = .training → 4 ≤ min lanes (s.dev.lanesHere p) →
      ∃ t, exec (.lanesLocked p lanes flight residual rtt) s = .next t ∧
        (t.dev.port p).st = .identifying ∧ (t.dev.port p).since = now ∧
        (t.dev.port p).lanes = laneStep (min lanes (s.dev.lanesHere p)) ∧ (t.dev.port p).flight = flight % 256 ∧
        (t.dev.port p).residual = residual ∧ rtt ≤ (t.dev.port p).rtt ∧ (t.dev.port p).rtt < rtt + 16 ∧ (t.dev.port p).rtt % 16 = 0 ∧
        t.dev.out = s.dev.out ++ [.frame p (s.dev.identityFrame s.ctx p)] ∧
        { t.dev with ports := s.dev.ports, out := s.dev.out } = s.dev ∧ t.mem = s.mem ∧ ∀ k, k ≠ p → t.dev.port k = s.dev.port k) ∧
    (q.st = .training → exec (.trainingTimeout p) s =
      .next (s.withDev ((s.dev.setPort p { q with st := .idle, since := now }).count (0x2200 + p) 6 1))) ∧
    (∀ (fr : Frame) (fec : Nat), fr.typ = 4 → q.st = .identifying → pePlanned (s.dev.planEntry p) = true →
      planMatches (s.dev.planEntry p) fr.ctl = true →
      ∃ t, exec (.identity p fr fec) s = .next t ∧ (t.dev.port p).st = .conforming ∧ (t.dev.port p).plan = 0 ∧
        (t.dev.port p).farNum = leNat (fr.ctl.take 8) ∧ (t.dev.port p).lanes = laneStep (min q.lanes (fr.ctl.getD 15 0).toNat) ∧
        { t.dev with ports := s.dev.ports } = s.dev.corrected p fec ∧ t.mem = s.mem ∧ ∀ k, k ≠ p → t.dev.port k = s.dev.port k) ∧
    (∀ (fr : Frame) (fec : Nat), fr.typ = 4 → q.st = .identifying → pePlanned (s.dev.planEntry p) = false →
      ∃ t, exec (.identity p fr fec) s = .next t ∧ (t.dev.port p).st = .disabled ∧ (t.dev.port p).plan = 1 ∧
        { t.dev with ports := s.dev.ports } = s.dev.corrected p fec) ∧
    (∀ (fr : Frame) (fec : Nat), fr.typ = 4 → q.st = .identifying → pePlanned (s.dev.planEntry p) = true →
      planMatches (s.dev.planEntry p) fr.ctl = false →
      ∃ t, exec (.identity p fr fec) s = .next t ∧ (t.dev.port p).st = .disabled ∧ (t.dev.port p).plan = 3 ∧
        t.dev.alerts.testBit 2 = true) ∧
    (q.st = .down → s.dev.portOn p = true → q.since + 64 ≤ now →
      exec (.downRetry p) s = .next (s.withDev (s.dev.setPort p { Port.reset with slots := q.slots }))) ∧
    (∀ (lanes flight rtt : Nat) (residual : Int), q.changing = true → s.dev.ballast.profChange = none → q.farLanes = 0 →
      ∃ t, exec (.laneChangeDone p lanes flight residual rtt) s = .next t ∧ (t.dev.port p).changing = false ∧
        (t.dev.port p).lanes = laneStep (min lanes (s.dev.lanesHere p)) ∧ (t.dev.port p).st = q.st ∧
        { t.dev with ports := s.dev.ports } = s.dev ∧ ∀ k, k ≠ p → t.dev.port k = s.dev.port k)

/-- R262, R19, R260: a link In service goes Down on a loss of its signal, 16 beats without a MARKER, 65 beats without a HEARTBEAT, the ninth
sending of a frame due, or 64 beats beyond the phase limit; the event counts, and nothing else changes on a device without jobs whose
port is in no change of lanes.
R274, R285, R403: with a link a running job's leg breaks, and the job enters Faulted with alert cause 9. -/
def Obligations.LossTakesALinkAndItsLegsDown : Prop :=
  (∀ (s : State) (p : Nat),
    let q := s.dev.port p
    let now := s.time.beat
    let down := { Port.reset with st := .down, plan := q.plan, since := now, slots := q.slots, offset := q.offset, farNum := q.farNum,
                                  farPlace := q.farPlace }
    let gone := (s.dev.setPort p down).count (0x2200 + p) 0x11 1
    s.dev.effs = [] → s.dev.alive = true → s.dev.state ≠ .training → s.dev.jobs = [] →
    (q.changing = false ∨ s.dev.ballast.profChange = none) →
    ((q.st = .inService ∨ q.st = .identifying ∨ q.st = .conforming ∨ q.st = .held) → exec (.lossOfSignal p) s = .next (s.withDev gone)) ∧
    (q.st = .inService → q.lastMarker + 16 ≤ now → exec (.markerLoss p) s = .next (s.withDev (gone.count (0x2200 + p) 0x0F 16))) ∧
    (q.st = .inService → q.lastHeart + 65 ≤ now → exec (.heartbeatLoss p) s = .next (s.withDev (gone.count (0x2200 + p) 0x0F 1))) ∧
    (q.st = .inService → (∃ r ∈ q.resends, 8 ≤ r.2) → exec (.resendLimit p) s = .next (s.withDev gone)) ∧
    (q.st = .inService → 64 ≤ q.skewRun → exec (.skewLimit p) s = .next (s.withDev gone))) ∧
  (∀ (s : State) (p j k : Nat) (b : Job) (r : Routes) (l : Leg),
    s.dev.effs = [] → s.dev.alive = true → s.dev.state ≠ .training → s.dev.jobs = [(j, b)] → s.dev.board = [] →
    (s.dev.port p).st = .inService → (s.dev.port p).changing = false → b.st = .running → tget s.dev.routes j = some r → s.dev.legs = [(k, l)] → k / 4096 = j →
    l.broken = false → legUses r.tree b.rank l p = true → (∀ e ∈ treeLinks r.tree b.rank, e.1 ≠ p) →
    ∃ t, exec (.lossOfSignal p) s = .next t ∧ t.dev.legs = [(k, { l with broken := true })] ∧
      tget t.dev.routes j = some { r with broken := r.broken + 1 } ∧
      t.dev.jobs = [(j, { b with st := .faulted, before := .running, phase := .frozen, frozenAt := s.time.beat, iced := false,
                                 faultStatus := Config.linkDown })] ∧
      t.dev.alerts.testBit 9 = true ∧ (t.dev.port p).st = .down)

/-- R255, R258, R259, R260, R268: frames on a Bridle link In service, on a machine without pass records or legs that only pass the port and with
gust disarmed. An IDLE frame's ACK drops what it acknowledges and its credits go to the leg they name; a DATA frame that comes in order enters its
leg's buffer, deciphered where the leg has confidentiality, and is acknowledged, one out of order is dropped and RETRY goes out; a PROBE that
names its leg counts for it; a codeword that FEC cannot correct, or bytes that spell no frame, count as a bad frame and ask for RETRY; so does,
uncounted, a sequenced frame with another SEQ than the expected one. Corrected symbols count. -/
def Obligations.FramesAreTakenInOrder : Prop :=
  ∀ (s : State) (p : Nat) (fr : Frame),
    let q := s.dev.port p
    let left := q.unacked.dropWhile fun u => decide ((fr.ack + 65536 - u.seq) % 65536 < 32768)
    let q' := { q with unacked := left, resends := tfilter q.resends fun k _ => left.any fun u => decide (u.seq = k)
                       resend := if fr.retry then left.map Frame.seq else q.resend.filter fun k => left.any fun u => decide (u.seq = k) }
    s.dev.effs = [] → s.dev.alive = true → p < 16 → q.st = .inService → s.dev.passRecs = [] → s.dev.gust.armed = false →
    s.dev.throughIn p fr.slot = none → s.dev.formAt p fr.slot = none →
    (∀ fec : Nat, fr.typ = 1 → fr.crcnt = 0 → exec (.idle p fr fec) s = .next (s.withDev ((s.dev.corrected p fec).setPort p q'))) ∧
    (∀ (k c fec : Nat) (l : Leg), fr.typ = 1 → 0 < fr.crcnt → s.dev.legs = [(k, l)] → tget l.credits p = some c →
      l.mask.testBit fr.crslot = true → l.through = [] →
      (∀ b r, tget s.dev.jobs (k / 4096) = some b → tget s.dev.routes (k / 4096) = some r → legIn r.tree b.rank l = none) →
      exec (.idle p fr fec) s = .next (s.withDev { (s.dev.corrected p fec).setPort p q' with
        legs := [(k, { l with credits := tset l.credits p (c + fr.crcnt) })] })) ∧
    (∀ (k fec : Nat) (l : Leg) (b : Job) (tagOk : Bool), fr.typ = 0 → fr.crcnt = 0 → fr.seq = q.expected → q.fifo = [] →
      s.dev.legAt p fr.slot = some (k, l) → tget s.dev.jobs (k / 4096) = some b → b.iced = false →
      fr.tepoch = s.dev.num (0x4100 + b.comp) 8 → l.kind = 0 → (l.enc = true → tagOk = true) →
      l.rx.length + (fr.flits.take 3).length ≤ l.rxb →
      let flits := if l.enc then cryptFlits (s.dev.legSecret b) k fr.lctr (fr.flits.take 3) else fr.flits.take 3
      exec (.data p fr tagOk fec) s = .next (s.withDev ({ s.dev.corrected p fec with
        legs := tset s.dev.legs k { l with rx := l.rx ++ flits } }.setPort p
          { q' with expected := (q.expected + 1) % 65536, acked := fr.seq }))) ∧
    (∀ (fec : Nat) (tagOk : Bool), fr.typ = 0 → fr.crcnt = 0 → fr.seq ≠ q.expected → q.fifo = [] →
      exec (.data p fr tagOk fec) s = .next (s.withDev ((s.dev.corrected p fec).setPort p { q' with retryOut := true }))) ∧
    (∀ (k fec : Nat) (l : Leg) (b : Job) (r : Routes), fr.typ = 5 → fr.crcnt = 0 → fr.seq = q.expected → q.fifo = [] →
      s.dev.legAt p fr.slot = some (k, l) → tget s.dev.jobs (k / 4096) = some b → b.st = .running → b.iced = false → l.kind = 0 →
      tget s.dev.routes (k / 4096) = some r → leNat (fr.ctl.take 8) = r.tag → leNat ((fr.ctl.drop 8).take 2) = k % 4096 →
      leNat ((fr.ctl.drop 10).take 2) = l.srcRank →
      exec (.probe p fr fec) s = .next (s.withDev ({ s.dev.corrected p fec with
        legs := tset s.dev.legs k { l with probed := true, lastProbe := s.time.beat } }.setPort p
          { q' with expected := (q.expected + 1) % 65536, acked := fr.seq }))) ∧
    (∀ (raw : List Byte) (n fec : Nat), (n ≠ 0 ∨ readFrame raw = none) → exec (.badFrame p raw n fec) s = .next (s.withDev (
      let d := ((s.dev.setPort p { q with retryOut := true }).corrected p fec).count (0x2200 + p) 0x0D 1
      if n = 0 then d else d.count (0x2200 + p) 0x0C n))) ∧
    (∀ (raw : List Byte) (g : Frame) (fec : Nat), readFrame raw = some g → (g.typ = 0 ∨ g.typ = 5) → g.seq ≠ q.expected →
      exec (.badFrame p raw 0 fec) s = .next (s.withDev ((s.dev.setPort p { q with retryOut := true }).corrected p fec)))

/-- R19, R261, R262, R263, Table 8.5: a MARKER on a Conforming or Held link gives flight time, residual phase and the far beat number; on a link
In service that has missed none, the first MARKER of an excursion of the phase beyond the limit counts, and every one of it lengthens the run; a
HEARTBEAT gives the far end's state and profile; a Held link whose far end is in Training goes Idle.
R273, R274: a running job's source sends a PROBE that names its tag, leg and rank, sequenced, on the leg's port, unless the port changes its
lanes or has frames to resend; a member at which the leg ends and that has had none for 96 beats breaks the leg, counts it and faults the job. -/
def Obligations.MarkersProbesAndHeartbeatsReport : Prop :=
  (∀ (s : State) (p : Nat) (fr : Frame),
    let q := s.dev.port p
    let limit : Int := (s.dev.num 0x2010 5 : Int) * 1000
    s.dev.effs = [] → s.dev.alive = true → p < 16 →
    (∀ (flight fec : Nat) (residual : Int), fr.typ = 2 →
      let told := fun (q : Port) (run : Nat) =>
        { q with flight := flight % 256, residual := residual, skewRun := run, lastMarker := s.time.beat
                 farBeat := some (min (2 ^ 64 - 1) (leNat (fr.ctl.take 8) + flight / 64)) }
      ((q.st = .conforming ∨ q.st = .held) →
        exec (.marker p fr flight residual fec) s = .next (s.withDev ((s.dev.corrected p fec).setPort p (told q 0)))) ∧
      (q.st = .inService → fr.crcnt = 0 → s.time.beat ≤ q.lastMarker + 1 →
        ((-limit ≤ residual ∧ residual ≤ limit) →
          exec (.marker p fr flight residual fec) s = .next (s.withDev ((s.dev.corrected p fec).setPort p (told (q.ackedBy fr) 0)))) ∧
        ((limit < residual ∨ residual < -limit) →
          let d := (s.dev.corrected p fec).setPort p (told (q.ackedBy fr) (q.skewRun + 1))
          exec (.marker p fr flight residual fec) s = .next (s.withDev (if q.skewRun = 0 then d.count (0x2200 + p) 9 1 else d))))) ∧
    (∀ fec, fr.typ = 3 → q.st = .conforming → exec (.heartbeatFrame p fr fec) s = .next (s.withDev ((s.dev.corrected p fec).setPort p
      { q with farState := (fr.ctl.getD 8 0).toNat, farProfile := (fr.ctl.getD 9 0).toNat, lastHeart := s.time.beat }))) ∧
    (∀ fec, fr.typ = 3 → q.st = .held → (fr.ctl.getD 8 0).toNat = 4 →
      exec (.heartbeatFrame p fr fec) s = .next (s.withDev ((s.dev.corrected p fec).setPort p { Port.reset with slots := q.slots })))) ∧
  (∀ (s : State) (j k : Nat) (b : Job) (l : Leg) (r : Routes),
    s.dev.effs = [] → s.dev.alive = true → tget s.dev.jobs j = some b → tget s.dev.legs (legKey j k) = some l →
    tget s.dev.routes j = some r → b.st = .running → l.broken = false →
    (l.kind = 0 → l.srcRank = b.rank → (s.dev.port l.srcPort).st = .inService → (s.dev.port l.srcPort).unacked.length < 1024 →
      (s.dev.port l.srcPort).changing = false → (s.dev.port l.srcPort).resend = [] →
      ∃ t fr, exec (.probeSend j k) s = .next t ∧ fr.typ = 5 ∧ fr.seq = (s.dev.port l.srcPort).nextSeq ∧ fr.comp = b.comp ∧
        fr.ctl = leBytes 8 r.tag ++ leBytes 2 k ++ leBytes 2 l.srcRank ++ [0] ∧ t.dev.out = s.dev.out ++ [.frame l.srcPort fr] ∧
        (t.dev.port l.srcPort).unacked = (s.dev.port l.srcPort).unacked ++ [fr] ∧
        (t.dev.port l.srcPort).nextSeq = ((s.dev.port l.srcPort).nextSeq + 1) % 65536 ∧
        tget t.dev.legs (legKey j k) = some { l with lastSent := s.time.beat } ∧
        { t.dev with ports := s.dev.ports, legs := s.dev.legs, out := s.dev.out } = s.dev ∧
        ∀ i, i ≠ l.srcPort → t.dev.port i = s.dev.port i) ∧
    (l.endsAt b.rank = true → l.lastProbe + 96 ≤ s.time.beat →
      exec (.legBroken j k) s = .next (s.withDev (({ s.dev with legs := tset s.dev.legs (legKey j k) { l with broken := true } }.count
        (0x2280 + j) 3 1).jobFault s.ctx j Config.linkDown))))

/-- R64, R153: a write stores its bytes and no other, keeps the canonical form, leaves every facet word it covers whole not POISON, and
poisons nothing. -/
def Obligations.WritesStoreTheirBytesAlone : Prop :=
  ∀ (m : MemSys) (a : Nat) (bs : List Byte), m.wf = true →
    (m.write a bs).wf = true ∧
    (∀ (i : Nat) (h : i < bs.length), (m.write a bs).byte (a + i) = bs[i]) ∧
    (∀ c, c < a ∨ a + bs.length ≤ c → (m.write a bs).byte c = m.byte c) ∧
    (∀ w, a ≤ 8 * w → 8 * w + 8 ≤ a + bs.length → (m.write a bs).poisoned (8 * w) = false) ∧
    (∀ c, m.poisoned c = false → (m.write a bs).poisoned c = false)

/-- R57, R62, R66, R133, R153, R169: a gondola's accesses to facet memory of its compartment, in whole aligned words that are neither POISON, in
error nor weight lines: a load gives the bytes; a store puts them there; a fetch-add gives the old value and leaves the wrapped sum, a
swap the old bytes and leaves the new ones. No other byte changes, and the device only answers. -/
def Obligations.GondolaAccessesFacetMemory : Prop :=
  ∀ (s : State) (g c n addr : Nat),
    let a := localOf addr
    let clean := fun (k : Nat) => (∀ w, a / 8 ≤ w → 8 * w < a + k → tget s.mem.flips w = none) ∧ s.mem.anyPoison a k = false ∧
      s.mem.touchesWeight a k = false ∧ s.dev.accessStatus c a k = Config.ok
    let answers := fun (b : List Byte) => s.dev.emit (.gondola g Config.ok b)
    s.Inv → s.dev.alive = true → s.dev.gondolaComp g = some c → slotOf addr = s.dev.ownSlot → regionOf a = .facet n →
    (∀ (k : Nat) (secure : Bool) (env : MemEnv), clean (8 * k) → a % 8 = 0 →
      exec (.gondolaLoad g addr (8 * k) secure env) s = .next (s.withDev (answers (s.mem.bytes a (8 * k))))) ∧
    (∀ (b : List Byte) (secure : Bool) (env : MemEnv), s.dev.accessStatus c a b.length = Config.ok → a % 8 = 0 → b.length % 8 = 0 →
      exec (.gondolaStore g addr b secure env) s = .next { s with dev := answers [], mem := s.mem.write a b }) ∧
    (∀ (nb operand : Nat) (i : Instr), (nb = 4 ∧ i = .fetchAdd32 g addr operand) ∨ (nb = 8 ∧ i = .fetchAdd64 g addr operand) →
      clean nb → a % nb = 0 →
      ∃ t, exec i s = .next t ∧ t.dev = answers (leBytes nb (leNat (s.mem.bytes a nb))) ∧ t.fuse = s.fuse ∧
        leNat (t.mem.bytes a nb) = (leNat (s.mem.bytes a nb) + operand) % 2 ^ (8 * nb) ∧
        ∀ b, b < a ∨ a + nb ≤ b → t.mem.byte b = s.mem.byte b) ∧
    (∀ b : List Byte, b.length = 64 → clean 64 → a % 64 = 0 →
      exec (.swap g addr b) s = .next { s with dev := answers (s.mem.bytes a 64), mem := s.mem.write a b })

/-- R31, R62, R83, R84, R93, R162, R477: register writes of a gondola of compartment c. On a facet of c a window's serial, an expected count and a valid
count up to 64 wait for the step boundary of the facet's job; a larger valid count answers RANGE and is dropped (the model's choice, assumption 43);
0 clears a counter, a window's flags or a stall count and any other value leaves it; a register that only reads answers READ_ONLY; an offset that
Tables 2.15 and 3.3 do not name is ignored. On a winch engine of c STEPSER waits for the step boundary. A facet, an engine or a gondola of
another compartment is ACCESS_DENIED. R291: 4 bytes of the host to its register window act as the doorbell they meet; a write to an
unnamed offset or to DEVSTAT is discarded and counted. Nothing else changes. -/
def Obligations.RegisterWritesWaitOrClear : Prop :=
  ∀ (s : State) (g : Nat), s.dev.effs = [] → s.dev.alive = true →
    let answers := fun (d : Dev) (st : Nat) => s.withDev (d.emit (.gondola g st []))
    (∀ (c n : Nat), s.dev.gondolaComp g = some c → s.dev.facetComp n = some c →
      let f := s.facet n
      let write := fun (o v : Nat) => exec (.registerWrite (.facet g n o) v) s
      let waits := fun (e : SEffect) => answers { s.dev with
        schanges := s.dev.schanges ++ [(⟨c, s.dev.facetJob n, s.time.beat, s.dev.nextOrder, e⟩ : SChange)]
        nextOrder := s.dev.nextOrder + 1 } Config.ok
      let clears := fun (o : Nat) (cleared : Facet) => write o 0 = .next (answers (s.dev.setFacet n cleared) Config.ok) ∧
        ∀ v, v ≠ 0 → write o v = .next (answers s.dev Config.ok)
      (∀ w v, w < 16 → exec (.wserial g n w v) s = .next (waits (.window n w (v % 65536)))) ∧
      (∀ w v, 16 ≤ w → exec (.wserial g n w v) s = .next (answers s.dev Config.ok)) ∧
      (∀ w v, w < 16 → write (0x080 + 16 * w) v = .next (waits (.window n w (v % 65536))) ∧
        write (0x084 + 16 * w) v = .next (waits (.wexpect n w (v % 2 ^ 32))) ∧
        write (0x088 + 16 * w) v = .next (answers s.dev Config.readOnly) ∧
        clears (0x08C + 16 * w) (f.setWin w { f.win w with flags := 0 })) ∧
      (∀ i v, i < 16 → v < 65536 → write (0x040 + 2 * i) v = .next (if v ≤ 64 then waits (.vcount n i v) else answers s.dev Config.range)) ∧
      clears 0x018 { f with eccCe := 0 } ∧ clears 0x01C { f with epochDisc := 0 } ∧ clears 0x020 { f with staleGrp := 0 } ∧
      clears 0x024 { f with discGrp := 0 } ∧ (∀ q < 8, clears (0x240 + 4 * q) { f with cstall := tset f.cstall q 0 }) ∧
      (∀ v, ∀ o ∈ [0x000, 0x008, 0x010, 0x260, 0x264] ++ (List.range 16).map (fun q => 0x200 + 4 * q),
        write o v = .next (answers s.dev Config.readOnly)) ∧
      (∀ o v, 0x268 ≤ o → write o v = .next (answers s.dev Config.ok))) ∧
    (∀ (e c v : Nat), s.dev.reaches g e = some c →
      exec (.registerWrite (.winch g e 0x058) v) s = .next (answers { s.dev with
        schanges := s.dev.schanges ++ [(⟨c, none, s.time.beat, s.dev.nextOrder, .stepser (v % 65536)⟩ : SChange)]
        nextOrder := s.dev.nextOrder + 1 } Config.ok) ∧
      ∀ o ∈ [0x048, 0x04C, 0x054, 0x060], exec (.registerWrite (.winch g e o) v) s = .next (answers s.dev Config.readOnly)) ∧
    (∀ (n w e o v : Nat),
      (s.dev.gondolaComp g = none ∨ s.dev.facetComp n ≠ s.dev.gondolaComp g →
        exec (.wserial g n w v) s = .next (answers s.dev Config.accessDenied) ∧
        exec (.registerWrite (.facet g n o) v) s = .next (answers s.dev Config.accessDenied)) ∧
      (s.dev.reaches g e = none → exec (.registerWrite (.winch g e o) v) s = .next (answers s.dev Config.accessDenied))) ∧
    (∀ v : Nat, s.dev.linkUp = true →
      (∀ r < 64, exec (.registerWrite (.window (0x1000 * r)) v) s = exec (.sqtail r (v % 2 ^ 32)) s ∧
        exec (.registerWrite (.window (0x1000 * r + 8)) v) s = exec (.cqhead r (v % 2 ^ 32)) s) ∧
      ∀ o, (∀ r < 64, o ≠ 0x1000 * r ∧ o ≠ 0x1000 * r + 8) → o < 2 ^ 32 →
        exec (.registerWrite (.window o) v) s = .next (s.withDev (s.dev.count 0x2400 0x0E 1)))

/-- R170, R171, R282: requests of another device of the slice to facet memory of the job's compartment: their flits leave the receive buffer, they are
served and answered on the reverse leg of the job: a read gives the bytes, a write stores them and counts its sync counter, an atomic gives the old
value; a read for a job that has no part here is ACCESS_DENIED, counted as refused.
A reply for a gondola takes its request out and gives the status, with the data of a read or an atomic; NO_TARGET and LINK_DOWN count; a reply
that no request waits for does nothing. -/
def Obligations.BoardRequestsAreServedAndEnd : Prop :=
  (∀ (s : State) (m : BoardMsg) (env : MemEnv) (j c n k : Nat) (l : Leg),
    let a := localOf m.addr
    let clean := fun (k : Nat) => (∀ w, a / 8 ≤ w → 8 * w < a + k → tget s.mem.flips w = none) ∧ s.mem.anyPoison a k = false ∧
      s.mem.touchesWeight a k = false ∧ s.dev.accessStatus c a k = Config.ok
    let answer := fun (st : Nat) (b : List Byte) =>
      (⟨m.addr, Nat.max 1 ((b.length + 63) / 64), m.tag, s.dev.ownSlot % 8, m.jobtag, st, 0, false, 0, b⟩ : BoardMsg)
    let reply := fun (d : Dev) (op st : Nat) (b : List Byte) => d.boardOut k m.sslot op (answer st b)
    s.Inv → s.dev.alive = true →
    (s.dev.boardComp m.jobtag = some (j, c) → s.dev.compState c = 1 →
      s.dev.boardLeg (fun i => decide (some j = some i)) m.sslot = some (k, l) → regionOf a = .facet n →
      (clean (64 * m.lines) → a % 8 = 0 →
        exec (.boardRead m env) s = .next (s.withDev (reply (s.dev.takeFlits 0 m) 8 Config.ok (s.mem.bytes a (64 * m.lines))))) ∧
      (s.dev.accessStatus c a m.data.length = Config.ok → a % 8 = 0 → m.data.length % 8 = 0 →
        let taken := s.dev.takeFlits 1 m
        exec (.boardWrite m env) s = .next { s with mem := s.mem.write a m.data
                                                    dev := reply (if m.dsyncEn then taken.addSync m.dsync 1 else taken) 9 Config.ok [] }) ∧
      (∀ (nb op : Nat) (i : Instr), (nb = 4 ∧ op = 2 ∧ i = .boardFetchAdd32 m) ∨ (nb = 8 ∧ op = 3 ∧ i = .boardFetchAdd64 m) →
        clean nb → a % nb = 0 →
        ∃ t, exec i s = .next t ∧ t.dev = reply (s.dev.takeFlits op m) 10 Config.ok (leBytes nb (leNat (s.mem.bytes a nb))) ∧
          leNat (t.mem.bytes a nb) = (leNat (s.mem.bytes a nb) + m.operand) % 2 ^ (8 * nb) ∧
          ∀ b, b < a ∨ a + nb ≤ b → t.mem.byte b = s.mem.byte b) ∧
      (m.data.length = 64 → clean 64 → a % 64 = 0 →
        exec (.boardSwap m) s = .next { s with mem := s.mem.write a m.data
                                               dev := reply (s.dev.takeFlits 4 m) 10 Config.ok (s.mem.bytes a 64) })) ∧
    (s.dev.boardComp m.jobtag = none → exec (.boardRead m env) s = .next (s.withDev
      (((s.dev.takeFlits 0 m).count 0x4070 5 1).emit (.board m.sslot 8 (answer Config.accessDenied [])))))) ∧
  (∀ (s : State) (m : BoardMsg),
    s.dev.effs = [] → s.dev.alive = true →
    (∀ (g : Nat) (r : BoardReq), tget s.dev.board m.tag = some r → r.user = .gondola g → r.left ≤ 1 →
      let counted := fun (d : Dev) =>
        if m.status = Config.noTarget then d.count 0x4070 3 1 else if m.status = Config.linkDown then d.count 0x4070 4 1 else d
      let ends := fun (op : Nat) (b : List Byte) =>
        s.withDev ({ counted (s.dev.takeFlits op m) with board := terase s.dev.board m.tag }.emit (.gondola g m.status b))
      (r.kind = 0 → exec (.readData m) s = .next (ends 8 (if m.status = Config.ok then m.data else []))) ∧
      (r.kind = 1 → exec (.writeAcknowledge m) s = .next (ends 9 [])) ∧
      (r.kind = 2 ∨ r.kind = 3 ∨ r.kind = 4 →
        exec (.atomicResult m) s = .next (ends 10 (if m.status = Config.ok then m.data else [])))) ∧
    (tget s.dev.board m.tag = none → exec (.readData m) s = .next s ∧ exec (.writeAcknowledge m) s = .next s ∧
      exec (.atomicResult m) s = .next s))

/-- R14: when BEATREF is lost the beat goes on from REFCLK, the loss counts and alert cause 0 is set; when it is found again the device
leaves holdover. Neither moves the beat number. -/
def Obligations.BeatrefLossAndReturn : Prop :=
  ∀ (s : State), s.dev.effs = [] → s.dev.boot.porstLow = false →
    (s.time.ref = 0 → ∃ t, exec .beatrefLoss s = .next t ∧ t.time.ref = 1 ∧ t.time.beat = s.time.beat ∧
      t.time.losses = min (2 ^ 32 - 1) (s.time.losses + 1) ∧ t.time.source = s.time.source ∧ t.dev.alerts.testBit 0 = true ∧
      (∀ i, i ≠ 0 → t.dev.alerts.testBit i = s.dev.alerts.testBit i) ∧ t.mem = s.mem ∧ t.fuse = s.fuse ∧ t.pending = s.pending) ∧
    (s.time.ref = 1 → exec .holdoverExit s = .next { s with time := { s.time with ref := 0 } })

/-- R13, R15, R16, R26, R27, R29, R390, R399: a beat boundary, in a device whose pilot has not replayed its journal, whose Tether link is not up and
which has nothing pending: the beat number, undefined before the first boundary, grows by one; the holds of the brake and of Moored begin and end
here, the brake's end only where the number is a multiple of 16; the Round number is the beat number divided by 2^20, so a ROUND_BOUNDARY is a
boundary at a multiple of 2^20; the beat is executed unless the canopy is held or the number's place in its window of 16 is one that the skip
count skips, and then counts as skipped. -/
def Obligations.BoundariesCountBeatsAndRounds : Prop :=
  ∀ (s : State) (env : BeatEnv) (margin : Int),
    let d := s.dev
    let next := { s.time with beat := s.time.beat + 1 }
    let ends := d.ballast.delayDone && !d.ballast.brakeLow && decide ((s.time.beat + 1) % 16 = 0)
    let b := { d.ballast with brakeCanopy := d.ballast.brakeOn && !ends
                              mooredHold := (d.ballast.mooredHold && decide (d.ballast.moored ≠ .awake)) ||
                                (decide (d.ballast.moored = .entering) && d.ballast.emptied) }
    let d' := { d with ballast := b }
    let skips := (s.time.beat + 1) % 16 * b.skip / 16 < ((s.time.beat + 1) % 16 + 1) * b.skip / 16
    d.effs = [] → d.boot.porstLow = false → d.pilotOn = false → d.state ≠ .training → d.ports = [] → d.tether.rings = [] →
    d.bWaiting = false → d.gust.armed = false → d.gust.disarmDue = false → d.ballast.profChange = none → d.resume = [] →
    d.notifyDue = false → (∀ k ∈ d.canopy, k.2.st ≠ .fenced ∧ k.2.st ≠ .flipping) →
    (d.tether.st = .idle → d.boot.stage ≠ .done) → d.tether.st ≠ .inService → d.tether.st ≠ .moored →
    (s.time.ref ≠ 2 → s.time.beat < 2 ^ 64 - 1 →
      (d.alive = false → exec (.beatBoundary env) s = .next { s with time := next, dev := d' }) ∧
      (d.alive = true → b.brakeCanopy = false → b.mooredHold = false → ¬ skips →
        exec (.beatBoundary env) s = .next { s with time := next, dev := { d' with execBeats := d.execBeats + 1 } }) ∧
      (d.alive = true → (b.brakeCanopy = true ∨ b.mooredHold = true ∨ skips) →
        exec (.beatBoundary env) s = .next { s with time := next, dev := d'.count 0x3100 0x0E 1 }) ∧
      ((s.time.beat + 1) % 2 ^ 20 = 0 → ∃ t, exec (.roundBoundary env margin) s = .next t ∧ exec (.beatBoundary env) s = .next t ∧
        t.time = next ∧ t.ctx.round = s.ctx.round + 1)) ∧
    (s.time.ref = 2 → d.alive = false → d.ballast.brakeOn = false → d.ballast.mooredHold = false → d.ballast.moored ≠ .entering →
      exec (.beatBoundary env) s = .next { s with time := { s.time with ref := 0 }
                                                  dev := { d with ballast := { d.ballast with brakeCanopy := false, mooredHold := false } } })

/-- R26: the skip count that the cap loop gives is 0 to 15; beat k of every window of 16 is skipped if and only if floor((k + 1) s / 16) is above
floor(k s / 16); so 16 - s beats of every window are not skipped. -/
def Obligations.SkipCountIsSkippedInEveryWindow : Prop :=
  (∀ pOth pCan cap s : Nat, capSkip pOth pCan cap = some s → s ≤ 15) ∧
  ∀ (s w : Nat), s ≤ 15 →
    (∀ k < 16, skippedAt s (16 * w + k) = true ↔ (k + 1) * s / 16 > k * s / 16) ∧
    ((List.range 16).filter fun k => !skippedAt s (16 * w + k)).length = 16 - s

/-- R16: the Round number is the beat number shifted right by 20 bits; ROUND_BOUNDARY at a beat boundary whose number is no multiple of 2^20 is
no Round boundary and does nothing, at a multiple it is that beat boundary. -/
def Obligations.RoundsAreTwoToTheTwentyBeats : Prop :=
  ∀ (s : State) (env : BeatEnv) (margin : Int),
    let next := if s.time.ref = 2 then 0 else s.time.beat + 1
    s.ctx.round = s.time.beat >>> 20 ∧
    (s.dev.effs = [] → next % 2 ^ 20 ≠ 0 → exec (.roundBoundary env margin) s = .next s) ∧
    (next % 2 ^ 20 = 0 → exec (.roundBoundary env 0) s = exec (.beatBoundary env) s)

/-! ## Winch engines (chapter 4) -/

/-- R158, R159, R162, Table 4.11: a SUBMIT by a gondola that reaches the engine appends a Queued record with the next number; its COMP is the
submitter's compartment whatever the descriptor says, every other bit is the descriptor's; SUBSTAT shows the number. START does the same with
the image's descriptor. A SUBMIT whose checks fail leaves its status in SUBSTAT, a refused combination also as the last error (Table 4.12; without
a record the log shows record 0, assumption 181), a full engine counts it, an index at or above the count is RANGE. The engine of another compartment is not reached.
R163: an engine starts descriptors in order of submission: the first that has not started becomes Active while fewer than 8 are and its
gate is open; while its gate is shut it waits, and those behind it do not start. -/
def Obligations.DescriptorsAreSubmittedAndStart : Prop :=
  (∀ (s : State) (g e : Nat), s.dev.effs = [] → s.dev.alive = true →
    let old := s.dev.engine e
    (∀ (c w : Nat) (cmd : Instr), s.dev.reaches g e = some c → c < 8 → w < 2 ^ 512 → s.dev.submitStatus e c w = Config.ok →
      (∀ r ∈ old.recs, r.num ≠ old.next) → old.next < 65536 →
      (cmd = .submit g e w ∨ ∃ i < 65536, (s.dev.canopyOf c).active.descs[i]? = some w ∧ cmd = .start g e i) →
      ∃ t r, exec cmd s = .next t ∧ (t.dev.engine e).recs = old.recs ++ [r] ∧ r.num = old.next ∧ r.st = .queued ∧ r.elem = 0 ∧ r.status = 0 ∧
        sdComp r.desc = c ∧ (∀ k, (k < 58 ∨ 60 < k) → r.desc.testBit k = w.testBit k) ∧
        (t.dev.engine e).next = (old.next + 1) % 65536 ∧ (t.dev.engine e).substat = old.next * 65536 ∧
        (t.dev.engine e).outst = old.outst + 1 ∧ (∀ k, k ≠ e → t.dev.engine k = s.dev.engine k) ∧
        t.dev.out = s.dev.out ++ [.gondola g Config.ok []] ∧
        { t.dev with engines := s.dev.engines, out := s.dev.out } = s.dev ∧ t.mem = s.mem) ∧
    (∀ c w : Nat, s.dev.reaches g e = some c → w < 2 ^ 512 →
      (s.dev.submitStatus e c w = Config.accessDenied → exec (.submit g e w) s = .next (s.withDev
        ((s.dev.setEngine e { old with substat := Config.accessDenied }).emit (.gondola g Config.ok [])))) ∧
      (s.dev.submitStatus e c w = Config.range → exec (.submit g e w) s = .next (s.withDev
        (((s.dev.setEngine e { old with substat := Config.range, errlog := Config.range * 2 ^ 32 }).setNum (0x4030 + e) 6
          (Config.range * 2 ^ 32)).emit (.gondola g Config.ok []))))) ∧
    (∀ c w : Nat, s.dev.reaches g e = some c → w < 2 ^ 512 → 256 ≤ old.outst → exec (.submit g e w) s = .next (s.withDev
      (((s.dev.count (0x4030 + e) 7 1).setEngine e { old with substat := Config.busy }).emit (.gondola g Config.ok [])))) ∧
    (∀ c i : Nat, s.dev.reaches g e = some c → i < 65536 → (s.dev.canopyOf c).active.descs.length ≤ i →
      exec (.start g e i) s = .next (s.withDev ((s.dev.setEngine e { old with substat := Config.range }).emit (.gondola g Config.ok [])))) ∧
    (∀ w i n : Nat, s.dev.reaches g e = none → ∀ cmd ∈ [Instr.submit g e w, .start g e i, .winchAbort g e n],
      exec cmd s = .next (s.withDev (s.dev.emit (.gondola g Config.accessDenied []))))) ∧
  (∀ (s : State) (e : Nat) (before after : List Rec) (r : Rec),
    let g := s.dev.engine e
    s.dev.effs = [] → s.dev.alive = true → s.dev.ballast.brakeOn = false → g.recs = before ++ r :: after →
    (∀ b ∈ before, b.st ≠ .queued ∧ b.st ≠ .waiting) → (r.st = .queued ∨ r.st = .waiting) → (∀ b ∈ before ++ after, b.num ≠ r.num) →
    ((sdWaitEn r.desc = false ∨ sdWaitVal r.desc ≤ s.dev.syncCtr (sdWaitCtr r.desc)) →
      (g.recs.filter fun r => decide (r.st = .active)).length < 8 →
      exec (.descriptorStart e) s = .next (s.withDev (s.dev.setEngine e { g with recs := before ++ { r with st := .active } :: after }))) ∧
    (sdWaitEn r.desc = true → s.dev.syncCtr (sdWaitCtr r.desc) < sdWaitVal r.desc →
      exec (.descriptorStart e) s = .next (s.withDev (s.dev.setEngine e { g with recs := before ++ { r with st := .waiting } :: after }))) ∧
    ((sdWaitEn r.desc = false ∨ sdWaitVal r.desc ≤ s.dev.syncCtr (sdWaitCtr r.desc)) →
      8 ≤ (g.recs.filter fun r => decide (r.st = .active)).length → exec (.descriptorStart e) s = .next s))

/-- R153, R160: a raw element of an Active descriptor without a multicast destination (assumption 183) between two places of this device moves one line: the 64 bytes at the destination
become those of the source, every other byte is as it was, the descriptor is one element further and the engine's byte count rises by 64.
R65, R105, R160, R165: where the element may not be moved (its pointer-list entry, its addresses, a POISON source) nothing is written, and its
status and number are kept for DESCRIPTOR_FAIL.
R164, Table 4.11: a descriptor whose elements are all done and acknowledged is Done, its SYNC counter and, with DSYNCEN and a destination here,
its DSYNC counter grow by one, and the engine's count of completed descriptors; for a descriptor of the step controller its own end follows.
R105, R165: a failing one is Failed, or Aborted for a list entry of another step; ERRLOG and 0x4030 + e:06 hold number, status and element, failed
keys count, no sync counter grows, and the compartment's gondolas are interrupted.
R166: an abort of one that is outstanding ends it Aborted once none of its accesses is in flight on the board; one that is Done or Failed reports
ALREADY_DONE, an unknown or aborted number RANGE. -/
def Obligations.DescriptorsMoveLinesAndEnd : Prop :=
  (∀ (s : State) (e n st src dst : Nat) (r : Rec) (env : XferEnv),
    let a := localOf src
    let b := localOf dst
    let fails := fun (st : Nat) => exec (.elementTransfer e n env) s =
      .next (s.withDev (s.dev.adjRec e n fun _ => { r with status := st, errElem := r.elem }))
    s.dev.effs = [] → s.mem.wf = true → s.dev.alive = true → s.dev.ballast.brakeOn = false → s.dev.recOf e n = some r →
    (∀ q ∈ (s.dev.engine e).recs, q.num = n → q = r) → r.st = .active → r.status = 0 → r.elem < sdTotal r.desc → r.remote = [] →
    s.dev.elemAddr s.ctx r.desc r.elem (s.dev.elemPitch s.ctx r.desc r.elem) = (st, src, dst) →
    (st ≠ Config.ok → fails st) ∧
    (st = Config.ok → sdCodec r.desc = 0 →
      (src % 64 ≠ 0 → fails Config.range) ∧
      (src % 64 = 0 → s.dev.elemStatus s.ctx r.desc src dst 64 64 ≠ Config.ok → fails (s.dev.elemStatus s.ctx r.desc src dst 64 64)) ∧
      (src % 64 = 0 → s.dev.elemStatus s.ctx r.desc src dst 64 64 = Config.ok → slotOf src = s.dev.ownSlot → slotOf dst = s.dev.ownSlot →
        s.mem.flips = [] → env = ⟨true, ⟨0, 0, 0, false, false⟩, ⟨0, 0, 0, false, false⟩⟩ →
        ∃ t, exec (.elementTransfer e n env) s = .next t ∧ (Config.multicastLeg r.desc = none →
          (s.mem.anyPoison a 64 = true →
            t = s.withDev (s.dev.adjRec e n fun _ => { r with status := Config.poison, errElem := r.elem })) ∧
          (s.mem.anyPoison a 64 = false →
            (∀ i < 64, t.mem.byte (b + i) = s.mem.byte (a + i)) ∧ (∀ c, (c < b ∨ b + 64 ≤ c) → t.mem.byte c = s.mem.byte c) ∧
            t.dev = (s.dev.adjRec e n fun _ => { r with elem := r.elem + 1 }).count (0x4030 + e) 4 64 ∧ t.fuse = s.fuse ∧
            t.time = s.time))))) ∧
  (∀ (s : State) (e g n c : Nat) (r : Rec), s.dev.effs = [] → s.dev.alive = true → e < 32 → n < 65536 →
    (∀ q ∈ (s.dev.engine e).recs, q.num = n → q = r) →
    let old := s.dev.engine e
    let log := n * 2 ^ 48 + r.status % 65536 * 2 ^ 32 + r.errElem % 2 ^ 32
    let gone := tfilter s.dev.board fun _ b => match b.user with | .engine k m _ => !(decide (k = e) && decide (m = n)) | _ => true
    let becomes := fun (r' : Rec) => old.recs.map fun q => if q.num = n then r' else q
    let outstanding := r.st = .queued ∨ r.st = .waiting ∨ r.st = .active
    (s.dev.recOf e n = some r → r.st = .active → r.status = 0 → sdTotal r.desc ≤ r.elem → r.remote = [] →
      let d := (s.dev.setEngine e { old with recs := becomes { r with st := .done } }).addSync (sdSync r.desc) 1
      let here := Config.multicastLeg r.desc ≠ none ∨ (sdPlist r.desc = true ∧ sdPlside r.desc = true) ∨ slotOf (sdDst r.desc) = s.dev.ownSlot
      (sdDsyncEn r.desc = true → here →
        exec (.descriptorComplete e n) s = .next (s.withDev (((d.addSync (sdDsync r.desc) 1).count (0x4030 + e) 3 1).pageDone r.purpose))) ∧
      (sdDsyncEn r.desc = false ∨ ¬ here →
        exec (.descriptorComplete e n) s = .next (s.withDev ((d.count (0x4030 + e) 3 1).pageDone r.purpose)))) ∧
    (s.dev.recOf e n = some r → outstanding → r.status ≠ 0 →
      ∃ t, exec (.descriptorFail e n) s = .next t ∧
        t.dev.engine e = { old with
          recs := becomes { r with st := if r.status = Config.aborted then .aborted else .failed, remote := [] }, errlog := log } ∧
        t.dev.num (0x4030 + e) 6 = log ∧ t.dev.sync = s.dev.sync ∧ t.dev.board = gone ∧ t.mem = s.mem ∧
        t.dev.num (0x4030 + e) 5 = (if r.status = Config.authFail ∨ r.status = Config.keyRetired then
          (s.dev.count (0x4030 + e) 5 1).num (0x4030 + e) 5 else s.dev.num (0x4030 + e) 5) ∧
        (r.purpose = .gondola → r.status ≠ Config.aborted → t.dev.out = s.dev.out ++ [.gondolaIrq (sdComp r.desc) e n r.status] ∧
          t.dev.jobs = s.dev.jobs)) ∧
    (s.dev.reaches g e = some c →
      let ends := fun (g' : Engine) => exec (.winchAbort g e n) s = .next (s.withDev ((s.dev.setEngine e g').emit (.gondola g Config.ok [])))
      (s.dev.recOf e n = none → ends { old with abtstat := n * 65536 + Config.range }) ∧
      (s.dev.recOf e n = some r →
        (r.st = .aborted → ends { old with abtstat := n * 65536 + Config.range }) ∧
        ((r.st = .done ∨ r.st = .failed) → ends { old with abtstat := n * 65536 + Config.alreadyDone }) ∧
        (outstanding → s.dev.farOpen e n = false → ends { old with
          recs := becomes { r with st := .aborted, status := Config.aborted, remote := [] }, abtstat := n * 65536 + Config.aborted }) ∧
        ((outstanding ∨ ∃ reports, r.st = .aborting reports) → s.dev.farOpen e n = true →
          ends { old with recs := becomes { r with st := .aborting true } }))) ∧
    (∀ (m : BoardMsg) (el slot addr len leg : Nat), s.dev.recOf e n = some r → r.st = .aborting true → m.status = Config.ok →
      s.dev.board = [(m.tag, ⟨.engine e n el, 1, slot, addr, len, leg, 1⟩)] →
      ∃ t, exec (.writeAcknowledge m) s = .next t ∧ t.dev.board = [] ∧ t.dev.engine e = { old with
        recs := becomes { r with st := .aborted, status := Config.aborted, remote := [] }, abtstat := n * 65536 + Config.aborted }))

/-- R140, R141, R434, Table 14.2: a die's temperature report sets its unit's refresh multiple, and nothing else; periodic retraining
changes nothing that a command can read (R141 gives it interface time only); a Placed device with its reference locked enters Training, with
plan result PLAN_MISMATCH and alert cause 3 until R266 holds.
R139, R266, R434: at the end of memory training every GDDR7 device and package has its state: trained, out of service because its
training failed or a scrub took it out, or of another density; capacity counts the packages in service, the rate is the one in force; a package out
of service sets alert cause 1; the device becomes Ready when every required port is In service and none is Held (R17), and stays in Training
else. -/
def Obligations.MemoryControllersReportAndTrain : Prop :=
  (∀ (s : State), s.dev.effs = [] →
    (∀ u m : Nat, s.dev.alive = true → (m = 1 ∨ m = 2 ∨ m = 4) →
      (u < 16 → exec (.refresh u m) s = .next (s.withDev (s.dev.setNum (0x4010 + u) 4 m))) ∧
      (16 ≤ u → u < 24 → exec (.refresh u m) s = .next (s.withDev (s.dev.setNum (0x4020 + (u - 16)) 4 m)))) ∧
    exec .periodicRetraining s = .next s ∧
    (s.dev.alive = true → s.dev.state = .placed → s.time.ref = 0 →
      ∃ t, exec .trainingStart s = .next t ∧ t.dev.state = .training ∧ t.dev.boot.trainFrom = s.time.beat ∧ t.dev.boot.memFrom = none ∧
        t.dev.boot.memDone = false ∧ t.dev.num 0x2000 7 = Config.planMismatch ∧ t.dev.alerts.testBit 3 = true ∧ t.mem = s.mem ∧
        t.time = s.time)) ∧
  (∀ (s : State) (gddrOk lpOk densityOk rate : Nat),
    let d := s.dev
    d.effs = [] → d.alive = true → d.state = .training → d.boot.memFrom ≠ none → d.boot.memDone = false →
    (rate = 6400 ∨ rate = 7500 ∨ rate = 8533 ∨ rate = 9600) → rate ≤ d.num 0x4000 4 →
    ∃ t, exec (.memoryTrainingDone gddrOk lpOk densityOk rate) s = .next t ∧ t.mem = s.mem ∧ t.time = s.time ∧
      (∀ g < 16, t.dev.num (0x4010 + g) 5 = if g ∈ d.outUnits ∨ gddrOk.testBit g = false then 3 else 1) ∧
      (∀ p < 8, t.dev.num (0x4020 + p) 5 =
        if 16 + p ∈ d.outUnits ∨ lpOk.testBit p = false then 3 else if densityOk.testBit p = true then 1 else 4) ∧
      t.dev.num 0x4000 2 = 96 * 2 ^ 30 * ((List.range 8).filter fun p => decide (t.dev.num (0x4020 + p) 5 = 1)).length ∧
      t.dev.num 0x4000 5 = rate ∧ t.dev.num 0x4000 3 = Config.gddrRate d.profile ∧ t.dev.boot.memDone = true ∧
      ((∃ p < 8, t.dev.num (0x4020 + p) 5 ≠ 1) → t.dev.alerts.testBit 1 = true) ∧
      (d.requiredDown = 0 → (∀ p < 16, (d.port p).st ≠ .held) → d.jobs = [] → t.dev.state = .ready ∧ t.dev.num 0x2000 7 = Config.ok) ∧
      ((d.requiredDown ≠ 0 ∨ ∃ p < 16, (d.port p).st = .held) → t.dev.state = .training ∧ t.dev.num 0x2000 7 = Config.planMismatch ∧ t.dev.alerts.testBit 3 = true))

/-- R124, R126, R305: a SCAN_OUT whose facets exist and whose records lie in the compartment's tiers is in progress from its acceptance; facets
that do not exist are RANGE, records elsewhere ACCESS_DENIED; at a later beat its facets are held, no other facet changes, and every record's
header reads as zeros, so no record is valid before it commits (log entry on scan headers).
R125 to R127: the record of a held facet goes to its place in the working tier: the bytes after the header are the facet's state and, if the
command asks for it, its memory, no other byte changes; its header is valid and names logical facet, facet, beat and image; the last record
completes the command OK, and the facets resume unless the command keeps them held.
R128, R305: a SCAN_IN without facet memory, of records in the working tier that name the image, the facets and their own DIGEST: every
facet it names must be held, and takes its record back; all resume at the next beat boundary, and the command completes OK. A facet that is not
held is RANGE, a record whose DIGEST does not hold AUTH_FAIL, and nothing is written. -/
def Obligations.ScanHoldsCommitsAndRestores : Prop :=
  ((∀ (s : State) (r tag e : Nat),
    let c := s.dev.ringComp r
    let d := s.dev.began r tag
    let dst := efield e 16 8 % 2 ^ 49
    CommandReady s r tag 0x50 e → tget s.dev.scans c = none →
    (∀ (b : Job) (ls : List Nat), s.dev.scanFacets e = some (b, ls) → s.dev.scanRange c dst ls.length ((ebyte e 12).testBit 0) = true →
      exec (.scanOut r tag) s = .next (s.withDev { d with
        scans := tset s.dev.scans c ⟨r, tag, ls, (ebyte e 12).testBit 0, (ebyte e 12).testBit 1, dst, s.time.beat, none, ls⟩ })) ∧
    (s.dev.scanFacets e = none → exec (.scanOut r tag) s = .next (s.withDev (d.answer s.ctx r tag Config.range))) ∧
    (∀ (b : Job) (ls : List Nat), s.dev.scanFacets e = some (b, ls) → s.dev.scanRange c dst ls.length ((ebyte e 12).testBit 0) = false →
      exec (.scanOut r tag) s = .next (s.withDev (d.answer s.ctx r tag Config.accessDenied)))) ∧
  (∀ (s : State) (c j : Nat) (k : Scan) (b : Job),
    let len := if inRest k.dest then 192 else 64
    let at_ (i : Nat) : Nat := k.dest + i * scanPitch k.withMem (inRest k.dest)
    s.dev.effs = [] → s.mem.wf = true → s.dev.alive = true → tget s.dev.scans c = some k → s.dev.scanJob k = some (j, b) → k.heldAt = none →
    k.accepted < s.time.beat →
    ∃ t, exec (.scanHold c) s = .next t ∧ t.dev.scans = tset s.dev.scans c { k with heldAt := some s.time.beat } ∧
      (∀ l ∈ k.facets, t.dev.facet (physFacet b.groups l) = { s.dev.facet (physFacet b.groups l) with held := true }) ∧
      (∀ n, (∀ l ∈ k.facets, n ≠ physFacet b.groups l) → t.dev.facet n = s.dev.facet n) ∧
      (∀ i < k.facets.length, ∀ x < len, t.mem.byte (at_ i + x) = 0) ∧
      (∀ a, (∀ i < k.facets.length, a < at_ i ∨ at_ i + len ≤ a) → t.mem.byte a = s.mem.byte a) ∧
      { t.dev with facets := s.dev.facets, scans := s.dev.scans } = s.dev)) ∧
  (∀ (s : State) (c l j beat : Nat) (k : Scan) (b : Job),
    let n := physFacet b.groups l
    let a := k.dest + k.facets.idxOf l * scanPitch k.withMem false
    let body := scanBody (s.dev.facet n) s.mem n s.dev.draws k.withMem
    let todo := k.todo.filter fun m => decide (m ≠ l)
    s.dev.effs = [] → s.mem.wf = true → s.dev.alive = true → s.dev.ballast.brakeOn = false → tget s.dev.scans c = some k →
    s.dev.scanJob k = some (j, b) → k.heldAt = some beat → l ∈ k.todo → inRest k.dest = false → inRest a = false →
    ∃ t, exec (.scanRecordCommit c l) s = .next t ∧
      (∀ i (h : i < body.length), t.mem.byte (a + 64 + i) = body[i]) ∧
      leNat (t.mem.bytes a 64) = scanHeader (digest32 body) (s.dev.canopyOf c).active.digest beat l n k.withMem ∧
      (∀ x, (x < a ∨ a + 64 + body.length ≤ x) → t.mem.byte x = s.mem.byte x) ∧
      t.dev.facets = s.dev.facets ∧ t.dev.jobs = s.dev.jobs ∧
      (todo ≠ [] → t.dev.scans = tset s.dev.scans c { k with todo := todo } ∧ t.dev.tether = s.dev.tether ∧ t.dev.resume = s.dev.resume) ∧
      (todo = [] → t.dev.scans = terase s.dev.scans c ∧ (∀ m ∈ k.facets, k.keepHeld = false → physFacet b.groups m ∈ t.dev.resume) ∧
        (k.keepHeld = true → t.dev.resume = s.dev.resume) ∧ ∀ cm, s.dev.cmd k.ring k.tag = some cm →
          ∃ p, t.dev.tether.pend = s.dev.tether.pend ++ [p] ∧ p.ring = k.ring ∧ p.tag = k.tag ∧ p.status = Config.ok ∧ p.kind = 0)) ∧
  (∀ (s : State) (r tag e : Nat) (tagOk : Bool) (b : Job) (ls : List Nat),
    let c := s.dev.ringComp r
    let d := s.dev.began r tag
    let src := efield e 16 8 % 2 ^ 49
    let phys := ls.map fun l => physFacet b.groups l
    let rec_ (i : Nat) : List Byte := s.mem.bytes (src + i * scanLen false) (scanLen false)
    let recs := (List.range ls.length).map rec_
    let named (i l : Nat) : Prop := let h := leNat ((rec_ i).take 64)
      bits h 255 128 = leNat ((s.dev.canopyOf c).active.digest.take 16) % 2 ^ 128 ∧ bits h 63 48 = l ∧ bits h 47 32 = physFacet b.groups l
    CommandReady s r tag 0x51 e → tget s.dev.scans c = none → (ebyte e 12).testBit 0 = false → inRest src = false →
    (∀ i < ls.length, inRest (src + i * scanLen false) = false) →
    s.dev.scanFacets e = some (b, ls) → s.dev.scanRange c src ls.length false = true →
    ((∃ n ∈ phys, (s.dev.facet n).held = false) →
      exec (.scanIn r tag tagOk) s = .next (s.withDev (d.answer s.ctx r tag Config.range))) ∧
    ((∀ n ∈ phys, (s.dev.facet n).held = true) → (∀ i l, ls[i]? = some l → named i l) →
      ((∃ i < ls.length, digest32 ((rec_ i).drop 64) ≠ ((rec_ i).drop 32).take 32) →
        exec (.scanIn r tag tagOk) s = .next (s.withDev (d.answer s.ctx r tag Config.authFail))) ∧
      ((∀ i < ls.length, digest32 ((rec_ i).drop 64) = ((rec_ i).drop 32).take 32) →
        ∃ D : Dev, D = (recs.zip phys).foldl (fun d p => d.scanBack p.2 p.1 false) d ∧
          exec (.scanIn r tag tagOk) s = .next (s.withDev ({ D with resume := phys.foldl sinsert D.resume }.answer s.ctx r tag Config.ok)) ∧
          ∀ (l n g : Nat) (kept : Facet), ls = [l] → n = physFacet b.groups l → g = leNat ((rec_ 0).take 64) / 2 ^ 256 →
            s.dev.scanned.find? (fun p => decide (p.1 = g)) = some (g, kept) →
            D = d.setFacet n ((s.dev.facet n).restore kept (s.dev.execBeats - kept.startExec)))))

/-- Table 9.1, R289, R301: a Training link goes In service with 8 lanes, or with 4 where one half locked, and ends what was lost while it was
Down; a training that runs out returns to Idle and counts; a frame loss takes an In service link Down, ends every outstanding device read (a ring
whose entries were being read goes to Error, a command whose operands were being read ends once the link is back) and, where no entries that came early
wait for an earlier fetch, touches nothing else; 64
beats later the link may try again, not earlier. -/
def Obligations.TetherLinkFollowsItsStates : Prop :=
  ∀ (s : State) (low high : Bool), let d := s.dev
    d.effs = [] → d.alive = true →
    (d.tether.st = .training → (low = true ∨ high = true) → ∃ t, exec (.tetherLanesLocked low high) s = .next t ∧
      t.dev.tether.st = .inService ∧ t.dev.tether.since = s.time.beat ∧ t.dev.tether.lanes = (if low && high then 8 else 4) ∧
      t.dev.tether.lost = [] ∧ t.dev.tether.back = true ∧ t.dev.tether.reads = d.tether.reads ∧ t.dev.tether.rings = d.tether.rings ∧
      (d.tether.lost = [] → t.dev.tether.pend = d.tether.pend) ∧
      (∀ (r tag : Nat) (c : Cmd), d.tether.lost = [cmdKey r tag] → tag < 2 ^ 32 → d.cmd r tag = some c →
        t.dev.tether.pend = d.tether.pend ++
          [⟨tag, 0, s.time.beat, 0, eJob c.entry, 0, eOpcode c.entry, r, 0, Config.range, 0, true⟩])) ∧
    (d.tether.st = .training → low = false → high = false → exec (.tetherLanesLocked low high) s = .next s) ∧
    (d.tether.st = .training → exec .tetherTrainingTimeout s = .next (s.withDev
      ({ d with tether := { d.tether with st := .idle, since := s.time.beat, lanes := 0 } }.count 0x2400 3 1))) ∧
    (d.tether.st = .inService → ∃ t, exec .tetherFrameLoss s = .next t ∧ t.dev.tether.st = .down ∧ t.dev.tether.since = s.time.beat ∧
      t.dev.tether.lanes = 0 ∧ t.dev.tether.reads = [] ∧ t.dev.tether.fetched = [] ∧ t.mem = s.mem) ∧
    (d.tether.st = .inService → (∀ f ∈ d.tether.fetched, f.data = none) → ∃ t, exec .tetherFrameLoss s = .next t ∧ t.dev.tether.cmds = d.tether.cmds ∧ t.dev.tether.pend = d.tether.pend ∧
      t.dev.tether.lost = d.tether.lost ++ d.tether.reads.filterMap (fun p => match p.2.use with | .operands r g => some (cmdKey r g) | _ => none) ∧
      (∀ r, t.dev.ring r = if d.tether.reads.any (fun p => match p.2.use with | .entries q _ _ => decide (q = r) | _ => false) = true ∧
        (d.ring r).st = 1 then { d.ring r with st := 2 } else d.ring r) ∧
      { t.dev with tether := d.tether, objs := d.objs } = d ∧ t.mem = s.mem ∧ t.time = s.time ∧ t.fuse = s.fuse) ∧
    (d.tether.st = .down → d.tether.since + 64 ≤ s.time.beat →
      exec .tetherDownRetry s = .next (s.withDev { d with tether := { d.tether with st := .idle } })) ∧
    (d.tether.st = .down → s.time.beat < d.tether.since + 64 → exec .tetherDownRetry s = .next s)

/-- R292, R294, R298, Table 9.3: SQTAIL moves an enabled ring's tail, a tail at or above the entry count puts it in Error; CQHEAD frees k written
entries where it names the place k after the oldest, ring 0 ignores it; an aperture write of whole lines into the compartment's own package stores
its bytes and nothing else, any other is discarded and counted. No other ring is touched. -/
def Obligations.DoorbellsAndApertures : Prop :=
  ∀ (s : State) (r v : Nat), let d := s.dev
    let g := d.ring r
    d.effs = [] → d.linkUp = true → r < 64 →
    (g.st = 1 → v % 65536 < d.num (0x2410 + r) 2 → exec (.sqtail r v) s = .next (s.withDev (d.setRing r { g with tail := v % 65536 }))) ∧
    (g.st = 1 → d.num (0x2410 + r) 2 ≤ v % 65536 → exec (.sqtail r v) s = .next (s.withDev (d.setRing r { g with st := 2 }))) ∧
    (g.st ≠ 1 → exec (.sqtail r v) s = .next s) ∧
    (∀ k n, r ≠ 0 → g.st ≠ 0 → n = d.num (0x2410 + r) 4 → k ≤ g.cqUsed → g.cqUsed ≤ n → k < n → n < 131072 → g.cqTail < n →
      v % 131072 = (g.cqTail + n - g.cqUsed + k) % n →
      exec (.cqhead r v) s = .next (s.withDev (d.setRing r { g with cqUsed := g.cqUsed - k }))) ∧
    (r = 0 → exec (.cqhead r v) s = .next s) ∧
    (∀ (c o : Nat) (data : List Byte), c < 8 → data ≠ [] →
      let a := d.num (0x2460 + c) 1 + o % 2 ^ 32
      let fits := d.num (0x2460 + c) 1 ≠ 0 ∧ o % 64 = 0 ∧ data.length % 64 = 0 ∧ o % 2 ^ 32 + data.length ≤ 2 ^ 32 ∧
        d.accessStatus c a data.length = Config.ok
      (fits → ∃ t, exec (.aperture c o data) s = .next t ∧ t.mem = s.mem.run (.write a data) ∧
        { t.dev with dirtySet := d.dirtySet, unprot := d.unprot } = d ∧ (d.num (0x4200 + c) 2 = 0 → t.dev = d)) ∧
      (¬ fits → exec (.aperture c o data) s = .next (s.withDev (d.count (0x2460 + c) 2 1))))

/-- R290, R295, R297, R302, Table 9.5: entries that come back are accepted in their order: a command whose TAG is free and whose first checks pass
is held under its ring and TAG, at its place in the order of acceptance, with nothing posted; entries that come before those of an earlier fetch wait
for them and are not accepted yet; one whose TAG is in use completes RANGE and the earlier one stands; one that fails a check
completes with that check's status. A read that fails or times out puts the ring whose entries it was for in Error, and ends the command whose
operands it was for with RANGE. The read is no longer outstanding. -/
def Obligations.FetchedEntriesAreAccepted : Prop :=
  ∀ (s : State) (tag r head : Nat) (data : List Byte) (p : DevRead), let d := s.dev
    let e := leNat (data.take 64)
    d.effs = [] → d.linkUp = true → tget d.tether.reads tag = some p →
    (∀ rest, p.use = .entries r head 1 → r ≠ 0 → (d.ring r).st ≠ 0 → d.tether.fetched = ⟨tag, r, 1, none⟩ :: rest →
      (∀ f ∈ rest, f.tag ≠ tag) → (∀ f ∈ rest.head?, f.data = none) →
      ∃ t, exec (.rdata tag 0 data) s = .next t ∧ t.mem = s.mem ∧ ((operandData e).2 = 0 → tget t.dev.tether.reads tag = none) ∧
        (∀ q g, (q, g) ≠ (r, eTag e) → q < 64 → g < 2 ^ 32 → t.dev.cmd q g = d.cmd q g) ∧
        (d.cmd r (eTag e) = none → ∃ c : Cmd, t.dev.cmd r (eTag e) = some c ∧ c.entry = e ∧ c.started = false ∧ c.order = d.nextOrder ∧
          (d.firstChecks r e false ≠ Config.ok → t.dev.tether.pend = d.tether.pend ++
            [⟨eTag e, 0, s.time.beat, 0, eJob e, 0, eOpcode e, r, 0, d.firstChecks r e false, 0, true⟩])) ∧
        (d.cmd r (eTag e) = none → d.firstChecks r e false = Config.ok → ¬ (0x40 ≤ eOpcode e ∧ eOpcode e ≤ 0x42) →
          t.dev.tether.pend = d.tether.pend) ∧
        (∀ c, d.cmd r (eTag e) = some c → t.dev.cmd r (eTag e) = some c ∧ t.dev.tether.pend = d.tether.pend ++
          [⟨eTag e, 0, s.time.beat, 0, eJob e, 0, eOpcode e, r, 0, Config.range, 0, false⟩])) ∧
    (∀ f before after k, p.use = .entries r head k → d.tether.fetched = f :: before ++ ⟨tag, r, k, none⟩ :: after → f.data = none →
      (∀ g ∈ f :: before ++ after, g.tag ≠ tag) → exec (.rdata tag 0 data) s = .next (s.withDev { d with tether := { d.tether with
        reads := terase d.tether.reads tag, fetched := f :: before ++ ⟨tag, r, k, some data⟩ :: after } })) ∧
    (∀ k, p.use = .entries r head k → (d.ring r).st = 1 → (∀ f ∈ (d.tether.fetched.filter fun f => !f.awaits tag).head?, f.data = none) →
      ∀ st, st ≠ 0 → ∀ cmd ∈ [Instr.rdata tag st data, .tetherReadTimeout tag],
      ∃ t, exec cmd s = .next t ∧ tget t.dev.tether.reads tag = none ∧ t.dev.ring r = { d.ring r with st := 2 } ∧
        (∀ q, q ≠ r → t.dev.ring q = d.ring q) ∧ t.dev.tether.cmds = d.tether.cmds ∧ t.dev.tether.pend = d.tether.pend ∧ t.mem = s.mem) ∧
    (∀ g c, p.use = .operands r g → d.cmd r g = some c → c.started = false → d.answered r g = false → twf d.tether.reads = true →
      (∀ q ∈ d.tether.reads, q.2.use = .operands r g → q.1 = tag) → ∀ st, st ≠ 0 →
      ∀ cmd ∈ [Instr.rdata tag st data, .tetherReadTimeout tag], ∃ t, exec cmd s = .next t ∧ tget t.dev.tether.reads tag = none ∧
        t.dev.tether.pend = d.tether.pend ++ [⟨g, 0, s.time.beat, 0, eJob c.entry, 0, eOpcode c.entry, r, 0, Config.range, 0, true⟩] ∧
        t.dev.tether.cmds = d.tether.cmds ∧ t.mem = s.mem)

/-- R295, R298, R300, R302: a fetch takes up to 8 entries of the express ring if it has any, else of the next ordinary ring in turn that has
entries and no completion waiting for room, and issues one read for them. The oldest completion for a ring with room is written at its tail with
its PHASE, the tail advances, PHASE turns over as it wraps, the TAG is free after its last completion, and an interrupt follows unless one went in
this beat. -/
def Obligations.RingsFetchAndComplete : Prop :=
  ∀ (s : State) (r : Nat), let d := s.dev
    let g := d.ring r
    let n := d.num (0x2410 + r) 2
    let m := d.num (0x2410 + r) 4
    let turn (i : Nat) := (d.tether.lastRing + i) % 63 + 1
    let ripe (q : Nat) := d.ready q ≠ 0 ∧ d.ringWaits q = false
    let k := min (min 8 (d.ready r)) (min (n - g.head) (16384 - d.heldCmds))
    d.effs = [] → d.linkUp = true →
    (d.tether.back = false → d.tether.reads.length < 256 → d.heldCmds < 16384 → d.readTag ∉ d.tether.reads.map Prod.fst →
      (r = 0 ∧ d.ready 0 ≠ 0 ∨ d.ready 0 = 0 ∧ ∃ i < 63, turn i = r ∧ ripe r ∧ ∀ j < i, ¬ ripe (turn j)) →
      ∃ t, exec .ringFetch s = .next t ∧ t.dev.ring r = { g with head := (g.head + k) % n } ∧ (∀ q, q ≠ r → t.dev.ring q = d.ring q) ∧
        (∃ p, tget t.dev.tether.reads d.readTag = some p ∧ p.use = .entries r g.head k) ∧
        (∀ q, q ≠ d.readTag → tget t.dev.tether.reads q = tget d.tether.reads q) ∧
        t.dev.tether.fetched = d.tether.fetched ++ [⟨d.readTag, r, k, none⟩] ∧
        t.dev.tether.lastRing = (if r = 0 then d.tether.lastRing else r) ∧
        t.dev.out = d.out ++ [.mrd d.readTag (d.num (0x2410 + r) 1 + 64 * g.head) (64 * k) (decide (r = 0))] ∧ t.mem = s.mem) ∧
    (∀ (before after : List Compl) (c : Compl), r ≠ 0 → g.st ≠ 0 → g.cqUsed < m → d.tether.pend = before ++ c :: after →
      (∀ b ∈ before, b.ring ≠ r) → c.ring = r →
      ∃ t, exec (.completionWrite r) s = .next t ∧ t.dev.tether.pend = before ++ after ∧
        t.dev.tether.cmds = (if c.frees then terase d.tether.cmds (cmdKey r c.tag) else d.tether.cmds) ∧
        (t.dev.ring r).cqTail = (g.cqTail + 1) % m ∧ (t.dev.ring r).cqUsed = g.cqUsed + 1 ∧
        (t.dev.ring r).phase = (if (g.cqTail + 1) % m = 0 then !g.phase else g.phase) ∧ (∀ q, q ≠ r → t.dev.ring q = d.ring q) ∧
        t.dev.out = d.out ++ [.completion r g.cqTail g.phase c] ++
          (if g.intBeat ≠ some s.time.beat ∧ d.num (0x2410 + r) 5 ≠ 0 then [.interrupt (d.num (0x2410 + r) 5) (d.num (0x2410 + r) 6)] else []) ∧
        t.dev.objs = d.objs ∧ t.mem = s.mem) ∧
    (m ≤ g.cqUsed → exec (.completionWrite r) s = .next s)

/-- R356, R382, R393, R400, R401, R402, R472, Table 13.2: each cause of a fail-stop stops a live device, with the cause, unit and detail of its row; a
thermal trip drives THERMTRIP_N, a tamper event is kept in 0x1300:05 and its fuse is due. -/
def Obligations.FailStopsEndEverything : Prop :=
  ∀ (s : State), s.dev.effs = [] → s.dev.alive = true →
    (∀ c ∈ [1, 2, 3, 4, 5, 9], ∀ u a v, ∃ t, exec (.failStop c u a v) s = .next t ∧ s.FailStopped t c u a v) ∧
    (∀ p u, ∃ t, exec (.watchdog p u) s = .next t ∧ s.FailStopped t 8 u 0 0) ∧
    (∀ n, ∃ t, exec (.thermalTrip n) s = .next t ∧ s.FailStopped t 6 n 0 n ∧ t.dev.boot.thermtrip = true) ∧
    (∃ t, exec .tamperN s = .next t ∧ s.FailStopped t 7 2 0 0 ∧ t.dev.num 0x1300 5 = 2 ∧ t.dev.boot.tamperDue = true) ∧
    (∀ k < 3, ∃ t, exec (.glitchSensor k) s = .next t ∧ s.FailStopped t 7 (3 + k) 0 0 ∧ t.dev.num 0x1300 5 = 3 + k ∧
      t.dev.boot.tamperDue = true) ∧
    (∃ t, exec (.railExcursion false) s = .next t ∧ s.FailStopped t 5 0 0 0) ∧
    (s.dev.boot.stage = .done →
      (∀ r < 2, ∃ t, exec (.regulatorTimeout r) s = .next t ∧ s.FailStopped t 5 r 0 0) ∧
      (∀ core sram : PmbusRead, pmbFault core.status = true → ∃ t, exec (.pmbusPoll core sram) s = .next t ∧
        s.FailStopped t 5 0 0 (core.status % 65536)) ∧
      (∀ w v : Nat, pmbFault w = false → pmbFault v = true → ∃ t, exec (.pmbAlertN w v) s = .next t ∧
        s.FailStopped t 5 1 0 (v % 65536))) ∧
    (s.dev.gust.armed = true → s.dev.num 0x6000 0x1A ≠ 0 → s.dev.gust.beat + s.dev.num 0x6000 0x1A ≤ s.time.beat →
      ∃ t, exec .simulatedFailStop s = .next t ∧ s.FailStopped t 0x0A 0 0 0)

/-- R428, R429, R431, R435, R472, Table 14.1, Table 14.2: PORST_N, power loss and an excursion of VDD_AON leave what a device holds after reset, with
flash, fuses and the levels of pins as they were, an asserted ALERT_N released with its causes (R344), facet memory POISON, the tiers and secure memory empty; a fuse write goes on but for a power loss.
PORST_N released starts the boot ROM. SYSRST_N asserted loses everything outside the always-on domain, keeps the tiers' bytes with every granule
marked, and while the pilot boots is only a level; released it restarts the device, which is Placed if its placement is set, unless a thermal trip
stopped it. -/
def Obligations.ResetPinsAct : Prop :=
  ∀ (s : State), s.dev.effs = [] → let d := s.dev
    (∀ cmd ∈ [Instr.porstNAsserted, .powerLoss, .railExcursion true], ∃ t, exec cmd s = .next t ∧
      t.dev = { Dev.reset with
        journal := d.journal.flash, draws := d.draws, ballast := { Ballast.reset with brakeLow := d.ballast.brakeLow }, boot := t.dev.boot,
        out := d.out ++ [.pin "LP_RESET_N" true] ++ (if d.alertLow then [.pin "ALERT_N" false] else []) ++
          (if d.boot.thermtrip then [.pin "THERMTRIP_N" false] else []) } ∧
      t.dev.boot.porstLow = true ∧ t.dev.boot.stage = .inReset ∧ t.dev.boot.sysrstLow = d.boot.sysrstLow ∧ t.dev.boot.slot = d.boot.slot ∧
      t.dev.boot.fuseTarget = (if cmd = .powerLoss then none else d.boot.fuseTarget) ∧ t.fuse = s.fuse ∧ t.time = TimeBase.reset ∧
      (∀ a, a < facetTop → t.mem.poisoned a = true) ∧ (∀ a, regionOf a = .secure ∨ workBase ≤ a → t.mem.byte a = 0)) ∧
    (d.boot.porstLow = true → exec .porstNReleased s = .next (s.withDev ({ d with
      state := .booting, boot := { d.boot with porstLow := false, stage := .rom, releasedAt := s.time.beat } }.setNum 0x1420 1 0))) ∧
    (d.boot.sysrstLow = false →
      (d.boot.porstLow = false → d.boot.stage = .done → ∃ t, exec .sysrstNAsserted s = .next t ∧ t.lostAll ∧ t.dev.boot.sysrstLow = true ∧
        t.dev.state = d.state ∧ t.dev.facets = [] ∧ t.dev.canopy = [] ∧ t.dev.sync = [] ∧ t.dev.ballast.brakeOn = false ∧
        t.dev.ballast.moored = .awake ∧ t.fuse = s.fuse ∧ t.time = s.time ∧ (∀ a, a < facetTop → t.mem.poisoned a = true) ∧
        (∀ a, workBase ≤ a → t.mem.byte a = s.mem.byte a) ∧ (∀ g, t.mem.granuleMarked g = true)) ∧
      (d.boot.porstLow = true ∨ d.boot.stage ≠ .done →
        exec .sysrstNAsserted s = .next (s.withDev { d with boot := { d.boot with sysrstLow := true } }))) ∧
    (d.boot.sysrstLow = true → d.boot.porstLow = false → d.boot.stage = .done →
      (¬ (d.state = .stopped ∧ d.boot.stopCause = 6) → ∃ t, exec .sysrstNReleased s = .next t ∧ t.dev.boot.sysrstLow = false ∧
        t.dev.state = (if d.placementSet then .placed else .booting) ∧ t.dev.boot.stopCause = 0 ∧ t.dev.boot.releasedAt = s.time.beat ∧
        t.dev.num 0x2000 7 = Config.planMismatch ∧ t.dev.boot.lateRecord = none ∧ t.fuse = s.fuse ∧ t.time = s.time) ∧
      (d.state = .stopped → d.boot.stopCause = 6 →
        exec .sysrstNReleased s = .next (s.withDev { d with boot := { d.boot with sysrstLow := false } })))

/-- R433, R436, R437, R438, R442, Table 14.3: with PORST_N high, the boot ROM copies the firmware or grounds the device for its flash; firmware that passes its checks in
their order runs, any other grounds the device with the first check that failed, its management port with the settings of the valid boot parameter
block of the higher number (R440). A Grounded device announces itself; of frames that the port takes (R337, R339) a write at offset 0 claims it
and starts an image, further writes of the claimant add to it, another client's are BUSY; a whole image whose checks pass is installed and boots; any
other frame only counts; a claim lapses. -/
def Obligations.BootRunsItsStages : Prop :=
  ∀ (s : State), s.dev.effs = [] → let d := s.dev
    let b := d.boot
    let grounded (r : Nat) := s.withDev ({ d with
      state := .grounded, boot := { b with stage := .grounded, claim := none, recv := [], recvTotal := 0 } }.setNum 0x1400 6 r).romPort
    (b.stage = .rom → b.porstLow = false → ∀ capacity,
      exec (.bootRomDone false capacity) s = .next (grounded 1) ∧
      exec (.bootRomDone true capacity) s = .next (s.withDev ({ d with boot := { b with stage := .verify } }.setNum 0x1410 0x0B capacity))) ∧
    (b.stage = .verify → b.porstLow = false → ∀ sigOk,
      (fwCheck s.fuse b.slot sigOk ≠ 0 → exec (.firmwareVerify sigOk) s = .next (grounded (fwCheck s.fuse b.slot sigOk))) ∧
      (fwCheck s.fuse b.slot sigOk = 0 → ∃ t, exec (.firmwareVerify sigOk) s = .next t ∧ t.dev.boot = { b with
        stage := .replay, running := b.slot, replayAt := s.time.beat } ∧ t.dev.state = d.state ∧
        t.dev.num 0x1400 6 = (if d.num 0x1400 6 = 6 then 6 else 0) ∧ t.dev.blob 0x1000 5 = fwVersion b.slot ∧
        t.dev.blob 0x1400 8 = digest32 b.slot)) ∧
    (∀ blk, b.bpb = some blk → (grounded 1).dev.num 0x1200 1 = (blk.getD 8 0).toNat ∧ (grounded 1).dev.num 0x1200 0x0E = (blk.getD 14 0).toNat) ∧
    (b.bpb = none → (grounded 1).dev.num 0x1200 1 = 0 ∧ (grounded 1).dev.num 0x1200 0x0E = 0) ∧
    (b.stage = .grounded → ∀ (client : Nat) (net : NetFrame), netOk net = false →
      (∀ offset total (data : List Byte), exec (.recoveryWrite client offset total data net) s = .next (s.withDev (d.count 0x1200 0x0C 1))) ∧
      (∀ sigOk compareOk, exec (.recoveryInstall client sigOk compareOk net) s = .next (s.withDev (d.count 0x1200 0x0C 1)))) ∧
    (b.stage = .grounded → ∀ (client : Nat) (net : NetFrame), netOk net = true →
      (exec .recoveryAnnounce s = .next (s.withDev (d.emit (.recoveryAnnounce (d.num 0x1400 6) (b.recv.foldl (fun n p => n + p.2.length) 0))))) ∧
      (∀ total (data : List Byte), (b.claim = none ∨ b.claim = some client) → data ≠ [] → data.length ≤ 1024 → data.length ≤ total →
        total ≤ 12582912 → exec (.recoveryWrite client 0 total data net) s = .next (s.withDev ({ d with
          boot := { b with claim := some client, recvTotal := total, recv := [(0, data)] } }.emit (.recoveryReply client 0x51 Config.ok)))) ∧
      (∀ offset (data : List Byte), b.claim = some client → offset ≠ 0 → data ≠ [] → data.length ≤ 1024 →
        offset + data.length ≤ b.recvTotal → b.recvTotal ≤ 12582912 →
        exec (.recoveryWrite client offset b.recvTotal data net) s = .next (s.withDev ({ d with
          boot := { b with recv := b.recv ++ [(offset, data)] } }.emit (.recoveryReply client 0x51 Config.ok)))) ∧
      (∀ other offset total (data : List Byte), b.claim = some other → other ≠ client →
        exec (.recoveryWrite client offset total data net) s = .next (s.withDev (d.emit (.recoveryReply client 0x51 Config.busy)))) ∧
      (∀ img, b.recvTotal ≠ 0 → coverBytes b.recvTotal b.recv = some img → fwCheck s.fuse img true = 0 →
        exec (.recoveryInstall client true true net) s = .next (s.withDev (({ d with state := .booting, boot := { b with
          slot := img, slotSigOk := true, stage := .verify, claim := none, recv := [], recvTotal := 0 } }.setNum 0x1400 6 6).emit
            (.recoveryReply client 0x52 Config.ok)))) ∧
      (∀ img sigOk compareOk, b.recvTotal ≠ 0 → coverBytes b.recvTotal b.recv = some img → fwCheck s.fuse img sigOk ≠ 0 →
        exec (.recoveryInstall client sigOk compareOk net) s = .next (s.withDev (d.emit (.recoveryReply client 0x52 Config.authFail)))) ∧
      (exec .recoveryClaimLapse s = .next (s.withDev { d with boot := { b with claim := none } })))

/-- R449: a replay, with PORST_N high, ends the boot: the objects at 0x2000 to 0x2FFF and from 0x5000 hold what the snapshot and the durable records
leave, the pilot runs, and the device is Placed if its placement is set; a management PHY that does not answer is counted (R338).
R325, R355, R356, R443, R445, R447, Table 14.7: an install goes from erase to program to read-back, each stage journalled, and ends installed or, where the bytes
differ, failed with an erased slot and alert cause 6; the oldest record becomes durable, or is lost with a count and cause 6, and once no reply of a commit
waits for its record the management PHY takes its new settings (R338); past three quarters of a log
a compaction starts, is cut, and ends under the next pointer; a fuse write in progress sets the life cycle and, in a device that runs, restarts it or, with SYSRST_N low, loses everything; a due tamper count its fuse. -/
def Obligations.FlashReplayAndFuses : Prop :=
  (∀ (s : State), s.dev.effs = [] → s.dev.boot.stage = .replay → s.dev.boot.porstLow = false → s.dev.state = .booting →
    twf s.dev.journal.snap = true → ∀ phyOk, ∃ t, exec (.journalReplay phyOk) s = .next t ∧ t.dev.boot.stage = .done ∧ t.dev.pilotOn = true ∧
      (∀ i k v, k < 256 → (0x2000 ≤ i ∧ i < 0x3000 ∨ 0x5000 ≤ i) → tget (replayObjs s.dev.journal.snap s.dev.journal.recs) (okey i k) = some v →
        t.dev.obj i k = v) ∧
      t.dev.state = (if t.dev.placementSet then .placed else .booting) ∧ t.dev.jobs = s.dev.jobs ∧ t.fuse = s.fuse ∧ t.time = s.time) ∧
  (∀ (s : State), s.dev.effs = [] → let d := s.dev
    let b := d.boot
    let j := d.journal
    (b.install = 2 → ∃ t, exec .eraseDone s = .next t ∧ t.dev.boot = { b with install := 3 } ∧
      { t.dev with boot := b, journal := j } = d ∧ (∃ r, t.dev.journal.queue = j.queue ++ [r] ∧ r.pay = .firmware 3 (digest32 (b.staged.getD [])))) ∧
    (b.install = 3 → ∃ t, exec .programDone s = .next t ∧
      t.dev.boot = { b with install := 4, slot := b.staged.getD [], slotSigOk := true } ∧ { t.dev with boot := b, journal := j } = d ∧
      (∃ r, t.dev.journal.queue = j.queue ++ [r] ∧ r.pay = .firmware 4 (digest32 (b.staged.getD [])))) ∧
    (b.install = 4 →
      (∃ t, exec (.readBackDone true) s = .next t ∧ t.dev.boot = { b with install := 5 } ∧ t.dev.alerts = d.alerts) ∧
      (∃ t, exec (.readBackDone false) s = .next t ∧ t.dev.boot = { b with install := 6, slot := [], slotSigOk := false } ∧
        t.dev.alerts.testBit 6 = true)) ∧
    (∀ r rest, j.queue = r :: rest → (∀ h ∈ d.heldReplies, r.seq < h.1) →
      (∃ t, exec (.recordDurable true) s = .next t ∧ t.dev.journal.recs = j.recs ++ [r] ∧ t.dev.journal.queue = rest ∧
        t.dev.heldReplies = d.heldReplies ∧ t.dev.journal.compact = (if j.compact = 0 ∧ 3 * logBytes < 4 * j.used then 1 else j.compact) ∧
        { t.dev with journal := j, heldReplies := d.heldReplies } =
          (if b.phyDue = true ∧ ∀ h ∈ d.heldReplies, h.2.op ≠ 0x20 ∧ h.2.op ≠ 0x30 then d.writePhy else d)) ∧
      (∃ t, exec (.recordDurable false) s = .next t ∧ t.dev.journal.recs = j.recs ∧ t.dev.journal.queue = rest ∧
        t.dev.alerts.testBit 6 = true ∧ (b.phyDue = false → t.dev.out = d.out ∨ t.dev.out = d.out ++ [.pin "ALERT_N" true]))) ∧
    (j.compact = 1 → ∃ t, exec .compactionCut s = .next t ∧ t.dev.journal.compact = 2 ∧ t.dev.journal.appendB = !j.area ∧
      t.dev.journal.recs = j.recs ∧ { t.dev with journal := j } = d) ∧
    (j.compact = 2 → ∃ t, exec .compactionDone s = .next t ∧ t.dev.journal.compact = 0 ∧ t.dev.journal.gen = j.gen + 1 ∧
      t.dev.journal.area = j.appendB ∧ t.dev.journal.snapSeq = j.cutSeq ∧ t.dev.journal.queue = j.queue ∧
      (∀ r ∈ j.recs, j.cutSeq < r.seq → r ∈ t.dev.journal.recs)) ∧
    (∀ n, b.fuseTarget = some n →
      (b.porstLow = true ∨ b.stage ≠ .done → exec .fuseWriteDone s = .next
        { s with fuse := s.fuse.run (.lifecycle n), dev := { d with boot := { b with fuseTarget := none } } }) ∧
      (b.porstLow = false → b.stage = .done → ∃ t, exec .fuseWriteDone s = .next t ∧ (t.lostAll ∨ t.restarted) ∧
        (d.granted Group.fuses = [] → d.sessions = [] → (b.sysrstLow = true → t.lostAll) ∧ (b.sysrstLow = false → t.restarted)))) ∧
    (b.tamperDue = true → b.porstLow = false → exec .tamperCounterIncrement s = .next
      { s with fuse := s.fuse.run .tamper, dev := { d with boot := { b with tamperDue := false } } }))

/-- R447: the snapshot and the records that a compaction keeps leave, replayed, every object and every granted group exactly as the old snapshot and all the records did,
whatever records come after. -/
def Obligations.CompactionKeepsWhatReplayReturns : Prop :=
  ∀ (s t : State) (before after more : List JRec), let j := s.dev.journal
    j.compact = 2 → j.recs = before ++ after → (∀ r ∈ before, r.seq ≤ j.cutSeq) → (∀ r ∈ after, j.cutSeq < r.seq) → s.dev.effs = [] →
    exec .compactionDone s = .next t →
    (∀ k, tget (replayObjs t.dev.journal.snap (t.dev.journal.recs ++ more)) k = tget (replayObjs j.snap (j.recs ++ more)) k) ∧
    (∀ g, g ∈ openGrants (t.dev.journal.recs ++ more) ↔ g ∈ openGrants (j.recs ++ more))

/-- R137, R380, R382, R387 to R391: in a running device a profile change marks its voltage, relocks its clock once a raised voltage is in tolerance
(lowering the voltage only then), and runs the memory at its new rate; a poll or an alert of the regulators without a fault stores telemetry, a warning
is latched with cause 7; a lease that ran out puts its cap in force; BRAKE_N low stops issue at once with cause 7 or, in Moored, is only counted, its
rise starts the release delay, after which the hold ends at a beat that is a multiple of 16 and is measured.
R391, R396, R397, R399, Table 12.11: with its engines empty within 4,096 beats an entering device puts tiers and links to rest, keeps resident facets of
Running jobs and loses the others; with an engine still busy after them it abandons entry with BUSY; with the canopy held it is Moored at its Moored voltages,
timed and counted, or exits at once if that was asked; an exit ends awake in the state held before, timed, braked if BRAKE_N is low, and releases the
canopy at the next beat boundary. -/
def Obligations.PowerEventsAndMoored : Prop :=
  (∀ (s : State), s.dev.effs = [] → s.dev.alive = true → s.dev.boot.stage = .done → let d := s.dev
    let b := d.ballast
    (∀ p, b.profChange = some p →
      let prof (q : ProfChange) : Dev := { d with ballast := { b with profChange := some q } }
      (p.raise = true → exec .vddCoreInTolerance s = .next (s.withDev (prof { p with vddDone := true }))) ∧
      (p.clockDone = false → (p.raise = true → p.vddDone = true) → exec .clockRelock s = .next (s.withDev (
        let e := prof { p with clockDone := true, vddDone := true }
        if p.raise then e else (e.setNum 0x3500 2 (d.coreMv p.profile)).emit (.avs 0 (d.coreMv p.profile))))) ∧
      (p.gddr = false → exec .gddr7RetrainingDone s = .next (s.withDev (
        let e := if p.held = false ∧ p.vddDone = true ∧ p.clockDone = true ∧ p.lanes = []
          then { d with ballast := { b with profChange := none } } else prof { p with gddr := true }
        e.setNum 0x4000 3 (Config.gddrRate p.profile))))) ∧
    (∀ core sram : PmbusRead, pmbFault core.status = false → pmbFault sram.status = false →
      (∃ t, exec (.pmbusPoll core sram) s = .next t ∧ t.dev.num 0x3500 4 = core.vout % 65536 ∧ t.dev.num 0x3500 5 = core.iout % 65536 ∧
        t.dev.num 0x3500 6 = core.pout % 65536 ∧ t.dev.num 0x3500 7 = sram.vout % 65536 ∧ t.dev.num 0x3500 8 = sram.iout % 65536 ∧
        t.dev.num 0x3500 0x0B = sram.status % 65536 * 65536 + core.status % 65536 ∧
        (pmbWarn core.status = false → pmbWarn sram.status = false → t.dev.alerts = d.alerts) ∧
        (pmbWarn core.status = true ∨ pmbWarn sram.status = true → t.dev.alerts.testBit 7 = true)) ∧
      (∃ t, exec (.pmbAlertN core.status sram.status) s = .next t ∧
        t.dev.num 0x3500 0x0B = sram.status % 65536 * 65536 + core.status % 65536 ∧
        (pmbWarn core.status = false → pmbWarn sram.status = false → t.dev.num 0x3500 0x0C = d.num 0x3500 0x0C) ∧
        (pmbWarn core.status = true → t.dev.num 0x3500 0x0C % 65536 = Nat.lor (d.num 0x3500 0x0C) core.status % 65536))) ∧
    (d.num 0x3100 5 = 0 → b.leaseOut = false → ∃ t, exec .leaseExpiry s = .next t ∧ t.dev.ballast.leaseOut = true ∧
      t.dev.alerts.testBit 7 = true ∧ t.dev.num 0x3100 2 = min (min (d.num 0x3100 1) (Config.envelope d.profile)) (d.num 0x3100 6)) ∧
    (b.brakeLow = false →
      (b.moored ≠ .moored → b.moored ≠ .exiting → ∃ t, exec .brakeNFall s = .next t ∧ t.dev.ballast = { b with
        brakeLow := true, brakeOn := true, brakeFrom := (if b.brakeOn then b.brakeFrom else s.time.beat), delayDone := false } ∧
        t.dev.alerts.testBit 7 = true ∧ t.dev.num 0x3200 1 = 1 ∧ t.dev.num 0x3200 2 = min (2 ^ 32 - 1) (d.num 0x3200 2 + 1)) ∧
      (b.moored = .moored ∨ b.moored = .exiting → exec .brakeNFall s = .next (s.withDev ({ d with
        ballast := { b with brakeLow := true } }.count 0x3200 2 1)))) ∧
    (b.brakeLow = true → exec .brakeNRise s = .next (s.withDev { d with
      ballast := { b with brakeLow := false, highSince := s.time.beat } })) ∧
    (b.brakeOn = true → b.brakeLow = false →
      (b.delayDone = false → b.highSince + d.num 0x3200 4 ≤ s.time.beat → exec .brakeReleaseDelay s = .next (s.withDev ({ d with
        ballast := { b with delayDone := true } }.setNum 0x3200 1 2))) ∧
      (b.delayDone = true → s.time.beat % 16 = 0 → ∃ t, exec .brakeHoldEnd s = .next t ∧ t.dev.ballast = { b with
        brakeOn := false, brakeCanopy := false, delayDone := false } ∧ t.dev.num 0x3200 1 = 0 ∧
        t.dev.num 0x3200 3 = s.time.beat - (b.brakeFrom + 1) ∧ t.dev.num 0x3200 5 = max (d.num 0x3200 5) (s.time.beat - (b.brakeFrom + 1))))) ∧
  (∀ (s : State), s.dev.effs = [] → let d := s.dev
    let b := d.ballast
    (b.moored = .entering →
      (d.alive = true → b.emptied = false → d.enginesEmpty = true → s.time.beat ≤ b.mooredBeat + 4096 → ∃ t, exec .enginesEmpty s = .next t ∧
        t.dev.ballast = { b with emptied := true, emptyBeat := s.time.beat } ∧
        (∀ n f, tget d.facets n = some f → tget d.mooredFacets n ≠ none → t.dev.facet n = { f with powered := false }) ∧
        (∀ n f, tget d.facets n = some f → tget d.mooredFacets n = none → t.dev.facet n = { Facet.reset with powered := false }) ∧
        (∀ n f a, tget d.facets n = some f → tget d.mooredFacets n ≠ some true → a / 0x80000 = n → n < 1024 → t.mem.poisoned a = true) ∧
        t.dev.tether.st = (if d.tether.st = .inService then .moored else d.tether.st) ∧
        (∀ g < 16, t.dev.num (0x4010 + g) 5 = (if d.num (0x4010 + g) 5 = 1 then 2 else d.num (0x4010 + g) 5))) ∧
      (b.emptied = false → b.mooredBeat + 4096 ≤ s.time.beat → exec .mooredEntryAbandon s = .next (s.withDev (({ d with
        state := b.mooredFrom, ballast := { b with moored := .awake, exitAsked := false } }.setNum 0x3400 1 0).setNum 0x3400 3 Config.busy))) ∧
      (b.emptied = true → b.mooredHold = true → ∃ t, exec .mooredEntryDone s = .next t ∧ t.dev.num 0x3400 4 = usOf (s.time.beat - b.emptyBeat) ∧
        t.dev.num 0x3400 6 = min (2 ^ 32 - 1) (d.num 0x3400 6 + 1) ∧
        (b.exitAsked = false → t.dev.ballast = { b with moored := .moored } ∧ t.dev.num 0x3500 2 = 500 ∧ t.dev.num 0x3500 3 = 600 ∧
          t.dev.out = d.out ++ [.avs 0 500, .avs 1 600]) ∧
        (b.exitAsked = true → t.dev.ballast = { b with moored := .exiting, mooredBeat := s.time.beat }))) ∧
    (b.moored = .exiting → ∃ t, exec .mooredExitDone s = .next t ∧ t.dev.ballast.moored = .awake ∧ t.dev.num 0x3400 3 = Config.ok ∧
      t.dev.ballast.mooredHold = b.mooredHold ∧ (∀ now, (t.dev.holds now).ballast.mooredHold = false) ∧
      t.dev.num 0x3400 5 = usOf (s.time.beat - b.mooredBeat) ∧ (∀ p ∈ t.dev.facets, p.2.powered = true) ∧
      (b.brakeLow = true → t.dev.ballast.brakeOn = true ∧ t.dev.ballast.brakeCanopy = true) ∧
      (b.brakeLow = false → t.dev.ballast.brakeOn = b.brakeOn) ∧
      (t.dev.state = (match b.mooredFrom with
        | .ready => if d.jobs.any (fun p => decide (p.2.st ≠ .ended)) then .serving else .ready
        | .serving => if d.jobs.any (fun p => decide (p.2.st ≠ .ended)) then .serving else .ready
        | other => other))))

/-- R175 to R180, R273, R370, Tables 5.1 and 5.2: a JOB_START that a check refuses completes with its status, one whose data is lost RANGE; one that
passes on a device alone is Loading with its descriptor's digest and its origin, no other job touched. While Forming a member's confirmation is kept, a
refusal or a member of another profile ends the job, and so do the two time-outs; while Loading a member's result is kept or ends the job
IMAGE_REJECTED. The image that arrives is held in the image buffer.
R113 to R115, R178 to R180, Table 5.2: an image that fails a check ends its job IMAGE_REJECTED, with the sub-code shown and no valid shadow; one that passes
gives the compartment a valid shadow and the job its column groups. JOB_END waits for the step boundary of a Running job, joins one already Draining, ends a
Faulted job at once with ABORTED, and is RANGE otherwise; an Ended job gives its column groups, frames, legs and routes back, and its weight region once no
step reads a copy in it. -/
def Obligations.JobsFormLoadAndEnd : Prop :=
  (∀ (s : State), s.dev.effs = [] → let d := s.dev
    (∀ (ring tag e : Nat) (h : JobHost), CommandReady s ring tag 0x20 e →
      let D := d.began ring tag
      let j := eJob e
      let f (o n : Nat) : Nat := leNat ((h.desc.drop o).take n)
      let rt := parseRoutes h.routes (f 44 2)
      let st := D.startStatus j (d.ringComp ring) h.desc h.members rt (leNat (h.imageHead.take 128)) h.bridle s.fuse.number
      let refused (st : Nat) := s.withDev ((match rt with
        | some r => if f 44 2 ≤ 1 then D else D.tellTree r.tree (f 46 2) j 0 [st, 0]
        | none => D).answer s.ctx ring tag st)
      (exec (.jobStart ring tag none) s = .next (s.withDev ((d.count 0x2400 9 1).answer s.ctx ring tag Config.range))) ∧
      (st ≠ Config.ok → exec (.jobStart ring tag (some h)) s = .next (refused st)) ∧
      (st = Config.ok → (∀ b, tget d.jobs j = some b → b.regionHeld = true) → (tget d.jobs j).isSome = true →
        exec (.jobStart ring tag (some h)) s = .next (refused Config.noResource)) ∧
      (st = Config.ok → (∀ b, tget d.jobs j = some b → b.regionHeld = false) → d.num (0x2030 + d.ringComp ring) 1 = 0 → f 44 2 = 1 →
        ∃ t b, exec (.jobStart ring tag (some h)) s = .next t ∧ tget t.dev.jobs j = some b ∧ b.st = .loading ∧ b.comp = d.ringComp ring ∧
          b.origin = ⟨ring, tag⟩ ∧ b.digest = h.desc.take 32 ∧ b.slice = 1 ∧ b.regionHeld = true ∧ b.step = none ∧
          (∀ k, k ≠ j → tget t.dev.jobs k = tget d.jobs k) ∧ t.dev.tether.pend = d.tether.pend ∧ t.mem = s.mem)) ∧
    (∀ (job rank : Nat) (b : Job) (c : Confirm), d.alive = true → tget d.jobs job = some b → rank < b.slice → rank ≠ b.rank →
      b.confirmed.contains rank = false →
      let R := d.relay job rank 0 [c.status, c.detail, c.profile, c.mode, c.jkCheck, c.flight]
      (b.st = .forming → c.status ≠ Config.ok →
        ∃ t, exec (.formationConfirmation job rank c) s = .next t ∧ t.JobEnded job c.status ∧ ∀ k, k ≠ job → tget t.dev.jobs k = tget d.jobs k) ∧
      (b.st = .forming → c.status = Config.ok → c.profile ≠ d.profile →
        ∃ t, exec (.formationConfirmation job rank c) s = .next t ∧ t.JobEnded job Config.range) ∧
      (b.st = .forming → c.status = Config.ok → c.profile = d.profile → c.mode = d.num (0x5340 + job) 1 → c.rejoin = false →
        (b.rank = 0 → b.peerImage = false) → b.linkSlot = none →
        (b.confirmed.length + 2 < b.slice → exec (.formationConfirmation job rank c) s = .next (s.withDev (R.setJob job { b with
          confirmed := sinsert b.confirmed rank, flights := tset b.flights rank c.flight }))) ∧
        (b.confirmed.length + 2 = b.slice → (∀ p ∈ d.legs, p.1 / 4096 = job → p.2.endsAt b.rank = true → p.2.probed = true) →
          ∃ t b', exec (.formationConfirmation job rank c) s = .next t ∧ tget t.dev.jobs job = some b' ∧ b'.st = .loading ∧ b'.confirmed = [] ∧
            b'.passed = false ∧ b'.phase = b.phase ∧ b'.serial = b.serial)) ∧
      (b.st = .loading → c.status ≠ Config.ok →
        ∃ t, exec (.formationConfirmation job rank c) s = .next t ∧ t.JobEnded job c.status) ∧
      (b.st = .loading → c.status = Config.ok → b.passed = false → exec (.formationConfirmation job rank c) s = .next (s.withDev (R.setJob job
        { b with confirmed := sinsert b.confirmed rank })))) ∧
    (∀ (job : Nat) (b : Job), d.alive = true → tget d.jobs job = some b →
      (b.st = .forming → b.confirmed.length + 1 < b.slice → b.formedAt + 2 * Config.round ≤ s.time.beat →
        ∃ t, exec (.formationTimeout job) s = .next t ∧ t.JobEnded job Config.noTarget) ∧
      (b.st = .forming → b.confirmed.length + 1 = b.slice → (∃ p ∈ d.legs, p.1 / 4096 = job ∧ p.2.endsAt b.rank = true ∧ p.2.probed = false ∧
          p.2.lastProbe + 2 * Config.round ≤ s.time.beat) →
        ∃ t, exec (.probeCheckTimeout job) s = .next t ∧ t.JobEnded job Config.planMismatch) ∧
      (∀ image, b.st = .loading → d.shadowBusy b.comp job = true → ∃ t, exec (.imageArrival job image) s = .next t ∧ t.JobEnded job Config.busy ∧
        t.mem = s.mem ∧ ∀ k, k ≠ job → tget t.dev.jobs k = tget d.jobs k) ∧
      (∀ image, b.st = .loading → d.shadowBusy b.comp job = false →
        ∃ t, exec (.imageArrival job image) s = .next t ∧ tget t.dev.images job = some (image.take (2 ^ 26)) ∧
        t.mem = (match d.imageBuffer b.comp with | some a => s.mem.run (.write a (image.take (2 ^ 26))) | none => s.mem) ∧
        t.dev.jobs = d.jobs ∧ (∀ k, k ≠ job → tget t.dev.images k = tget d.images k) ∧
        ((d.canopyOf b.comp).st = .idle ∨ (d.canopyOf b.comp).st = .shadowValid → (t.dev.canopyOf b.comp).st = .loading)))) ∧
  (∀ (s : State), s.dev.effs = [] → let d := s.dev
    (∀ (job : Nat) (b : Job) (img : List Byte) (sigOk : Bool) (micros : Nat), d.alive = true → tget d.jobs job = some b →
      tget d.images job = some img → b.st = .loading → b.passed = false →
      (d.shadowBusy b.comp job = true → ∃ t, exec (.loaderComplete job sigOk micros) s = .next t ∧ t.JobEnded job Config.busy ∧ t.mem = s.mem) ∧
      (d.shadowBusy b.comp job = false → b.comp < 8 → (d.canopyOf b.comp).st = .loading →
      let D := d.setNum (0x2310 + b.comp) 9 micros
      (∀ sub, D.checkImage b.comp job b img sigOk = .error sub → ∃ t, exec (.loaderComplete job sigOk micros) s = .next t ∧
        t.JobEnded job Config.imageRejected ∧ (t.dev.canopyOf b.comp).st = .idle ∧ (t.dev.canopyOf b.comp).shadow = ImageInfo.none ∧
        t.dev.num (0x2310 + b.comp) 8 = sub * 65536 + Config.imageRejected ∧ t.mem = s.mem) ∧
      (∀ l, D.checkImage b.comp job b img sigOk = .ok l → ∃ t, exec (.loaderComplete job sigOk micros) s = .next t ∧
        tget t.dev.jobs job = some { b with passed := true, groups := l.groups } ∧ (t.dev.canopyOf b.comp).shadow = l.info ∧
        (t.dev.canopyOf b.comp).st = (if b.phase ≠ .rejoining ∧ b.confirmed.length + 1 = b.slice then .fenced else .shadowValid) ∧
        t.dev.num (0x2310 + b.comp) 8 = 0))) ∧
    (∀ (ring tag e : Nat) (cancel : Bool), CommandReady s ring tag 0x21 e → ebyte e 8 = (if cancel then 1 else 0) →
      let cmd : Instr := if cancel then .jobEndCancel ring tag else .jobEndDrain ring tag
      let D := d.began ring tag
      let later (b : Job) := s.withDev { D with
        schanges := D.schanges ++ [(⟨b.comp, some (eJob e), s.time.beat, D.cmdOrder ring tag, .endJob cancel ⟨ring, tag⟩⟩ : SChange)] }
      (tget d.jobs (eJob e) = none → exec cmd s = .next (s.withDev (D.answer s.ctx ring tag Config.range))) ∧
      (∀ b, tget d.jobs (eJob e) = some b →
        (b.st = .running → exec cmd s = .next (later b)) ∧
        (b.st = .draining → cancel = true → exec cmd s = .next (later b)) ∧
        (b.st = .draining → cancel = false →
          exec cmd s = .next (s.withDev (D.setJob (eJob e) { b with endOrigin := b.endOrigin ++ [⟨ring, tag⟩] }))) ∧
        (b.st = .faulted → ∃ t, exec cmd s = .next t ∧ t.JobEnded (eJob e) Config.aborted) ∧
        (b.st = .ended ∨ b.st = .forming ∨ b.st = .loading →
          exec cmd s = .next (s.withDev (D.answer s.ctx ring tag Config.range))))) ∧
    (∀ (job : Nat) (b : Job), tget d.jobs job = some b → b.st = .ended →
      (b.released = false → ∃ t, exec (.jobResourceRelease job) s = .next t ∧
        tget t.dev.jobs job = some { b with released := true, groups := [], freeFrames := [] } ∧ tget t.dev.routes job = none ∧
        (∀ p ∈ t.dev.legs, p.1 / 4096 ≠ job) ∧ (∀ k, k ≠ job → tget t.dev.jobs k = tget d.jobs k) ∧
        { t.dev with ports := d.ports, jobs := d.jobs, legs := d.legs, routes := d.routes } = d) ∧
      (b.regionHeld = true → (∀ r ∈ d.gens b.comp, r.2.2.role ≠ 0 → r.2.2.liftJob = job → d.stepping b.comp r.1 r.2.2.gen = false) →
        ∃ t, exec (.weightRegionRelease job) s = .next t ∧ tget t.dev.jobs job = some { b with regionHeld := false } ∧
          { t.dev with jobs := d.jobs, catalogs := d.catalogs } = d)))

/-- R188 to R190, R199 to R203, R206 to R209, R297, Tables 5.5 and 5.8: an ADMIT that a check refuses, or whose pages are not there, completes with that
status and is counted; an accepted one takes the free slot and the job's next serial at once, Admitted, its reused tokens in its history, the rest to come,
and waits for the step boundary. On a live request of the lead TRIM, SET_MASK and APPEND wait for the boundary with what they ask, an out-of-range one
is RANGE; CANCEL puts its mark at once. Without the lead's job or the request they are RANGE, or ALREADY_DONE for a serial that has been. An automaton is loaded
unless it is malformed or in use. -/
def Obligations.RequestsAreAdmittedAndChanged : Prop :=
  ∀ (s : State) (ring tag e : Nat), let d := s.dev
    let D := d.began ring tag
    let j := eJob e
    let slot := efield e 8 2
    let answers (st : Nat) := s.withDev (D.answer s.ctx ring tag st)
    (CommandReady s ring tag 1 e → ∀ toks : List Nat,
      let st := D.admitStatus e toks
      (st ≠ Config.ok → exec (.admitReq ring tag (some toks)) s = .next (s.withDev ((D.countRefusal j st).answer s.ctx ring tag st))) ∧
      (∀ b free rb g, st = Config.ok → tget d.jobs j = some b → d.freeSlot = some free →
        d.genNamed b.comp (bits (efield e 8 2) 12 0) (efield e 12 4) = some (rb, g) →
        let plen := efield e 24 4
        let total := plen + efield e 28 4
        let hs := if (efield e 10 2).testBit 2 then blockHashes g.wsid (toks.take plen) else []
        let reused := (prefixWalk b ((plen - 1) / 64) hs (toks.take plen) 0).1
        let need := pagesFor total - reused
        let blocks := if 1 < b.slice ∧ (free % b.slice = b.rank ∨ (free + 1) % b.slice = b.rank) then ceilDiv (4 * total) 4096 else 0
        let lacks := 1048576 < d.pagesReserved + need ∨
          d.framesLeft j b < (if b.tiered then 0 else need) + ceilDiv (4096 * blocks) (framePitch b.pageSize)
        (¬ lacks → ∃ t q b', exec (.admitReq ring tag (some toks)) s = .next t ∧ tget t.dev.reqs free = some q ∧ q.st = .admitted ∧ q.job = j ∧
          q.serial = admSerial b.nextAdm ∧ q.origin = ⟨ring, tag⟩ ∧ q.gen = g.gen ∧ q.history = (toks.take plen).take (64 * reused) ∧
          q.input = (toks.take plen).drop (64 * reused) ∧ q.stops = toks.drop plen ∧ q.maxNew = efield e 28 4 ∧ q.mask = .none ∧
          q.pages = newPages hs reused (pagesFor total) b.tiered b.freeFrames ∧
          (∀ k, k ≠ free → tget t.dev.reqs k = tget d.reqs k) ∧ tget t.dev.jobs j = some b' ∧
          b'.nextAdm = b.nextAdm + 1 ∧
          t.dev.schanges = d.schanges ++ [(⟨b.comp, some j, s.time.beat, d.cmdOrder ring tag, .admitted free⟩ : SChange)] ∧ t.dev.tether.pend = d.tether.pend) ∧
        (lacks → ∃ t, exec (.admitReq ring tag (some toks)) s = .next t ∧ t.dev.reqs = d.reqs ∧ t.dev.jobs = d.jobs ∧
          t.dev.schanges = d.schanges))) ∧
    (∀ b q, D.leadJob e true = some b → D.named j slot (efield e 12 4) = some q →
      let waits (c : ReqChange) := s.withDev { D with
        schanges := D.schanges ++ [(⟨b.comp, some j, s.time.beat, D.cmdOrder ring tag, .request slot c ⟨ring, tag⟩⟩ : SChange)] }
      (CommandReady s ring tag 4 e → let n := efield e 16 4
        (0 < n → n ≤ q.history.length - D.sharedToks q → exec (.trim ring tag) s = .next (waits (.trim n))) ∧
        (n = 0 ∨ q.history.length - D.sharedToks q < n → exec (.trim ring tag) s = .next (answers Config.range))) ∧
      (CommandReady s ring tag 5 e →
        (ebyte e 10 = 0 → exec (.setMaskNone ring tag) s = .next (waits (.mask .none))) ∧
        (∀ toks : List Nat, ebyte e 10 = 1 → 1 ≤ toks.length → toks.length ≤ 4096 → (∀ t ∈ toks, t ≤ 262143) →
          exec (.setMaskAllowList ring tag (some toks)) s = .next (waits (.mask (.allow toks)))) ∧
        (∀ toks : List Nat, ebyte e 10 = 1 → toks = [] ∨ 4096 < toks.length ∨ (∃ t ∈ toks, 262143 < t) →
          exec (.setMaskAllowList ring tag (some toks)) s = .next (answers Config.range)) ∧
        (∀ a, ebyte e 10 = 2 → tget b.automata (ebyte e 11) = some a → let st := efield e 28 4
          exec (.setMaskAutomaton ring tag) s = .next (if st < a.states.length then waits (.mask (.auto (ebyte e 11) st st 0))
            else answers Config.range)) ∧
        (ebyte e 10 = 2 → tget b.automata (ebyte e 11) = none → exec (.setMaskAutomaton ring tag) s = .next (answers Config.range)) ∧
        (∀ bytes a, ebyte e 10 = 3 → parseAutomaton bytes = some a →
          (D.usesAutomaton j (ebyte e 11) = true → exec (.loadAutomaton ring tag (some bytes)) s = .next (answers Config.busy)) ∧
          (D.usesAutomaton j (ebyte e 11) = false → exec (.loadAutomaton ring tag (some bytes)) s = .next (s.withDev ((D.adjJob j fun b =>
            { b with automata := tset b.automata (ebyte e 11) a }).answer s.ctx ring tag Config.ok)))) ∧
        (∀ bytes, ebyte e 10 = 3 → parseAutomaton bytes = none →
          exec (.loadAutomaton ring tag (some bytes)) s = .next (answers Config.range))) ∧
      (CommandReady s ring tag 2 e → ∀ toks : List Nat, let ahead := d.lengthAhead slot q + toks.length
        let total := max q.reserved (min 2097152 (ahead + (q.maxNew - q.made.length)))
        let more := pagesFor total - pagesFor q.reserved
        (toks = [] ∨ 2097152 < ahead → exec (.append ring tag (some toks)) s = .next (answers Config.range)) ∧
        (toks ≠ [] → ahead ≤ 2097152 → 1048576 < d.pagesReserved + more ∨ (b.tiered = false ∧ D.framesLeft j b < more) →
          exec (.append ring tag (some toks)) s = .next (s.withDev ((D.count (0x5300 + j) 6 1).answer s.ctx ring tag Config.noResource))) ∧
        (toks ≠ [] → ahead ≤ 2097152 → d.pagesReserved + more ≤ 1048576 → (b.tiered = true ∨ more ≤ D.framesLeft j b) →
          ∃ t q', exec (.append ring tag (some toks)) s = .next t ∧ tget t.dev.reqs slot = some q' ∧ q'.reserved = total ∧
            q'.pages = q.pages ++ newPages [] 0 more b.tiered b.freeFrames ∧ (∀ k, k ≠ slot → tget t.dev.reqs k = tget d.reqs k) ∧
            t.dev.schanges = d.schanges ++
              [(⟨b.comp, some j, s.time.beat, d.cmdOrder ring tag, .request slot (.append toks ((efield e 10 2).testBit 0) more) ⟨ring, tag⟩⟩ : SChange)])) ∧
      (CommandReady s ring tag 3 e → exec (.cancel ring tag) s = .next (s.withDev { D with
        reqs := tset D.reqs slot { q with cancel := q.cancel ++ [⟨ring, tag⟩] } }))) ∧
    (∀ b, D.leadJob e true = some b → D.named j slot (efield e 12 4) = none → CommandReady s ring tag 3 e →
      exec (.cancel ring tag) s = .next (answers (if 1 ≤ efield e 12 4 ∧ efield e 12 4 < b.nextAdm then Config.alreadyDone else Config.range))) ∧
    (D.leadJob e true = none ∨ D.named j slot (efield e 12 4) = none → CommandReady s ring tag 4 e →
      exec (.trim ring tag) s = .next (answers Config.range)) ∧
    (∀ n, 1 ≤ n → admSerial n ≠ 0 ∧ admSerial (n + 1) = (if admSerial n + 1 = 2 ^ 32 then 1 else admSerial n + 1))

/-- R181, R183, R185, R187, R297, Table 5.4: a catalog command that a check refuses completes with its status: a load with the status of its checks, a swap of an entry without a
staged record RANGE and of one whose swap is pending BUSY, an eviction of a generation that is not there GENERATION_GONE and of a staged one under a
pending swap or a held one without force BUSY. Accepted, each waits for the compartment's step boundary, the swap marked pending.
R184, R369, R371: LIFT_START for a resting generation that a request or a swap wants. Without its key, or with the key slot not its own, the record turns bad
with AUTH_FAIL, with a tombstone or a retired slot with KEY_RETIRED, and is counted; else, where a run of granules is free, the key goes into the slot and the record is
Lifting at that run for the job, with the transfers that the engine has no room for still to come, or bad where one is refused. LIFT_COMPLETE with no transfer open or to come
makes it Resident, counts it and takes the key out of the slot; another member's report takes it off the members
waited for, now or by the time of this member's own lift, and a member that holds no record of it says so and turns it bad with GENERATION_GONE at the lead. -/
def Obligations.CatalogCommandsAndLifts : Prop :=
  (∀ (s : State) (ring tag e : Nat), let d := s.dev
    let D := d.began ring tag
    let c := d.ringComp ring
    let wset := efield e 8 2
    let answers (st : Nat) := s.withDev (D.answer s.ctx ring tag st)
    let waits (D : Dev) (f : SEffect) := s.withDev { D with
      schanges := D.schanges ++ [(⟨c, none, s.time.beat, D.cmdOrder ring tag, f⟩ : SChange)] }
    (CommandReady s ring tag 0x10 e → ∀ digest : List Byte,
      let st := D.loadStatus s.ctx c e (lpad 32 0 digest)
      (st ≠ Config.ok → exec (.catalogLoad ring tag (some digest)) s = .next (answers st)) ∧
      (st = Config.ok → exec (.catalogLoad ring tag (some digest)) s = .next (waits D (.load wset { GenRec.none with
        wsid := efield e 16 8, gen := efield e 12 4, dir := efield e 24 8 % 2 ^ 49, tiles := efield e 32 2, keyslot := ebyte e 10 }
        (lpad 32 0 digest) ⟨ring, tag⟩)))) ∧
    (CommandReady s ring tag 0x11 e →
      (tget (d.catalog c).entries wset = none → exec (.catalogSwap ring tag) s = .next (answers Config.range)) ∧
      (∀ en, tget (d.catalog c).entries wset = some en →
        (d.compState c ≠ 1 ∨ (en.a.role ≠ 2 ∧ en.b.role ≠ 2) → exec (.catalogSwap ring tag) s = .next (answers Config.range)) ∧
        (d.compState c = 1 → en.a.role = 2 ∨ en.b.role = 2 → en.swap ≠ none → exec (.catalogSwap ring tag) s = .next (answers Config.busy)) ∧
        (d.compState c = 1 → en.a.role = 2 ∨ en.b.role = 2 → en.swap = none → exec (.catalogSwap ring tag) s = .next (waits
          (D.setCatalog c { d.catalog c with entries := tset (d.catalog c).entries wset { en with swap := some (cmdKey ring tag) } })
          (.swapCmd wset ((ebyte e 10).testBit 0) ⟨ring, tag⟩))))) ∧
    (CommandReady s ring tag 0x12 e →
      let gen := efield e 12 4
      let force := (ebyte e 10).testBit 0
      let found := (d.recsOf c wset).find? fun r => decide (r.2.gen = gen)
      (d.compState c ≠ 1 → exec (.catalogEvict ring tag) s = .next (answers Config.range)) ∧
      (d.compState c = 1 → found = none → exec (.catalogEvict ring tag) s = .next (answers Config.generationGone)) ∧
      (∀ p g, d.compState c = 1 → found = some (p, g) →
        let pendingSwap := ∃ en, tget (d.catalog c).entries wset = some en ∧ en.swap ≠ none
        (g.role = 2 ∧ pendingSwap → exec (.catalogEvict ring tag) s = .next (answers Config.busy)) ∧
        (force = false → 0 < g.hold → exec (.catalogEvict ring tag) s = .next (answers Config.busy)) ∧
        (¬ (g.role = 2 ∧ pendingSwap) → (force = true ∨ g.hold = 0) →
          exec (.catalogEvict ring tag) s = .next (waits D (.evict wset gen force ⟨ring, tag⟩)))))) ∧
  (∀ (s : State) (job wset : Nat) (recB : Bool) (b : Job), s.dev.effs = [] → s.dev.alive = true → tget s.dev.jobs job = some b → b.st = .running → b.phase = .none → b.comp < 8 →
    let d := s.dev
    let c := b.comp
    let rb := if recB then 1 else 0
    let g := d.genAt c wset rb
    let sameElse (t : State) (f : GenRec → GenRec) : Prop := t.mem = s.mem ∧ t.dev.genAt c wset rb = f g ∧ t.dev.jobs = d.jobs ∧ t.dev.reqs = d.reqs ∧
      (∀ w k, (w ≠ wset ∨ k ≠ rb) → k < 2 → t.dev.genAt c w k = d.genAt c w k)
    let turnsBad (cmd : Instr) (status : Nat) : Prop := ∃ t, exec cmd s = .next t ∧ sameElse t (fun g => { g with res := 3, badst := status, rest := [] }) ∧
      t.dev.num (0x5100 + c) 6 = satAdd (2 ^ 32 - 1) (d.num (0x5100 + c) 6) 1 ∧ t.dev.keys = d.keys
    (g.role = 0 → g.res = 0 → d.wanted c wset rb = true → b.rank ≠ 0 →
      exec (.liftStart job wset recB) s = .next (s.withDev (d.tell job 3 [wset, rb, 1]))) ∧
    ((tget (d.catalog c).entries wset).isSome = true → g.role ≠ 0 →
    (g.res = 0 → d.wanted c wset rb = true →
      (tget (d.comp c).store g.wsid = none → turnsBad (.liftStart job wset recB) Config.authFail) ∧
      (∀ sk, tget (d.comp c).store g.wsid = some sk →
        (tget d.keys g.keyslot = none → turnsBad (.liftStart job wset recB) Config.authFail) ∧
        (∀ ks, tget d.keys g.keyslot = some ks →
          (sk.tomb = true ∨ ks.kind = 5 → turnsBad (.liftStart job wset recB) Config.keyRetired) ∧
          (∀ e run, let lifting (g : GenRec) : GenRec := { g with
              res := 1, rbase := run, liftJob := job
              away := (List.range b.slice).filter fun r => decide (r ≠ b.rank) && !g.ahead.contains (job * 65536 + r)
              ahead := g.ahead.filter fun r => decide (r / 65536 ≠ job) }
            sk.tomb = false → ks.kind = 3 → ks.wsid = 0 ∨ ks.wsid = g.wsid → d.workEngine c = some e → d.freeRun job g.tiles = some run →
            ∃ t f, exec (.liftStart job wset recB) s = .next t ∧ sameElse t f ∧
              ((∃ rest, f = fun g => lifting { g with rest := rest }) ∨
                (∃ st, st ≠ Config.ok ∧ st ≠ Config.busy ∧ f = fun g => { lifting g with res := 3, badst := st, rest := [] })) ∧
              t.dev.keys = tset d.keys g.keyslot { ks with wsid := g.wsid, key := sk.key })))) ∧
    (g.res = 1 → g.rest = [] → (∀ p ∈ d.engines, ∀ r ∈ p.2.recs, r.st.live = true → r.purpose ≠ .liftGen job wset rb) →
      ∃ t, exec (.liftComplete job wset recB b.rank false) s = .next t ∧ sameElse t (fun g => { g with res := 2 }) ∧
        t.dev.num (0x5100 + c) 5 = satAdd (2 ^ 64 - 1) (d.num (0x5100 + c) 5) 1 ∧
        (∀ ks, tget d.keys g.keyslot = some ks → ks.kind = 3 → tget t.dev.keys g.keyslot = some { ks with wsid := 0, key := 0 })) ∧
    (∀ m, m ≠ b.rank →
      (g.res ≠ 0 → ∃ t, exec (.liftComplete job wset recB m false) s = .next t ∧ sameElse t (fun g => { g with away := g.away.filter fun r => decide (r ≠ m) })) ∧
      (g.res = 0 → ∃ t, exec (.liftComplete job wset recB m false) s = .next t ∧ sameElse t (fun g => { g with ahead := sinsert g.ahead (job * 65536 + m) })) ∧
      (b.rank = 0 → g.res ≠ 3 → turnsBad (.liftComplete job wset recB m true) Config.generationGone))))

/-- R23, R176, R191, R195, R214 to R216, R275, Table 5.11: how a step comes to start. A member stages the step of the staging record for the beat that it names, sends the record
on along the control tree, keeps the outcomes it
names and takes over the requests of the lead's table with their automata, letting go of those it does not name; a member that steps nothing starts it in that beat. A STEP that no job of Spar step mode can take is RANGE, one with a step open
BUSY, also where a freeze discarded it and it has not been answered (R424), one whose record fails a check completes with that status; each refusal is counted and shown. One that passes is counted and staged under the next
serial number for the beat the members agree on, and starts once that beat is reached, its serial the job's.
R24, R25, R84, R190, R195, R211, R241, R403: for a job with a step in progress. With every facet between iterations the device's own done beat is kept with its flags (window flag, injection) and the
results of its rows; another member's done beat is kept once, for a rank of the slice, and goes on along the control tree; before its boundary a step
does not end; 65,535 beats after the start, with no boundary due, the job enters Faulted with ABORTED and
alert cause 9 (a step whose boundary has come in that beat ends: the model's reading, assumption 191). A null step ends one beat after its start: the step is counted, as a null one too, its length is kept, and a job that has no request and
nothing to apply is otherwise as before. A row of a job that Faulted meanwhile still commits: its position is stored, its token joins the history. -/
def Obligations.StepsStartAndReportTheirEnd : Prop :=
  (∀ (s : State), s.dev.effs = [] → let d := s.dev
    let now := s.time.beat
    (∀ (job : Nat) (b : Job) (serial start : Nat) (gs : List GroupEntry) (rows : List BatchRow) (outs : List CmdOutcome), d.alive = true → tget d.jobs job = some b →
      b.rank ≠ 0 → b.stepping? = true → b.phase ≠ .frozen → b.phase ≠ .rejoining →
      let st : StepRec := ⟨serial, gs, rows, start, rows.all BatchRow.void, false, decide (b.phase = .restoring), none⟩
      (d.reqs = [] → exec (.stagingRecord job serial start gs rows [] outs) s = .next (s.withDev
        ((d.relay job 0 1 ([serial, start] ++ recordWords gs rows [] outs)).setJob job { b with staged := some st, applied := [outs] }))) ∧
      (∀ k : ReqCopy, d.reqs = [] → k.kv = 0 → rows = [] → ∃ t q, exec (.stagingRecord job serial start gs rows [k] outs) s = .next t ∧
        (∀ a, k.auto = some a → q.mask = .auto a.num a.state a.start a.from_ ∧
          ∃ b', tget t.dev.jobs job = some b' ∧ tget b'.automata a.num = some a.auto) ∧
        tget t.dev.reqs (b.reqKey job k.slot) = some q ∧ q.job = job ∧ q.serial = k.serial ∧ q.kv = 0 ∧ q.history = k.stream.take k.history ∧ q.input = k.stream ∧
        q.origin = ⟨k.ring, k.tag⟩ ∧ q.wset = k.wset ∧ q.gen = k.gen ∧ q.maxNew = k.maxNew ∧ ∀ i, i ≠ b.reqKey job k.slot → tget t.dev.reqs i = none)) ∧
    (∀ (ring tag e : Nat) (rec_ : List Byte), CommandReady s ring tag 0x30 e →
      let j := eJob e
      let D := d.began ring tag
      let no (D : Dev) (st : Nat) : Dev := ((D.count (0x5400 + j) 2 1).setNum (0x5400 + j) 3 st).answer s.ctx ring tag st
      (tget d.jobs j = none → exec (.step ring tag (some rec_)) s = .next (s.withDev (no D Config.range))) ∧
      (∀ b, tget d.jobs j = some b →
        let out : Prop := (∃ o st, (b.staged = some st ∨ b.step = some st ∨ b.undone = some st) ∧ st.origin = some o) ∨ b.aborts ≠ []
        (b.rank ≠ 0 ∨ b.spar = false → exec (.step ring tag (some rec_)) s = .next (s.withDev (no D Config.range))) ∧
        (b.rank = 0 → b.spar = true → out → exec (.step ring tag (some rec_)) s = .next (s.withDev (no D Config.busy))) ∧
        (b.rank = 0 → b.spar = true → ¬ out → b.st ≠ .running → b.st ≠ .draining →
          exec (.step ring tag (some rec_)) s = .next (s.withDev (no D Config.range))) ∧
        (b.rank = 0 → b.spar = true → ¬ out → b.st = .running ∨ b.st = .draining →
          (parseStep rec_ (hGroups b.header) = none → exec (.step ring tag (some rec_)) s = .next (s.withDev (no D Config.range))) ∧
          (∀ gs rs, parseStep rec_ (hGroups b.header) = some (gs, rs) →
            (D.stepStatus j b gs rs ≠ Config.ok → exec (.step ring tag (some rec_)) s = .next (s.withDev (no D (D.stepStatus j b gs rs)))) ∧
            (D.stepStatus j b gs rs = Config.ok → b.staged = none → b.step = none → b.tiered = false → j < 16 → ∃ t b' st, exec (.step ring tag (some rec_)) s = .next t ∧
              tget t.dev.jobs j = some b' ∧ b'.staged = some st ∧ b'.step = none ∧ b'.st = b.st ∧ st.serial = (b.serial + 1) % 65536 ∧ st.start = now + b.agree ∧
              st.origin = some ⟨ring, tag⟩ ∧ st.rows = D.sparRows rs ∧ t.dev.num (0x5400 + j) 1 = satAdd (2 ^ 64 - 1) (d.num (0x5400 + j) 1) 1 ∧
              t.dev.tether.pend = d.tether.pend ∧ t.mem = s.mem))))) ∧
    (∀ (job : Nat) (b : Job) (st : StepRec), d.alive = true → tget d.jobs job = some b → b.spar = true → b.staged = some st →
      (st.start ≤ now → st.groups ≠ [] → (d.supply job).startable job b = true →
        ∃ t b' st', exec (.stepStart job) s = .next t ∧ tget t.dev.jobs job = some b' ∧ b'.step = some st' ∧ b'.staged = none ∧
          b'.serial = (b.serial + 1) % 65536 ∧ st'.serial = b'.serial ∧ st'.start = now ∧ st'.rows.length = st.rows.length ∧ st'.origin = st.origin ∧
          b'.doneBeats = [] ∧ b'.plans = [] ∧ tget t.dev.stepser b.comp = some b'.serial) ∧
      (now < st.start → (∀ q ∈ d.reqs, ∀ pos, q.2.wants pos = []) → exec (.stepStart job) s = .next s)) ∧
    (∀ (job : Nat) (b : Job) (st : StepRec), d.alive = true → tget d.jobs job = some b → b.rank ≠ 0 → b.spar = false → b.step = none →
      b.staged = some st →
      (st.start ≤ now → st.groups ≠ [] → d.startable job b = true →
        ∃ t b' st', exec (.stepBoundary job) s = .next t ∧ tget t.dev.jobs job = some b' ∧ b'.step = some st' ∧ b'.staged = none ∧
          b'.serial = (b.serial + 1) % 65536 ∧ st'.serial = b'.serial ∧ st'.start = now ∧ st'.rows.length = st.rows.length) ∧
      (now < st.start ∨ d.startable job b = false → exec (.stepBoundary job) s = .next s))) ∧
  (∀ (s : State) (job : Nat) (b : Job) (st : StepRec), s.dev.effs = [] → s.dev.alive = true → tget s.dev.jobs job = some b → b.step = some st →
    let d := s.dev
    let now := s.time.beat
    let ends (t : State) (b' : Job) := exec (.stepBoundary job) s = .next t ∧ tget t.dev.jobs job = some b' ∧ b'.st = b.st ∧ b'.step = none ∧
        b'.serial = b.serial ∧ b'.staged = b.staged ∧ b'.lastStep = now - st.start ∧ b'.plans = [] ∧ b'.doneBeats = [] ∧ b'.results = [] ∧
        t.dev.num (0x5000 + job) 8 = satAdd (2 ^ 64 - 1) (d.num (0x5000 + job) 8) 1
    (∀ results digestBeats, st.null = false → b.phase = .none ∨ b.phase = .restoring → tget b.doneBeats b.rank = none →
      b.rank = 0 ∨ b.staged.isSome = true ∨ (b.spar = true ∧ b.phase = .none) → d.facetsIdle b = true → (d.supply job).supplied job = true →
      ∃ t b', exec (.doneBeat job results digestBeats) s = .next t ∧ tget t.dev.jobs job = some b' ∧
        b' = { b with doneBeats := tset b.doneBeats b.rank now, results := results, doneFlags := tset b.doneFlags b.rank (tgetD b'.doneFlags b.rank 0), freeFrames := b'.freeFrames } ∧
        ((tgetD b'.doneFlags b.rank 0).testBit 0 = d.windowFlags b fun r => decide (r ≤ 2)) ∧
        ((tgetD b'.doneFlags b.rank 0).testBit 1 = (b.inj || d.injArmed)) ∧
        (b.staged = none → b'.freeFrames = b.freeFrames ∧ ∀ k, k ≠ job → tget t.dev.jobs k = tget d.jobs k) ∧ t.mem = s.mem) ∧
    (∀ results digestBeats, d.facetsIdle b = false → exec (.doneBeat job results digestBeats) s = .next s) ∧
    (∀ rank beat flags, rank < b.slice → rank ≠ b.rank →
      let R := d.relay job rank 2 [beat, flags]
      (tget b.doneBeats rank = none → exec (.doneBeatMessage job rank beat flags) s = .next (s.withDev (R.setJob job
        { b with doneBeats := tset b.doneBeats rank beat, doneFlags := tset b.doneFlags rank flags }))) ∧
      (∀ v, tget b.doneBeats rank = some v → exec (.doneBeatMessage job rank beat flags) s = .next (s.withDev R))) ∧
    (b.boundaryDue now = false → exec (.stepBoundary job) s = .next s) ∧
    (b.boundaryDue now = true → exec (.stuckStep job) s = .next s) ∧
    (st.start + 65535 ≤ now → b.boundaryDue now = false → b.st = .running ∨ b.st = .draining →
      ∃ t, exec (.stuckStep job) s = .next t ∧ t.dev.alerts.testBit 9 = true ∧ (∀ k, k ≠ job → tget t.dev.jobs k = tget d.jobs k) ∧
        tget t.dev.jobs job = some { b with st := .faulted, before := b.st, phase := .frozen, frozenAt := now, iced := false, faultStatus := Config.aborted }) ∧
    (d.groups = [] → d.bWaiting = false → st.origin = none → job < 16 →
      (st.null = true → st.start + 1 ≤ now → b.st = .running → b.iced = false → b.staged = none → b.spar = false → d.reqs = [] → d.schanges = [] → st.rows.length ≤ 32768 → d.tether.pend = [] →
        ∃ t b', ends t b' ∧ t.dev.num (0x5000 + job) 9 = satAdd (2 ^ 64 - 1) (d.num (0x5000 + job) 9) 1 ∧ t.dev.reqs = [] ∧ t.mem = s.mem) ∧
      (∀ (r : BatchRow) (q : Req) (res : RowResult), st.null = false → b.boundaryDue now = true → b.st = .faulted → b.phase = .frozen → b.rank ≠ 0 →
        st.rows = [r] → b.results = [res] → tget d.reqs (b.reqKey job r.slot) = some q → r.void = false → r.sample = false → st.restore = false → q.serial = r.serial →
        q.st.live = true → q.kv = r.pos → q.history.length = r.pos → q.cancel = [] → q.maxNew ≠ 0 → q.pages = [] →
        ∃ t b' q', ends t b' ∧ tget t.dev.reqs (b.reqKey job r.slot) = some q' ∧ q'.kv = q.kv + 1 ∧ q'.history = q.history ++ [r.tok] ∧
          q'.input = q.input.drop 1 ∧ q'.serial = q.serial ∧ q'.st = q.st ∧ q'.made = q.made ∧
          ∀ k, k ≠ b.reqKey job r.slot → tget t.dev.reqs k = tget d.reqs k)))

/-- R226 to R230, R234, Table 6.4: who plans the rounds of a layer and group whose count record is at hand, signalled by CNTCTR, and that has no plan. In native job mode the step
controller releases NEED rounds, complete at SLICE return blocks for each round of the layer so far; in Spar step mode the plan is pending, the lead writes the record to the host's count buffer and posts a count completion
with the STEP's TAG, a plan that came before the record is released with it. ROUND_PLAN is RANGE and counted for another job or plan and for rounds below NEED or above the image's ROUNDS, ALREADY_DONE for a plan that
is not pending; one for the aborted run of a step that runs again is kept; else the rounds are released, and a device alone completes it OK. An accepted plan that reaches a member releases its rounds there; the last
member's report completes the ROUND_PLAN. -/
def Obligations.RoundsArePlannedAndReleased : Prop :=
  ∀ (s : State), s.dev.effs = [] → let d := s.dev
    (∀ (job layer group r : Nat) (b : Job) (st : StepRec), job < 64 → d.alive = true → tget d.jobs job = some b → b.routeOf layer = some r → b.step = some st → b.planning = true →
      (b.planOf layer group = none → countFor (b.countRecord s.ctx r) st.serial layer group = true →
        let need := countNeed (b.countRecord s.ctx r)
        let maxc := countMax (b.countRecord s.ctx r)
        (d.counted b r = false → exec (.planRelease job layer group) s = .next s ∧ exec (.countCompletion job layer group) s = .next s) ∧
        (b.spar = false ∨ st.restore = true → d.counted b r = true → ∃ t b' p, exec (.planRelease job layer group) s = .next t ∧
          s.RoundsReleased t job b r st layer group need ∧ tget t.dev.jobs job = some b' ∧ b'.planOf layer group = some p ∧
          p.target = b.planTarget layer need) ∧
        (∀ e, b.spar = true → st.restore = false → st.origin = none → b.rank ≠ 0 → d.counted b r = true →
          b.early.find? (fun e => decide (e.1 = layer) && decide (e.2.1 = group) && decide (e.2.2.1 = st.serial)) = some e →
          ∃ t, exec (.countCompletion job layer group) s = .next t ∧ s.RoundsReleased t job b r st layer group e.2.2.2) ∧
        (b.spar = true → st.restore = false → st.origin = none → b.rank ≠ 0 → d.counted b r = true →
          (∀ e ∈ b.early, e.1 ≠ layer ∨ e.2.1 ≠ group ∨ e.2.2.1 ≠ st.serial) →
          ∃ t b', exec (.countCompletion job layer group) s = .next t ∧ tget t.dev.jobs job = some b' ∧
            b'.planOf layer group = some ⟨layer, group, st.serial, need, maxc, 0, .pending, 0, s.time.beat, none, []⟩ ∧ t.dev.out = d.out ∧
            t.dev.tether = d.tether ∧ t.mem = s.mem) ∧
        (∀ o (p : Plan) o', b.spar = true → st.restore = false → st.origin = some o → b.rank = 0 → d.counted b r = true →
          b.rerunOf layer group st.serial = some p → p.origin = some o' → ∃ t b' p', exec (.countCompletion job layer group) s = .next t ∧
            tget t.dev.jobs job = some b' ∧ b'.planOf layer group = some p' ∧ p'.st = .released ∧ p'.rounds = p.rounds ∧ p'.origin = some o') ∧
        (∀ o, b.spar = true → st.restore = false → st.origin = some o → b.rank = 0 → d.counted b r = true →
          (∀ p, b.rerunOf layer group st.serial = some p → p.origin = none) → ∃ t b', exec (.countCompletion job layer group) s = .next t ∧
          tget t.dev.jobs job = some b' ∧ b'.planOf layer group = some ⟨layer, group, st.serial, need, maxc, 0, .pending, 0, s.time.beat, none, []⟩ ∧
          t.dev.out = d.out ++ [.hostWrite (b.countBuf + 256 * group) (b.countRecord s.ctx r)] ∧
          t.dev.tether.pend = d.tether.pend ++ [⟨o.tag, st.serial, s.time.beat, layer * 2 ^ 52 + group * 2 ^ 46 + need * 2 ^ 38 + maxc * 2 ^ 22, job, 2, 0x30,
            o.ring, 0, Config.ok, 0, false⟩] ∧ t.mem = s.mem)) ∧
      (∀ (p : Plan) (rounds : Nat), b.spar = true → b.planOf layer group = some p → p.st = .pending → ∃ t,
        exec (.roundPlanForward job b.rank layer group p.serial rounds) s = .next t ∧ s.RoundsReleased t job b r st layer group rounds ∧
        t.dev.ports = ((d.relay job 0 5 [layer, group, p.serial, rounds]).tell job 6 [layer, group, p.serial]).ports) ∧
      (∀ serial rounds, b.spar = true → b.planOf layer group = none → b.rank ≠ 0 →
        exec (.roundPlanForward job b.rank layer group serial rounds) s = .next (s.withDev ((d.relay job 0 5 [layer, group, serial, rounds]).setJob job
          { b with early := b.early ++ [(layer, group, serial, rounds)] }))) ∧
      (∀ (p : Plan) (m rounds : Nat) (o : Origin) (c : Cmd), b.spar = true → b.planOf layer group = some p → p.waiting = [m] → m ≠ b.rank → p.origin = some o → d.cmd o.ring o.tag = some c →
        ∃ t b' p', exec (.roundPlanForward job m layer group p.serial rounds) s = .next t ∧ tget t.dev.jobs job = some b' ∧ b'.planOf layer group = some p' ∧
          p'.waiting = [] ∧ p'.st = p.st ∧ (∃ k, t.dev.tether.pend = d.tether.pend ++ [k] ∧ k.tag = o.tag ∧ k.ring = o.ring ∧ k.status = Config.ok))) ∧
    (∀ (ring tag e : Nat), CommandReady s ring tag 0x31 e →
      let j := eJob e
      let D := d.began ring tag
      let no : State := s.withDev ((D.count (0x5440 + j) 0x0B 1).answer s.ctx ring tag Config.range)
      (tget d.jobs j = none → exec (.roundPlan ring tag) s = .next no) ∧
      (∀ b, tget d.jobs j = some b →
        let rounds := ebyte e 12
        (b.spar = false ∨ b.rank ≠ 0 → exec (.roundPlan ring tag) s = .next no) ∧
        (b.spar = true → b.rank = 0 → b.planOf (ebyte e 10) (ebyte e 11) = none →
          (b.rerunOf (ebyte e 10) (ebyte e 11) (efield e 8 2) = none → exec (.roundPlan ring tag) s = .next no) ∧
          (∀ p, b.rerunOf (ebyte e 10) (ebyte e 11) (efield e 8 2) = some p →
            (p.origin ≠ none → exec (.roundPlan ring tag) s = .next (s.withDev (D.answer s.ctx ring tag Config.alreadyDone))) ∧
            (p.origin = none → rounds < p.need ∨ hRounds b.header < rounds → exec (.roundPlan ring tag) s = .next no) ∧
            (p.origin = none → p.need ≤ rounds → rounds ≤ hRounds b.header → exec (.roundPlan ring tag) s = .next (s.withDev
              ((D.adjCmd ring tag fun c => { c with committed := true }).setJob j
                (b.setRerun { p with origin := some ⟨ring, tag⟩, rounds := rounds, waiting := [b.rank] })))))) ∧
        (b.spar = true → b.rank = 0 → b.planning = false → b.planOf (ebyte e 10) (ebyte e 11) ≠ none → exec (.roundPlan ring tag) s = .next no) ∧
        (b.spar = true → b.rank = 0 → b.planning = true →
          (∀ p, b.planOf (ebyte e 10) (ebyte e 11) = some p →
            (p.serial ≠ efield e 8 2 → exec (.roundPlan ring tag) s = .next no) ∧
            (p.serial = efield e 8 2 → p.st ≠ .pending → exec (.roundPlan ring tag) s = .next (s.withDev (D.answer s.ctx ring tag Config.alreadyDone))) ∧
            (p.serial = efield e 8 2 → p.st = .pending → ebyte e 12 < p.need ∨ hRounds b.header < ebyte e 12 → exec (.roundPlan ring tag) s = .next no) ∧
            (∀ r st, p.serial = efield e 8 2 → p.st = .pending → p.need ≤ ebyte e 12 → ebyte e 12 ≤ hRounds b.header → j < 64 → b.slice = 1 →
              b.routeOf (ebyte e 10) = some r → b.step = some st → ∃ t, exec (.roundPlan ring tag) s = .next t ∧
              s.RoundsReleased t j b r st (ebyte e 10) (ebyte e 11) (ebyte e 12) ∧
              ∃ k, t.dev.tether.pend = d.tether.pend ++ [k] ∧ k.tag = tag ∧ k.ring = ring ∧ k.status = Config.ok) ∧
            (∀ r st, p.serial = efield e 8 2 → p.st = .pending → p.need ≤ rounds → rounds ≤ hRounds b.header → j < 64 → 1 < b.slice →
              b.routeOf (ebyte e 10) = some r → b.step = some st → ∃ t b' p', exec (.roundPlan ring tag) s = .next t ∧
              s.RoundsReleased t j b r st (ebyte e 10) (ebyte e 11) rounds ∧ t.dev.tether.pend = d.tether.pend ∧ tget t.dev.jobs j = some b' ∧
              b'.planOf (ebyte e 10) (ebyte e 11) = some p' ∧ p'.origin = some ⟨ring, tag⟩ ∧
              p'.waiting = (List.range b.slice).filter fun m => decide (m ≠ b.rank))))))

/-- R117 to R122, R179, Table 3.12: a fenced compartment whose facets hold no flit, with every credit home and no iteration running, records its drain beat and tells
the other members of a slice; one that is not drained stays fenced, one whose reconfiguration was given up is fenced to the next beat boundary. Another member's drain
beat is kept once and goes on along the control tree. At the flip beat of a JOB_START the shadow copies become
active on every facet of the job and the old copies are not valid, the epoch turns, the flip is counted, and the job runs with the new image; before it nothing
changes. At the drain timeout the flits left are discarded and counted, the forced flip is counted, and the copies flip all the same. -/
def Obligations.ReconfigurationDrainsAndFlips : Prop :=
  ∀ (s : State) (comp : Nat), s.dev.effs = [] → s.dev.alive = true → comp < 8 →
    let d := s.dev
    let now := s.time.beat
    let k := d.canopyOf comp
    (k.staged = false → exec (.drainComplete comp) s = .next s ∧ exec (.flip comp) s = .next s ∧ exec (.forcedReconfiguration comp) s = .next s ∧
      (k.st = .fenced ∨ k.st = .flipping → d.liftFences.canopyOf comp = { k with st := .shadowValid })) ∧
    (k.st = .fenced → k.staged = true →
      (d.drained comp k = false → exec (.drainComplete comp) s = .next s) ∧
      (d.drained comp k = true →
        let D := d.setCanopy comp { k with st := .flipping, drain := some now }
        (d.canopyJob comp k = none → exec (.drainComplete comp) s = .next (s.withDev D)) ∧
        (∀ j b, d.canopyJob comp k = some (j, b) → exec (.drainComplete comp) s = .next (s.withDev (D.tell j 4 [now]))))) ∧
    (∀ j b rank beat, d.canopyJob comp k = some (j, b) → rank ≠ b.rank → rank < b.slice →
      let R := d.relay j rank 4 [beat]
      (k.staged = true → tget k.drains rank = none → exec (.drainBeatMessage comp rank beat) s = .next (s.withDev
        (R.setCanopy comp { k with drains := tset k.drains rank beat }))) ∧
      (k.staged = false ∨ tget k.drains rank ≠ none → exec (.drainBeatMessage comp rank beat) s = .next (s.withDev R))) ∧
    (k.st = .flipping → d.flipDue comp now k = false → exec (.flip comp) s = .next s) ∧
    (k.st = .fenced ∨ k.st = .flipping → now < k.fence + d.num 0x2300 1 → exec (.forcedReconfiguration comp) s = .next s) ∧
    (∀ j b, k.job = some j → tget d.jobs j = some b → b.comp = comp → b.st = .loading → b.iced = false → b.step = none → b.staged = none → (d.drainFacets comp k).Nodup →
      d.groups = [] → d.schanges = [] → d.reqs = [] →
      let flipped (t : State) : Prop :=
        (t.dev.canopyOf comp).st = .idle ∧ (t.dev.canopyOf comp).active = k.shadow ∧ (t.dev.canopyOf comp).epoch = !k.epoch ∧ (t.dev.canopyOf comp).job = none ∧
        (∀ n ∈ d.drainFacets comp k, (t.facet n).active = (s.facet n).shadow ∧ (t.facet n).shadow = { (s.facet n).active with valid := false } ∧
          (t.facet n).iq = [] ∧ (t.facet n).oq = [] ∧ (t.facet n).run = .idle ∧ (t.facet n).pc = 0) ∧
        (∀ n, n ∉ d.drainFacets comp k → t.facet n = s.facet n) ∧
        tget t.dev.jobs j = some { b with st := .running, info := k.shadow, header := k.shadow.header, confirmed := [] } ∧ t.dev.images = d.images ∧ t.mem = s.mem ∧
        t.dev.num (0x2310 + comp) 4 = satAdd (2 ^ 32 - 1) (d.num (0x2310 + comp) 4) 1
      (k.st = .flipping → d.flipDue comp now k = true → ∃ t, exec (.flip comp) s = .next t ∧ flipped t ∧ t.dev.num (0x2310 + comp) 5 = d.num (0x2310 + comp) 5) ∧
      (k.st = .fenced ∨ k.st = .flipping → k.fence + d.num 0x2300 1 ≤ now →
        let lost := (d.drainFacets comp k).foldl (fun n i => n + (s.facet i).flits) 0
        ∃ t, exec (.forcedReconfiguration comp) s = .next t ∧ flipped t ∧ t.dev.num (0x2310 + comp) 5 = satAdd (2 ^ 32 - 1) (d.num (0x2310 + comp) 5) 1 ∧
          t.dev.num (0x2310 + comp) 6 = lost ∧ t.dev.num (0x2310 + comp) 7 = satAdd (2 ^ 64 - 1) (d.num (0x2310 + comp) 7) lost))

/-- R311, R331 to R334, R340, R341, Tables 10.5 and 10.6: what a session's requests that change no object answer, on the port or as a DICT command. A HEARTBEAT of an operator or
provisioner makes the device attended, keeps the challenge and the Round, ends alert cause 4 (ALERT_N follows) and answers beat, alerts and state; READ answers its items, LIST its
descriptors, SEG_READ its segment, each RANGE where the answer would be too long or the request is malformed. An accepted SESSION_CLOSE ends the session and
aborts its Open group. A repeat of a request still kept gets the same reply and does nothing else; a DICT command waits for one accepted before it; a request still pending, one with a SEQ that was used, and one with a
wrong tag get none, the last two counted. -/
def Obligations.SessionRequestsAreAnsweredOnce : Prop :=
  ∀ (s : State) (m : OapMsg) (cmd : Instr) (e : Nat) (q : Session), Brings s m cmd e →
    let d := s.dev
    let x := s.ctx
    let f (o n : Nat) : Nat := leNat ((m.body.drop o).take n)
    (Accepts s m q →
      let D := s.served m q
      let answers (status : Nat) (body : List Byte) : Prop := ∃ t, exec cmd s = .next t ∧ s.Replied t m e (replyTo m status 0 body) ∧ t.mem = s.mem ∧
        { t.dev with out := d.out, tether := d.tether, sessions := d.sessions, objs := d.objs } = d
      (m.op = 0x04 → q.role = 2 → answers Config.accessDenied []) ∧
      (m.op = 0x04 → q.role ≠ 2 → m.body.length = 8 → ∃ t, exec cmd s = .next t ∧
        (s.withDev { d with out := d.out ++ if t.dev.alertLow = d.alertLow then [] else [.pin "ALERT_N" t.dev.alertLow] }).Replied t m e (replyTo m Config.ok 0 (leBytes 8 s.time.beat ++ leBytes 4 t.dev.alerts ++ leBytes 1 d.state.code ++ leBytes 3 0)) ∧
        t.dev.num 0x1220 2 = 0 ∧ t.dev.num 0x1220 3 = x.round ∧ t.dev.num 0x1220 4 = leNat m.body ∧ t.dev.mgrRound = x.round ∧ t.dev.alerts.testBit 4 = false ∧
        (∀ i, i ≠ 4 → t.dev.alerts.testBit i = d.alerts.testBit i)) ∧
      (m.op = 0x10 → let n := m.body.length / 4
        let out := (List.range n).flatMap fun k => D.readItem x q m.session (f (4 * k) 4 % 65536) (f (4 * k) 4 / 65536 % 256)
        (m.body.length % 4 ≠ 0 ∨ n < 1 ∨ 32 < n → answers Config.range []) ∧
        (m.body.length % 4 = 0 → 1 ≤ n → n ≤ 32 → if bodyLimit m.via < out.length then answers Config.range [] else answers Config.ok out)) ∧
      (m.op = 0x11 → (m.body.length ≠ 8 → answers Config.range []) ∧
        (m.body.length = 8 →
          let w := leNat m.body
          let os := (objList.filter fun o => decide (okey (w % 65536) (w / 65536 % 256) ≤ okey o.1 o.2.1)).take (w / 2 ^ 32 % 65536)
          let out := leBytes 2 os.length ++ leBytes 6 0 ++ os.flatMap descriptor
          if bodyLimit m.via < out.length then answers Config.range [] else answers Config.ok out)) ∧
      (m.op = 0x12 → (m.body.length ≠ 12 → answers Config.range []) ∧
        (m.body.length = 12 →
          let st := D.readable q.role q.mask m.session (f 0 2) (f 2 1) true
          let v := match objRow (f 0 2) (f 2 1) with | some r => r.wire (D.view x m.session (f 0 2) (f 2 1)) | none => []
          if st ≠ Config.ok then answers st []
          else if segLimit m.via < f 8 4 ∨ v.length < f 4 4 + f 8 4 then answers Config.range []
          else answers Config.ok (leBytes 4 v.length ++ leBytes 4 (D.changes (f 0 2) (f 2 1)) ++ (v.drop (f 4 4)).take (f 8 4)))) ∧
      (m.op = 0x03 → (d.groups.map Prod.fst).Nodup → d.finished.length + d.groups.length ≤ 64 →
        ∃ t, exec cmd s = .next t ∧ tget t.dev.sessions m.session = none ∧ (∀ k, k ≠ m.session → tget t.dev.sessions k = tget d.sessions k) ∧
          (∀ n g, tget d.groups n = some g → g.session = m.session → g.st = .opened → ∃ g', tget t.dev.groups n = some g' ∧ g'.st = .aborted ∧
            g'.status = Config.aborted ∧ g'.entries = [] ∧ g'.detail = 0) ∧
          (∀ n g, tget d.groups n = some g → g.session = m.session → g.st ≠ .opened → tget t.dev.groups n = some { g with asker := none }) ∧
          (∀ n g, tget d.groups n = some g → g.session ≠ m.session → tget t.dev.groups n = some g) ∧
          (∃ w, (w, replyTo m Config.ok 0 []) ∈ t.dev.heldReplies) ∧ t.dev.jobs = d.jobs ∧ t.mem = s.mem)) ∧
    (2 ≤ m.op → m.op ≠ 0x02 → tget d.sessions m.session = some q → sameVia q.via m.via = true →
      let D := d.brought m.via
      (m.tagOk = true →
        (∀ r, (q.replies.find? fun p => decide (p.1 = m.seq)) = some (m.seq, some r) → exec cmd s = .next (s.withDev (D.sendReply x { r with via := m.via }))) ∧
        ((q.replies.find? fun p => decide (p.1 = m.seq)) = some (m.seq, none) → exec cmd s = .next (s.withDev (D.dropMsg x m Config.busy))) ∧
        ((q.replies.find? fun p => decide (p.1 = m.seq)) = none → (m.seq = 0 ∨ (m.seq ≤ q.high ∧ (m.seq + 64 ≤ q.high ∨ q.seen.contains m.seq = true))) →
          exec cmd s = .next (s.withDev ((D.count 0x1210 6 1).dropMsg x m Config.range)))) ∧
      (m.tagOk = false → ∃ t, exec cmd s = .next t ∧ t.dev.sessions = d.sessions ∧ t.dev.num 0x1210 5 = satAdd (2 ^ 32 - 1) (d.num 0x1210 5) 1 ∧
        (t.dev.out = d.out ∨ t.dev.out = d.out ++ [.pin "ALERT_N" true]))) ∧
    (2 ≤ m.op → m.op ≠ 0x02 → tget d.sessions m.session = none → exec cmd s = .next (s.withDev ((d.brought m.via).sendReply x (refusalTo m Config.authFail)))) ∧
    (∀ (r tag r' tag' : Nat) (c c' : Cmd), r < 64 → r' < 64 → tag < 2 ^ 32 → tag' < 2 ^ 32 → d.cmd r tag = some c → d.cmd r' tag' = some c' → isDict c'.entry = true →
      c'.started = false → d.answered r' tag' = false → c'.order < c.order → ∀ msg,
      exec (.dictRead r tag msg) s = .next s ∧ exec (.dictWrite r tag msg) s = .next s ∧ exec (.dictCommit r tag msg) s = .next s)

/-- R319 to R322, R326, R327, R478, Table 10.6: GROUP_OPEN, STAGE, SEG_WRITE and GROUP_ABORT, on the port or as DICT commands. GROUP_OPEN opens an empty group under the next number unless 32
groups are open or granted. STAGE and SEG_WRITE take only an Open group of the session that sends them; they add all their entries, or the first piece or a further piece of a segmented value, or refuse with the
first entry's status and change no entry. GROUP_ABORT of an Open or Granted group aborts it, drops what its action had set up, and answers when the records are durable; a group that has ended stays as it
ended; a group whose fuse write has started makes its abort wait. -/
def Obligations.GroupsAreOpenedStagedAndAborted : Prop :=
  ∀ (s : State) (m : OapMsg) (cmd : Instr) (e : Nat) (q : Session), Brings s m cmd e → Accepts s m q →
    let d := s.dev
    let x := s.ctx
    let D := s.served m q
    let role := q.took m x.round
    let f (o n : Nat) : Nat := leNat ((m.body.drop o).take n)
    let same (t : State) : Prop := { t.dev with out := d.out, tether := d.tether, sessions := d.sessions, objs := d.objs, groups := d.groups, nextGroup := d.nextGroup } = d ∧ t.mem = s.mem
    let answers (status detail : Nat) (n : Nat) (g : Option Group) : Prop := ∃ t, exec cmd s = .next t ∧ s.Replied t m e (replyTo m status detail []) ∧ same t ∧
      t.dev.nextGroup = d.nextGroup ∧ tget t.dev.groups n = g ∧ ∀ k, k ≠ n → tget t.dev.groups k = tget d.groups k
    (m.op = 0x21 →
      (32 ≤ d.liveGroups → ∀ n, answers Config.busy 0 n (tget d.groups n)) ∧
      (d.liveGroups < 32 → ∃ t, exec cmd s = .next t ∧ s.Replied t m e { replyTo m Config.ok 0 [] with group := d.nextGroup } ∧ same t ∧
        t.dev.nextGroup = (if d.nextGroup + 1 = 2 ^ 32 then 1 else d.nextGroup + 1) ∧ (∀ k, k ≠ d.nextGroup → tget t.dev.groups k = tget d.groups k) ∧
        tget t.dev.groups d.nextGroup = some ⟨.opened, m.session, q.role, (match m.via with | .port _ => true | .ring .. => false), [], classOf [], x.round, 0, 0, 0, 0, 0, none⟩)) ∧
    (m.op = 0x22 ∨ m.op = 0x23 →
      (tget d.groups m.group = none → answers Config.range 0 m.group none) ∧
      ∀ g, tget d.groups m.group = some g →
        (g.session ≠ m.session → answers Config.accessDenied 0 m.group (some g)) ∧
        (g.session = m.session → g.st ≠ .opened → answers Config.range 0 m.group (some g)) ∧
        (g.session = m.session → g.st = .opened →
          let G := { g with lastRound := x.round }
          let E : Dev := { D with groups := tset D.groups m.group G }
          let refused (status detail : Nat) : Prop := answers status detail m.group (some G)
          let added (es : List Entry) : Prop := answers Config.ok 0 m.group (some { G with entries := es, cls := classOf es })
          (m.op = 0x22 → match parseEntries m.keyOk m.valueSig 64 m.body with
            | none => refused Config.range 0
            | some es =>
              (es = [] → refused Config.range 0) ∧
              (es ≠ [] → ∀ st k, E.stageFault x role m.enc g.entries 1 es = some (st, k) → refused st k) ∧
              (es ≠ [] → E.stageFault x role m.enc g.entries 1 es = none →
                if 256 < g.entries.length + es.length ∨ 33554432 < E.stagedBytes + es.foldl (fun n e => n + e.size) 0 then refused Config.busy 0 else added (g.entries ++ es))) ∧
          (m.op = 0x23 →
            let data := m.body.drop 16
            let st := E.writeStatus x q.role q.mask (f 0 2) (f 2 1)
            let piece : Entry := ⟨0, f 0 2, f 2 1, [], [], some (f 4 4), [(f 8 4, data)], m.keyOk, m.valueSig⟩
            let same (e : Entry) : Bool := decide (e.index = f 0 2) && decide (e.sub = f 2 1) && e.total.isSome
            (objRow (f 0 2) (f 2 1) = none ∨ m.body.length < 16 → refused Config.range 0) ∧
            ∀ r, objRow (f 0 2) (f 2 1) = some r → 16 ≤ m.body.length →
              (st ≠ Config.ok → refused st 0) ∧
              (st = Config.ok → (r.ty ≠ 0x0A ∨ segLimit m.via < data.length ∨ f 4 4 < f 8 4 + data.length ∨ r.rng.okLen (f 4 4) = false) → refused Config.range 0) ∧
              (st = Config.ok → ¬ (r.ty ≠ 0x0A ∨ segLimit m.via < data.length ∨ f 4 4 < f 8 4 + data.length ∨ r.rng.okLen (f 4 4) = false) →
                (∀ en, g.entries.find? same = some en →
                  if en.total ≠ some (f 4 4) then refused Config.range 0 else if 33554432 < E.stagedBytes + data.length then refused Config.busy 0
                  else answers Config.ok 0 m.group (some { G with entries := g.entries.map fun e => if same e then { e with pieces := e.pieces ++ [(f 8 4, data)], valueSig := m.valueSig } else e })) ∧
                (g.entries.find? same = none →
                  if composed (g.entries ++ [piece]) = false then refused Config.range 0
                  else if 256 ≤ g.entries.length ∨ 33554432 < E.stagedBytes + data.length then refused Config.busy 0 else added (g.entries ++ [piece])))))) ∧
    (m.op = 0x24 →
      (tget d.groups m.group = none → answers Config.range 0 m.group none) ∧
      ∀ g, tget d.groups m.group = some g →
        let may : Prop := g.session = m.session ∨ (q.role = 1 ∧ g.st = .opened)
        (¬ may → answers Config.accessDenied 0 m.group (some g)) ∧
        (may → g.st = .granted → g.fuses = true → ∃ t, exec cmd s = .next t ∧ t.dev.groups = d.groups ∧ t.dev.out = d.out ∧ t.mem = s.mem ∧
          t.dev.heldReplies = d.heldReplies ++ [(fuseWait, replyTo m Config.alreadyDone 0 [])]) ∧
        (may → g.live = false → ∃ t w, exec cmd s = .next t ∧ t.dev.groups = d.groups ∧ t.dev.out = d.out ∧ t.mem = s.mem ∧
          t.dev.heldReplies = d.heldReplies ++ [(w, replyTo m Config.alreadyDone 0 [])]) ∧
        (may → g.live = true → ¬ (g.st = .granted ∧ g.fuses = true) → d.finished.length < 64 → ∃ t w g', exec cmd s = .next t ∧ t.dev.out = d.out ∧ t.mem = s.mem ∧ (w, replyTo m Config.aborted 0 []) ∈ t.dev.heldReplies ∧
          tget t.dev.groups m.group = some g' ∧ g'.st = .aborted ∧ g'.status = Config.aborted ∧ g'.entries = [] ∧ (∀ k, k ≠ m.group → tget t.dev.groups k = tget d.groups k) ∧
          (∀ i k, (i ≠ 0x1100 ∨ k < 3 ∨ 6 < k) → (i ≠ 0x1200 ∨ k ≠ 8) → k < 256 → t.dev.obj i k = d.obj i k) ∧
          (∀ en, g.action = some en → en.index = 1 → (d.canopyOf (leNat (en.value.take 1))).group = some m.group →
            t.dev.canopyOf (leNat (en.value.take 1)) = { d.canopyOf (leNat (en.value.take 1)) with group := none, drain := none, drains := [] }) ∧
          (∀ en c, g.action = some en → en.index = 2 → tget (d.catalog (leNat (en.value.take 1))).entries (leNat ((en.value.drop 2).take 2)) = some c → c.swap = some (2 ^ 40 + m.group) →
            tget (t.dev.catalog (leNat (en.value.take 1))).entries (leNat ((en.value.drop 2).take 2)) = some { c with swap := none })))

/-- R319, R323 to R327, R478, R318, Tables 10.3 and 10.4: COMMIT, WRITE and GROUP_COMMIT. COMMIT puts the session's own Open group to the grant, WRITE a new group of its one entry: where a rule of an
owning chapter fails the group is Failed with that entry's status and number, where the journal has no room COMMIT_FAILED with alert cause 6 (R445), and otherwise it is Granted in this beat, with its record in the journal; no object changes either way. At
GROUP_COMMIT a granted group of class I is Failed where a guard or a rule does not hold, with no object changed, and otherwise Committed, every object it writes having the last value that the group gives it and no other
object of the dictionary changed. -/
def Obligations.GroupsAreGrantedAndCommitted : Prop :=
  (∀ (s : State) (m : OapMsg) (cmd : Instr) (e : Nat) (q : Session), Brings s m cmd e → Accepts s m q →
    let d := s.dev
    let x := s.ctx
    let D := s.served m q
    let noReply (t : State) : Prop := t.dev.out = d.out ∧ t.mem = s.mem ∧ ∀ i k, (i ≠ 0x1100 ∨ k < 3 ∨ 6 < k) → (i ≠ 0x1200 ∨ k ≠ 8) → (i ≠ 0x3000 ∨ k ≠ 4) → k < 256 → t.dev.obj i k = d.obj i k
    -- what becomes of group n, which is G, with the device E
    let put (E : Dev) (n : Nat) (G : Group) : Prop :=
      (∀ st k, E.groupFault x G = some (st, k) → d.finished.length < 64 → ∃ t, exec cmd s = .next t ∧ noReply t ∧ t.GroupEnded n G .failed st k []) ∧
      (E.groupFault x G = none → logBytes < d.journal.used + (jbytes (.grant G.cls G.jvals) + jbytes (.marker 0 0)) → d.finished.length < 64 →
        ∃ t, exec cmd s = .next t ∧ t.dev.alerts.testBit 6 = true ∧ (t.dev.out = d.out ∨ t.dev.out = d.out ++ [.pin "ALERT_N" true]) ∧ t.mem = s.mem ∧
          (∀ i k, (i ≠ 0x1000 ∨ k ≠ 0x0C) → (i ≠ 0x1100 ∨ k < 3 ∨ 6 < k) → (i ≠ 0x1200 ∨ k ≠ 8) → k < 256 → t.dev.obj i k = d.obj i k) ∧
          t.GroupEnded n G .failed Config.commitFailed 0 []) ∧
      (E.groupFault x G = none → d.journal.used + (jbytes (.grant G.cls G.jvals) + jbytes (.marker 0 0)) ≤ logBytes → ∃ t, exec cmd s = .next t ∧ noReply t ∧ t.dev.heldReplies = d.heldReplies ∧
        tget t.dev.groups n = some { G with st := .granted, grantBeat := s.time.beat, order := d.nextOrder, cls := classOf G.entries } ∧ t.dev.nextOrder = d.nextOrder + 1 ∧
        t.dev.journal.queue = d.journal.queue ++ [⟨d.journal.next, x.round, n, .grant (classOf G.entries) G.jvals⟩] ∧
        (G.fuses = true → t.dev.boot.fuseTarget = some (t.dev.afterNum G.entries 0x1300 2)) ∧
        (∀ en c, G.action = some en → en.index = 2 → tget (d.catalog (leNat (en.value.take 1))).entries (leNat ((en.value.drop 2).take 2)) = some c →
          tget (t.dev.catalog (leNat (en.value.take 1))).entries (leNat ((en.value.drop 2).take 2)) = some { c with swap := some (2 ^ 40 + n) }))
    (m.op = 0x30 → ∀ g, tget d.groups m.group = some g → g.session = m.session → g.st = .opened →
      let G := { g with asker := some ⟨m.via, m.session, m.seq, m.op⟩, lastRound := x.round }
      put { D with groups := tset D.groups m.group G } m.group G) ∧
    (m.op = 0x30 → ∀ st, (match tget d.groups m.group with
        | none => st = Config.range
        | some g => if g.session ≠ m.session then st = Config.accessDenied else g.st ≠ .opened ∧ st = Config.range) →
      ∃ t, exec cmd s = .next t ∧ s.Replied t m e (replyTo m st 0 []) ∧ t.dev.groups = d.groups) ∧
    (m.op = 0x20 → ∀ en, parseEntries m.keyOk m.valueSig 1 m.body = some [en] →
      (∀ st k, D.stageFault x (q.took m x.round) m.enc [] 1 [en] = some (st, k) → ∃ t, exec cmd s = .next t ∧ s.Replied t m e (replyTo m st k []) ∧ t.dev.groups = d.groups) ∧
      (D.stageFault x (q.took m x.round) m.enc [] 1 [en] = none → (32 ≤ d.liveGroups ∨ 33554432 < d.stagedBytes + en.size) →
        ∃ t, exec cmd s = .next t ∧ s.Replied t m e (replyTo m Config.busy 0 []) ∧ t.dev.groups = d.groups) ∧
      (D.stageFault x (q.took m x.round) m.enc [] 1 [en] = none → ¬ (32 ≤ d.liveGroups ∨ 33554432 < d.stagedBytes + en.size) →
        let G : Group := ⟨.opened, m.session, q.role, (match m.via with | .port _ => true | .ring .. => false), [en], classOf [en], x.round, 0, 0, 0, 0, 0, some ⟨m.via, m.session, m.seq, m.op⟩⟩
        put { D with groups := tset D.groups d.nextGroup G, nextGroup := if d.nextGroup + 1 = 2 ^ 32 then 1 else d.nextGroup + 1 } d.nextGroup G))) ∧
  (∀ (s : State) (n : Nat) (g : Group), s.dev.effs = [] → s.dev.pilotOn = true → tget s.dev.groups n = some g → g.st = .granted → g.cls = 0 → g.fuses = false → s.dev.finished.length < 64 →
    let d := s.dev
    let x := s.ctx
    let others (t : State) (p : Nat → Nat → Prop) : Prop := ∀ i k, p i k → (i ≠ 0x1100 ∨ k < 3 ∨ 6 < k) → k < 256 → t.dev.obj i k = d.obj i k
    (∀ st k, d.guardFault g = some (st, k) → ∃ t, exec (.groupCommit n) s = .next t ∧ t.GroupEnded n g .failed st k [] ∧ others t fun _ _ => True) ∧
    (∀ st k, d.guardFault g = none → d.groupFault x g = some (st, k) → ∃ t, exec (.groupCommit n) s = .next t ∧ t.GroupEnded n g .failed st k [] ∧ others t fun _ _ => True) ∧
    (d.guardFault g = none → d.groupFault x g = none → g.plain → ∃ t, exec (.groupCommit n) s = .next t ∧
      t.GroupEnded n g .committed Config.ok 0 (leBytes 8 g.grantBeat ++ leBytes 8 s.time.beat ++ leBytes 1 g.cls ++ leBytes 7 0) ∧
      (others t fun i k => writes g.entries i k = false) ∧
      ∀ i k, writes g.entries i k = true → (i ≠ 0x1100 ∨ k < 3 ∨ 6 < k) → k < 256 → t.dev.obj i k = d.after g.entries i k))

/-- R330, R332, R335, R348, R327, R350, Tables 10.6, 11.2, 11.4 and 11.6: HELLO answers who the device is with a nonce that the same client may use once, and changes nothing else; SESSION_OPEN with a nonce that was
given, a certificate that passes and room for a session opens one under the next audit number with the role and mask of the certificate, uses up the nonce, and answers when the audit record is durable; otherwise it opens
none and is counted and audited. A session that has been idle for 0x1210:03 Rounds closes, its Open groups aborted; an Open group that has been idle for 0x1100:07 Rounds is aborted; a permit at its end goes, with every
session that it admitted, and Gust armed under it is disarmed at the next beat boundary. Before those times each of the three commands changes nothing. (The nonce and the session's key share are free values: the model's
choice, assumption 3.) -/
def Obligations.SessionsOpenAndEnd : Prop :=
  (∀ (s : State) (m : OapMsg) (cmd : Instr) (e : Nat), Brings s m cmd e →
    let d := s.dev
    let x := s.ctx
    let b := m.body
    let key := match m.via with | .port c => Via.port c | .ring .. => Via.ring 0 0
    (m.op = 0x01 → ∃ t, exec cmd s = .next t ∧ t.mem = s.mem ∧ t.fuse = s.fuse ∧ t.time = s.time ∧
      (∀ k, k ≠ 0 → tget t.dev.sessions k = tget d.sessions k) ∧ (key, d.draws, x.round) ∈ t.dev.nonces ∧ t.dev.draws = d.draws + 1 ∧
      { t.dev with out := d.out, tether := d.tether, sessions := d.sessions, objs := d.objs, nonces := d.nonces, draws := d.draws } = d ∧
      let r : Reply := ⟨m.via, 0, m.seq, m.op, 0, Config.ok, 0, false, false, leBytes 8 s.fuse.number ++ leBytes 1 s.fuse.lifecycle ++
        leBytes 1 d.state.code ++ leBytes 1 1 ++ leBytes 1 (16 - d.sessions.length) ++ leBytes 4 0 ++ leBytes 32 (Config.random d.draws)⟩
      (match m.via with
       | .port _ => t.dev.out = d.out ++ [.reply r] ∧ t.dev.tether = d.tether
       | .ring ring tag => 96 ≤ efield e 32 4 → t.dev.out = d.out ++ [.hostWrite (efield e 24 8) r.wire] ∧
         ∃ k, t.dev.tether.pend = d.tether.pend ++ [k] ∧ k.tag = tag ∧ k.ring = ring ∧ k.status = Config.ok ∧ k.var = 96 * 2 ^ 28)) ∧
    (m.op = 0x02 →
      let role := leNat ((b.drop 120).take 1)
      let n := leNat ((b.drop 122).take 2)
      let cert := (b.drop 124).take n
      let formed : Prop := 124 ≤ b.length ∧ role ≤ 2 ∧ 1 ≤ n ∧ n ≤ 1024 ∧ b.length = 238 + n
      let nonce (p : Via × Nat × Nat) : Prop := p ∈ d.nonces ∧ leBytes 32 (Config.random p.2.1) = (b.drop 88).take 32 ∧ x.round ≤ p.2.2 + 1 ∧
        (match m.via, p.1 with | .port c, .port c' => c = c' | .ring .., .ring .. => True | _, _ => False)
      let refused (st : Nat) : Prop := ∃ t, exec cmd s = .next t ∧ t.mem = s.mem ∧ t.fuse = s.fuse ∧ t.time = s.time ∧
        t.dev.num 0x1210 4 = satAdd (2 ^ 32 - 1) (d.num 0x1210 4) 1 ∧ t.dev.journal.auditNext = d.journal.auditNext + 1 ∧
        (∃ w, t.dev.heldReplies = d.heldReplies ++ [(w, refusalTo m st)]) ∧
        { t.dev with
          out := d.out, tether := d.tether, objs := d.objs, journal := d.journal, heldReplies := d.heldReplies, nonces := d.nonces, alerts := d.alerts
          notifyDue := d.notifyDue, authFails := d.authFails, authRound := d.authRound } = d
      (¬ formed → refused Config.range) ∧
      (formed → (∀ p, ¬ nonce p) → refused Config.authFail) ∧
      ∀ p, formed → nonce p →
        (∀ st permit, d.openStatus x m role cert = (st, permit) → st ≠ Config.ok → refused st) ∧
        (∀ permit, d.openStatus x m role cert = (Config.ok, permit) →
          let num := (d.journal.auditNext + 1) % 2 ^ 32
          ∃ t, exec cmd s = .next t ∧ t.mem = s.mem ∧ t.fuse = s.fuse ∧ t.time = s.time ∧ p ∉ t.dev.nonces ∧
            t.dev.journal.auditNext = d.journal.auditNext + 1 ∧
            t.dev.sessions = tset d.sessions num ⟨role, if role = 0 then leNat ((cert.drop 6).take 1) else 0xFF, m.via, x.round, x.round, 0, [], [], none, permit⟩ ∧
            (∃ w body, t.dev.heldReplies = d.heldReplies ++ [(w, { replyTo m Config.ok 0 body with session := num })] ∧
              body.take 8 = leBytes 4 num ++ leBytes 1 role ++ leBytes 3 0) ∧
            { t.dev with
              tether := d.tether, objs := d.objs, journal := d.journal, heldReplies := d.heldReplies, nonces := d.nonces, sessions := d.sessions
              draws := d.draws } = d))) ∧
  (∀ (s : State) (n : Nat), s.dev.effs = [] →
    let d := s.dev
    let round := s.time.beat / Config.round
    ((tget d.sessions n = none ∨ d.pilotOn = false ∨ (∃ q, tget d.sessions n = some q ∧ round < q.last + d.num 0x1210 3)) →
      exec (.sessionIdleTimeout n) s = .next s) ∧
    ((∀ g, tget d.groups n = some g → g.st = .opened → d.pilotOn = false ∨ round < g.lastRound + d.num 0x1100 7) →
      exec (.groupIdleExpiry n) s = .next s) ∧
    ((∀ p, tget d.permits n = some p → d.boot.porstLow = true ∨ round < p.endRound) → exec (.permitExpiry n) s = .next s) ∧
    (d.pilotOn = true → (d.groups.map Prod.fst).Nodup → d.finished.length + d.groups.length ≤ 64 →
      let kept (t : State) (ss : Tab Session) : Prop := t.mem = s.mem ∧ t.fuse = s.fuse ∧ t.time = s.time ∧ t.dev.sessions = ss ∧
        { t.dev with sessions := d.sessions, groups := d.groups, finished := d.finished, objs := d.objs, journal := d.journal, heldReplies := d.heldReplies } = d
      (∀ q, tget d.sessions n = some q → q.last + d.num 0x1210 3 ≤ round →
        ∃ t, exec (.sessionIdleTimeout n) s = .next t ∧ kept t (terase d.sessions n) ∧ t.dev.journal.auditNext > d.journal.auditNext ∧
          (∀ k g, tget d.groups k = some g → g.session = n → g.st = .opened → t.GroupEnded k { g with asker := none } .aborted Config.aborted 0 []) ∧
          (∀ k g, tget d.groups k = some g → g.session = n → g.st ≠ .opened → tget t.dev.groups k = some { g with asker := none }) ∧
          (∀ k g, tget d.groups k = some g → g.session ≠ n → tget t.dev.groups k = some g)) ∧
      (∀ g, tget d.groups n = some g → g.st = .opened → g.lastRound + d.num 0x1100 7 ≤ round →
        ∃ t, exec (.groupIdleExpiry n) s = .next t ∧ kept t d.sessions ∧ t.GroupEnded n g .aborted Config.aborted 0 [] ∧
          t.dev.num 0x1100 5 = satAdd (2 ^ 32 - 1) (d.num 0x1100 5) 1 ∧ ∀ k, k ≠ n → tget t.dev.groups k = tget d.groups k)) ∧
    (∀ p, tget d.permits n = some p → d.boot.porstLow = false → p.endRound ≤ round → (d.sessions.map Prod.fst).Nodup →
      ∃ t, exec (.permitExpiry n) s = .next t ∧ t.dev.permits = terase d.permits n ∧ t.mem = s.mem ∧ t.fuse = s.fuse ∧ t.time = s.time ∧
        (∀ i q, tget d.sessions i = some q → tget t.dev.sessions i = if q.permit = some n then none else some q) ∧
        t.dev.gust.disarmDue = (d.gust.disarmDue || (d.gust.armed && decide (d.gust.permit = some n))) ∧ t.dev.gust.armed = d.gust.armed ∧
        t.dev.journal.auditNext > d.journal.auditNext ∧ t.dev.jobs = d.jobs ∧ t.dev.out = d.out ∧
        ((∀ i q, tget d.sessions i = some q → q.permit ≠ some n) → t.dev.sessions = d.sessions ∧ t.dev.groups = d.groups)))

/-- R337 to R341, R344, Table 10.8: the management port. While it is up a neighbor solicitation or an echo request in an untagged frame of EtherType 86DDH and at most 1,518 bytes from a link-local source is answered, any
other is dropped, and each is counted; while it is down nothing
happens. The link comes up into duplicate-address detection, which ends in the port's mode or in silence; a follower that loses the PLCA beacon falls back to CSMA/CD, counted, and returns when it sees the beacon again. When the orphan timeout
has run out since the last HEARTBEAT and the replay the device is orphaned, which is counted and sets alert cause 4.
R451 to R453, R457 to R460: the TAP instructions select their register and IDCODE shifts out 17620C2DH; a boundary-scan instruction takes effect only while Stopped or in SYSRST_N, and BYPASS runs in its place otherwise; the unlock
exchange opens the TAP where it is signed and, in Deployed, while a maker-access permit lasts. When Gust's run length is over every control is disarmed. At a sampling boundary of a compartment every queue of each of its facets
is counted once in the bin of its depth. -/
def Obligations.ThePortKeepsItsLinkAndTestAccess : Prop :=
  (∀ s : State, s.dev.effs = [] →
    let d := s.dev
    let P (n : Nat) : State := s.withDev { d with portState := n }
    (∀ client net data, ∀ c ∈ [(Instr.neighborSolicitation client net, Out.advertise client), (Instr.echoRequest client net data, Out.echo client data)],
      (d.portUp = false → exec c.1 s = .next s) ∧
      (d.portUp = true → netOk net = true → ∃ t, exec c.1 s = .next t ∧ t.dev.out = d.out ++ [c.2] ∧ t.dev.num 0x1200 8 = satAdd (2 ^ 64 - 1) (d.num 0x1200 8) 1 ∧
        t.dev.num 0x1200 9 = satAdd (2 ^ 64 - 1) (d.num 0x1200 9) 1 ∧ t = s.withDev { d with out := t.dev.out, objs := t.dev.objs } ∧
        ∀ i k, k < 256 → (i ≠ 0x1200 ∨ (k ≠ 8 ∧ k ≠ 9)) → t.dev.obj i k = d.obj i k) ∧
      (d.portUp = true → netOk net = false → ∃ t, exec c.1 s = .next t ∧ t.dev.num 0x1200 8 = satAdd (2 ^ 64 - 1) (d.num 0x1200 8) 1 ∧
        t.dev.num 0x1200 0x0C = satAdd (2 ^ 32 - 1) (d.num 0x1200 0x0C) 1 ∧ t = s.withDev { d with objs := t.dev.objs } ∧
        ∀ i k, k < 256 → (i ≠ 0x1200 ∨ (k ≠ 8 ∧ k ≠ 0x0C)) → t.dev.obj i k = d.obj i k)) ∧
    exec .phyLinkUp s = .next (if d.boot.porstLow = false ∧ d.portState = 0 then P 5 else s) ∧
    (∀ dup, exec (.duplicateAddressDetection dup) s = .next (if d.portState = 5 then P (if dup then 4 else if d.num 0x1200 1 = 0 then 1 else if d.num 0x1200 2 = 0 then 3 else 2) else s)) ∧
    exec .phyLinkDown s = .next (P 0) ∧
    (d.portState ≠ 2 → exec .plcaBeaconLoss s = .next s) ∧
    (d.portState = 2 → ∃ t, exec .plcaBeaconLoss s = .next t ∧ t = s.withDev { d with portState := 1, objs := t.dev.objs } ∧ t.dev.num 0x1200 0x0B = satAdd (2 ^ 32 - 1) (d.num 0x1200 0x0B) 1 ∧
      ∀ i k, k < 256 → (i ≠ 0x1200 ∨ k ≠ 0x0B) → t.dev.obj i k = d.obj i k) ∧
    exec .plcaBeaconSeen s = .next (if d.portState = 1 ∧ d.num 0x1200 1 ≠ 0 ∧ d.num 0x1200 2 ≠ 0 then P 2 else s) ∧
    (let late : Prop := d.pilotOn = true ∧ d.num 0x1220 2 ≠ 1 ∧ max d.mgrRound d.mgrBase + d.num 0x1220 1 ≤ s.time.beat / Config.round
     (¬ late → exec .orphanTimeout s = .next s) ∧
     (late → ∃ t, exec .orphanTimeout s = .next t ∧ t.dev.num 0x1220 2 = 1 ∧ t.dev.num 0x1220 5 = satAdd (2 ^ 32 - 1) (d.num 0x1220 5) 1 ∧ t.dev.alerts.testBit 4 = true ∧
       (∀ i, i ≠ 4 → t.dev.alerts.testBit i = d.alerts.testBit i) ∧ (t.dev.out = d.out ∨ t.dev.out = d.out ++ [.pin "ALERT_N" true]) ∧
       t = s.withDev { d with out := t.dev.out, objs := t.dev.objs, alerts := t.dev.alerts, notifyDue := t.dev.notifyDue })) ∧
    (∀ n : NetFrame, netOk n = true ↔ n.tagged = false ∧ n.etherType = 0x86DD ∧ n.bytes ≤ 1518 ∧ n.linkLocal = true ∧ n.plain = true)) ∧
  (∀ s : State, s.dev.effs = [] →
    let d := s.dev
    let T (t : Tap) : State := s.withDev { d with tap := t }
    let scan (t : Tap) : State := if d.state = .stopped ∨ d.boot.sysrstLow = true then T t else T .bypass
    exec .bypass s = .next (T .bypass) ∧ exec .idcode s = .next (s.withDev { d with tap := .idcode, out := d.out ++ [.tdo 0x17620C2D] }) ∧ exec .samplePreload s = .next (T .samplePreload) ∧
    exec .extest s = .next (scan .extest) ∧ exec .clamp s = .next (scan .clamp) ∧ exec .extestPulse s = .next (scan .extestPulse) ∧ exec .extestTrain s = .next (scan .extestTrain) ∧
    (∀ sig, exec (.unlockExchange sig) s = .next (if sig = true ∧ (s.fuse.lifecycle ≠ 2 ∨ ∃ p ∈ d.permits, p.2.kind = 1) then s.withDev { d with unlocked := true } else s)) ∧
    (let ended : Prop := d.gust.armed = true ∧ d.num 0x6000 5 ≠ 0 ∧ d.gust.beat + d.num 0x6000 5 ≤ s.time.beat
     (¬ ended → exec .gustRunEnd s = .next s) ∧
     (ended → ∃ t, exec .gustRunEnd s = .next t ∧ t.dev.gust = { d.gust with armed := false, disarmDue := false, permit := none } ∧ t.dev.num 0x6000 2 = 0 ∧
       t = s.withDev { d with gust := t.dev.gust, objs := t.dev.objs })) ∧
    (∀ c m, tget d.samp c = some m →
      let due : Prop := d.alive = true ∧ d.compState c = 1 ∧ m.on = true ∧ m.from_ ≤ s.time.beat ∧ (s.time.beat - m.from_) % max 1 (d.num (0x7010 + c) 1) = 0
      (¬ due → exec (.sample c) s = .next s) ∧
      (due → ∃ t m', exec (.sample c) s = .next t ∧ t = s.withDev { d with samp := tset d.samp c m' } ∧ m' = { m with samples := satAdd (2 ^ 32 - 1) m.samples 1, bins := m'.bins } ∧
        (∀ n q, n ∈ facetsOf (d.num (0x4100 + c) 2) → q < 16 → tgetD m'.bins (n * 272 + q * 17 + min 16 (ceilDiv ((d.facet n).depth q) 4)) 0 =
          satAdd (2 ^ 32 - 1) (tgetD m.bins (n * 272 + q * 17 + min 16 (ceilDiv ((d.facet n).depth q) 4)) 0) 1) ∧
        (∀ k, (∀ n q, n ∈ facetsOf (d.num (0x4100 + c) 2) → q < 16 → k ≠ n * 272 + q * 17 + min 16 (ceilDiv ((d.facet n).depth q) 4)) → tgetD m'.bins k 0 = tgetD m.bins k 0))))

/-- R307, R185, R127, R326, Tables 9.5 and 9.8: ABORT. A target that names no ring is RANGE, one of another compartment ACCESS_DENIED, one whose TAG was not seen or whose opcode cannot be aborted RANGE. A target that has completed or passed its
commit point is ALREADY_DONE and goes on. One that waits to run completes ABORTED and never runs; a staged STEP is dropped and its ranks are told, its status shown (Table 5.17); a pending CATALOG_SWAP is dropped with its record still staged; a SCAN_OUT stops with its facets
to resume at the next beat boundary; each completes ABORTED, and so does the ABORT. While a target's commit waits for a fuse write the ABORT waits. -/
def Obligations.CommandsAreAborted : Prop :=
  ∀ (s : State) (ring tag e : Nat), CommandReady s ring tag 0x60 e →
    let d := s.dev
    let D := d.began ring tag
    let r := ebyte e 8
    let g := efield e 12 4
    let waits : Prop := ∃ n k, d.groupOfCmd r g = some (n, k) ∧ k.st = .granted ∧ k.fuses = true
    let is (X : Dev) : Prop := exec (.abort ring tag) s = .next (s.withDev X)
    let answers (st : Nat) : Prop := is (D.answer s.ctx ring tag st)
    let both (X : Dev) : Prop := is ((X.answer s.ctx r g Config.aborted).answer s.ctx ring tag Config.aborted)
    (waits → exec (.abort ring tag) s = .next s) ∧
    (¬ waits →
      (r = 0 ∨ 63 < r → answers Config.range) ∧
      (r ≠ 0 → r ≤ 63 → d.ringComp r ≠ d.ringComp ring → answers Config.accessDenied) ∧
      (r ≠ 0 → r ≤ 63 → d.ringComp r = d.ringComp ring →
        (tget (d.ring r).seen g = none → answers Config.range) ∧
        ∀ op, tget (d.ring r).seen g = some op →
          (abortable op = false → answers Config.range) ∧
          (abortable op = true → (d.cmd r g = none ∨ op = 0x31 ∨ d.answered r g = true) → answers Config.alreadyDone) ∧
          ∀ c, abortable op = true → D.cmd r g = some c → op ≠ 0x31 → d.answered r g = false →
            (c.started = false → is ((D.turnAway s.ctx r g c.entry Config.aborted).answer s.ctx ring tag Config.aborted)) ∧
            (c.started = true →
              (D.abortRunning s.ctx r g op = none → answers Config.alreadyDone) ∧
              (∀ j b, op = 0x30 → (d.jobs.find? fun p => match p.2.staged with | some st => decide (st.origin = some ⟨r, g⟩) | none => false) = some (j, b) →
                both (((D.setJob j { b with staged := none }).sendStaging j).setNum (0x5400 + j) 3 Config.aborted)) ∧
              (∀ q, op = 0x11 → (d.schanges.find? fun p => match p.effect with | .swapCmd _ _ o => decide (o = ⟨r, g⟩) | _ => false) = some q →
                let k := d.catalog q.comp
                both { (D.setCatalog q.comp { k with entries := tmap k.entries fun _ en => if en.swap = some (cmdKey r g) then { en with swap := none } else en }) with
                  schanges := d.schanges.filter fun p => !(match p.effect with | .swapCmd _ _ o => decide (o = ⟨r, g⟩) | _ => false) }) ∧
              (∀ c k j b, op = 0x50 → (d.scans.find? fun p => decide (p.2.ring = r) && decide (p.2.tag = g)) = some (c, k) → D.scanJob k = some (j, b) →
                both { D with scans := terase d.scans c, resume := (k.facets.map fun l => physFacet b.groups l).foldl sinsert d.resume }))))

/-- R405, R406, R412, R420, R421, R423 to R425, Table 13.6: how a job's recovery goes on at a survivor that is not the lead. At the beat boundary after it Faulted the slice freezes: its facets hold with their flits discarded and counted, its legs are empty, its plans and its
staged step go, its step in progress stays. At the rejoin's end an uncommitted step in progress becomes the discarded one, facets start their programs anew, and each live request goes back to its first position, or its page's in shadow mode, its positions to be written again. When
nothing is left to restore the job is back in the state it had, which is counted. A job whose recovery has lasted its timeout ends ABORTED. -/
def Obligations.JobsRecover : Prop :=
  ∀ (s : State) (job : Nat) (b : Job), s.dev.effs = [] → s.dev.alive = true → tget s.dev.jobs job = some b → job < 64 →
    let d := s.dev
    let now := s.time.beat
    (b.st = .faulted → b.phase = .frozen → b.iced = false → b.frozenAt < now → (∀ p ∈ d.engines, ∀ r ∈ p.2.recs, r.st.open = true → d.descOfJob job b r = false) →
      d.groups = [] → (d.canopyOf b.comp).group = none →
      ∃ t, exec (.sliceFreeze job) s = .next t ∧
        tget t.dev.jobs job = some { b with iced := true, plans := [], early := [], reruns := [], staged := none, aborts := b.aborts ++ (match b.staged with | some st => st.origin.toList | none => []) } ∧
        (∀ n ∈ b.facets, t.facet n = { s.facet n with frozen := true, iq := [], oq := [], bufs := [], arriving := [], grps := [] }) ∧
        (∀ n, n ∉ b.facets → t.facet n = s.facet n) ∧ t.dev.legs = tmap d.legs (fun k l => if k / 4096 = job then { l with tx := [], backlog := [], rx := [] } else l) ∧
        t.dev.num (0x5340 + job) 9 = satAdd (2 ^ 64 - 1) (d.num (0x5340 + job) 9) (d.jobFlits job b) ∧ t.dev.num (0x5340 + job) 7 = now ∧
        ((∀ p ∈ b.plans ++ b.reruns, p.waiting = []) → t.dev.tether = d.tether) ∧
        { t.dev with facets := d.facets, legs := d.legs, jobs := d.jobs, objs := d.objs, tether := d.tether } = d ∧ t.mem = s.mem) ∧
    (∀ committed, b.st = .faulted → b.phase = .rejoining → b.rank ≠ 0 → b.staged = none → (b.step = none ∨ committed = false) →
      (∀ k ∈ d.reqsOf job, b.mirrorsLost (k % 16384) = false) →
      ∃ t, exec (.rejoinComplete job committed) s = .next t ∧ tget t.dev.jobs job = some { b.discard with phase := .restoring, iced := false } ∧
        (∀ n ∈ b.facets, t.facet n = { (s.facet n).startProgram d.execBeats true with frozen := false }) ∧ (∀ n, n ∉ b.facets → t.facet n = s.facet n) ∧
        (∀ k q, tget d.reqs k = some q → tget t.dev.reqs k = some (if q.job = job ∧ q.st.live = true then
          q.replayFrom (if d.num (0x5340 + job) 1 = 1 then 64 * (q.kv / 64) else 0) else q)) ∧
        { t.dev with facets := d.facets, reqs := d.reqs, jobs := d.jobs, gwCredits := d.gwCredits } = d ∧ t.mem = s.mem) ∧
    (b.st = .faulted → b.before = .running → b.phase = .restoring → b.step = none → b.staged = none → b.undone = none → b.aborts = [] → b.rank ≠ 0 →
      d.groups = [] → d.schanges = [] → d.reqs = [] →
      ∃ t, exec (.restoreComplete job) s = .next t ∧ tget t.dev.jobs job = some { b with st := .running, phase := .none, failed := [], confirmed := [] } ∧
        t.dev.num (0x5340 + job) 5 = satAdd (2 ^ 32 - 1) (d.num (0x5340 + job) 5) 1 ∧ t.dev.num (0x5340 + job) 6 = msOf (now - b.frozenAt) ∧ t.dev.facets = d.facets ∧ t.mem = s.mem) ∧
    (b.phase = .restoring → (b.step ≠ none ∨ ∃ p ∈ d.reqs, p.2.job = job ∧ p.2.st.live = true ∧ p.2.kv < p.2.replayTo) → exec (.restoreComplete job) s = .next s) ∧
    (b.phase ≠ .none → b.st ≠ .ended → (if b.st = .loading ∨ b.st = .forming then b.formedAt else b.frozenAt) + d.num (0x5340 + job) 4 * Config.round ≤ now →
      ∃ t, exec (.recoveryTimeout job) s = .next t ∧ t.JobEnded job Config.aborted)

/-- R373 to R375: a teardown waits for its aborted descriptors' board accesses, 4,096 beats at most; then each access still open is counted as abandoned and
forgotten, its descriptors are Aborted with nothing outstanding, and scrub starts. When scrub is done every unit of the compartment holds the pattern of its draw, units that failed to compare are out of
service with the state object and, for a package, the alert that say so, the compartment's keys are gone, the scrub is counted with its status and its time, the compartment is Quarantined, or Free where nothing keeps it, and
a teardown record says so. Nothing else of the device changes, and where no teardown has come to its step neither command changes anything. (The pattern is of a free draw: the model's choice, assumption 3.) -/
def Obligations.TeardownWaitsAndScrubs : Prop :=
  ∀ (s : State) (comp : Nat), s.dev.effs = [] → comp < 8 →
    let d := s.dev
    let now := s.time.beat
    let k := d.comp comp
    (d.alive = false ∨ d.compState comp ≠ 2 ∨ k.tearStep ≠ 1 → exec (.teardownWaitEnd comp) s = .next s) ∧
    (d.alive = false ∨ d.compState comp ≠ 2 ∨ k.tearStep ≠ 2 → ∀ badDevices badPackages, exec (.scrubDone comp badDevices badPackages) s = .next s) ∧
    (d.alive = true → d.compState comp = 2 → k.tearStep = 1 →
      (0 < d.openAccesses comp → now < k.tearBeat + 4096 → exec (.teardownWaitEnd comp) s = .next s) ∧
      (d.openAccesses comp = 0 ∨ k.tearBeat + 4096 ≤ now → ∃ t, exec (.teardownWaitEnd comp) s = .next t ∧
        t.dev.comp comp = { k with tearStep := 2, tearBeat := now } ∧ (∀ c, c ≠ comp → t.dev.comp c = d.comp c) ∧
        t.dev.num 0x4180 4 = (if d.openAccesses comp = 0 then d.num 0x4180 4 else satAdd (2 ^ 32 - 1) (d.num 0x4180 4) (d.openAccesses comp)) ∧
        t.dev.board = tfilter d.board (fun _ r => !d.accessOf comp r) ∧
        t.dev.engines = tmap d.engines (fun _ g => { g with recs := g.recs.map fun r => if sdComp r.desc = comp then { r with remote := [], st := if r.st.live then .aborted else r.st } else r }) ∧
        (∃ r ∈ t.dev.journal.queue, r.pay = .teardown comp 5 0) ∧ t.mem = s.mem ∧ t.fuse = s.fuse ∧ t.time = s.time ∧
        { t.dev with comps := d.comps, engines := d.engines, board := d.board, journal := d.journal, objs := d.objs } = d)) ∧
    (d.alive = true → d.compState comp = 2 → k.tearStep = 2 → ∀ badDevices badPackages,
      let gs := maskBits 16 (d.num (0x4100 + comp) 3)
      let ps := maskBits 8 (d.num (0x4100 + comp) 4)
      let bad := (gs.filter fun g => badDevices.testBit g) ++ (ps.filter fun p => badPackages.testBit p).map (· + 16)
      ∃ t, exec (.scrubDone comp badDevices badPackages) s = .next t ∧
        t.mem = (gs ++ ps.map (16 + ·)).foldl (fun m u => m.scrub u k.tearDraw) s.mem ∧
        t.dev.outUnits = bad.foldl sinsert d.outUnits ∧ t.dev.keys = (d.slotsOf comp).foldl terase d.keys ∧
        (∀ g ∈ gs, badDevices.testBit g = true → t.dev.num (0x4010 + g) 5 = 3) ∧
        (∀ p ∈ ps, badPackages.testBit p = true → t.dev.num (0x4020 + p) 5 = 3 ∧ t.dev.alerts.testBit 1 = true) ∧
        t.dev.num 0x4180 1 = satAdd (2 ^ 32 - 1) (d.num 0x4180 1) 1 ∧ t.dev.num 0x4180 3 = msOf (now - k.tearBeat) ∧
        (bad ≠ [] → t.dev.num 0x4180 2 = satAdd (2 ^ 32 - 1) (d.num 0x4180 2) bad.length) ∧
        t.dev.num (0x4100 + comp) 0x14 = (if bad = [] then Config.ok else Config.poison) ∧
        t.dev.compState comp = (if d.num (0x4100 + comp) 0x11 = 0 then 0 else 3) ∧
        (t.dev.comp comp).tearStep = 0 ∧ (t.dev.comp comp).kw = none ∧ (∀ c, c ≠ comp → t.dev.comp c = d.comp c) ∧
        (∃ r ∈ t.dev.journal.queue, r.pay = .teardown comp 7 0) ∧ t.fuse = s.fuse ∧ t.time = s.time ∧
        { t.dev with
          objs := d.objs, chg := d.chg, journal := d.journal, comps := d.comps, keys := d.keys, outUnits := d.outUnits, alerts := d.alerts
          notifyDue := d.notifyDue, out := d.out } = d)

/-- R148, R413 to R415, R417 to R419, R423: the re-protection sweep takes the next stripe: the member's Dirty bit goes, a parity holder writes the parity of the data shards given
where a bit was set, the sweep moves on and a checkpoint is shown; the sweep stays where no job that runs in the compartment has every member. A rebuild
writes this member's shard, made from the others', at its place, is counted and journalled; a stripe of which too few shards are left, or that was
unprotected, is counted as lost, its bytes stay and the generations in it turn bad with POISON. A decoded page of a replacement in shadow mode is written behind its header into its frame with
64 valid tokens, once; where the tag of a parity frame does not verify, the request's history from that page on runs again, and the lead is told (that the decode
says so is the model's reading, assumption 186). Each of the three commands changes nothing else. -/
def Obligations.StripesAreProtectedAndRebuilt : Prop :=
  ∀ (s : State) (comp : Nat), s.dev.effs = [] → s.dev.winchOn = true → comp < 8 →
    let d := s.dev
    let n := d.num (0x4200 + comp) 2
    let m := d.num (0x4200 + comp) 3
    let stripes := d.num (0x4200 + comp) 6 / shardBytes
    let runs := d.jobs.any fun p => decide (p.2.comp = comp) && decide (p.2.st = .running) && (d.groupMembers comp).all fun v => p.2.members.contains v
    let sameWorld (t : State) : Prop := t.fuse = s.fuse ∧ t.time = s.time
    (∀ dirty shards, d.state ≠ .moored → 2 ≤ n → stripes ≠ 0 → (dirty = true → shards.length = n - m) →
      (runs = false → exec (.reProtection comp dirty shards) s = .next s) ∧
      (runs = true →
        let u := tgetD d.sweep comp 0 % stripes
        let q := d.roleIn comp u
        let pass := tgetD d.sweep (8 + comp) 0
        ∃ t, exec (.reProtection comp dirty shards) s = .next t ∧ sameWorld t ∧
          t.mem = (if n - m ≤ q ∧ dirty = true then
            s.mem.write (d.shardAddr comp u) (rsParity (q - (n - m)) shardBytes (shards.map fun b => lpad shardBytes 0 b)) else s.mem) ∧
          t.dev.dirtySet = serase d.dirtySet (stripeKey comp u) ∧ t.dev.unprot = serase d.unprot (stripeKey comp u) ∧
          tgetD t.dev.sweep comp 0 = (u + 1) % stripes ∧ tgetD t.dev.sweep (8 + comp) 0 = (if (u + 1) % stripes = 0 then pass + 1 else pass) ∧
          (∀ c, c ≠ comp → c ≠ 8 + comp → tget t.dev.sweep c = tget d.sweep c) ∧
          t.dev.num (0x4200 + comp) 9 = u ∧ (∃ r ∈ t.dev.journal.queue, r.pay = .checkpoint comp u pass 1) ∧
          { t.dev with dirtySet := d.dirtySet, unprot := d.unprot, sweep := d.sweep, objs := d.objs, journal := d.journal } = d)) ∧
    (∀ stripe lost shards, 2 ≤ n → m < n → stripe < stripes →
      (∀ bytes, lost = false → rebuildShard (n - m) m (d.roleIn comp stripe) shards = some bytes →
        ∃ t, exec (.rebuild comp stripe lost shards) s = .next t ∧ sameWorld t ∧
        t.mem = s.mem.write (d.shardAddr comp stripe) bytes ∧ t.dev.num (0x4200 + comp) 0x0C = satAdd (2 ^ 64 - 1) (d.num (0x4200 + comp) 0x0C) 1 ∧
        t.dev.num (0x4200 + comp) 0x0B = d.num (0x4200 + comp) 0x0B ∧ t.dev.num (0x4200 + comp) 9 = stripe ∧
        (∃ r ∈ t.dev.journal.queue, r.pay = .checkpoint comp stripe (tgetD d.sweep (8 + comp) 0) 2) ∧
        { t.dev with catalogs := d.catalogs, objs := d.objs, journal := d.journal } = d ∧ (d.rejoining comp = false → t.dev.catalogs = d.catalogs)) ∧
      (lost = true ∨ rebuildShard (n - m) m (d.roleIn comp stripe) shards = none →
        ∃ t, exec (.rebuild comp stripe lost shards) s = .next t ∧ sameWorld t ∧
        t.mem = s.mem ∧ t.dev.num (0x4200 + comp) 0x0B = satAdd (2 ^ 32 - 1) (d.num (0x4200 + comp) 0x0B) 1 ∧
        t.dev.num (0x4200 + comp) 0x0C = d.num (0x4200 + comp) 0x0C ∧
        (∀ w k g, (w, k, g) ∈ d.gens comp → g.role ≠ 0 → g.res ≠ 3 → d.genTouches s.ctx comp stripe g = true →
          (t.dev.genAt comp w k).res = 3 ∧ (t.dev.genAt comp w k).badst = Config.poison) ∧
        { t.dev with catalogs := d.catalogs, objs := d.objs, chg := d.chg, journal := d.journal } = d)) ∧
    (∀ job slot page data b q, job < 64 → tget d.jobs job = some b → d.num (0x5340 + job) 1 = 1 → b.st = .loading → b.phase = .rejoining ∨ b.phase = .restoring →
      tget d.reqs (b.reqKey job slot) = some q → q.job = job → 64 * (page + 1) ≤ q.kv →
      (∀ p fr, q.pages[page]? = some p → (p.place = .working fr ∧ p.fill ≠ 64) ∨ (p.place = .reserved ∧ b.freeFrames.head? = some fr) →
        ∃ t q' p' header, exec (.shadowDecode job slot page data true) s = .next t ∧ sameWorld t ∧
          t.mem = (s.mem.write (b.frameAddr fr + 128) (lpad b.pageSize 0 (data.take b.pageSize))).write (b.frameAddr fr) (leBytes 64 header) ∧
          tget t.dev.reqs (b.reqKey job slot) = some q' ∧ q'.pages[page]? = some p' ∧ p'.fill = 64 ∧ q' = { q with pages := q'.pages } ∧
          (∀ k, k ≠ b.reqKey job slot → tget t.dev.reqs k = tget d.reqs k) ∧ (∀ j, j ≠ job → tget t.dev.jobs j = tget d.jobs j) ∧
          t.dev.num (0x5340 + job) 0x0B = satAdd (2 ^ 64 - 1) (d.num (0x5340 + job) 0x0B) 1 ∧
          { t.dev with reqs := d.reqs, jobs := d.jobs, objs := d.objs } = d) ∧
      (∀ p fr, q.pages[page]? = some p → p.place = .working fr → p.fill = 64 → exec (.shadowDecode job slot page data true) s = .next s) ∧
      exec (.shadowDecode job slot page data false) s = .next (s.withDev { (if b.rank = 0 then d else d.tell job 8 [slot, page]) with
        reqs := tset d.reqs (b.reqKey job slot) (q.replayFrom (64 * page)) }))
end

