-- ==== Sys2Proof/Laws/Tab.lean ====
section
/-!
SUPPORT. Laws of sparse tables and rising lists: what is read after a write, and that every operation keeps the canonical form.
-/

namespace Sys2Proof.Machine

/-! Rising lists. -/

theorem rising_cons {a : Nat} {l : List Nat} (h : rising (a :: l) = true) : rising l = true ∧ ∀ b ∈ l, a < b := by
  induction l generalizing a with
  | nil => simp [rising]
  | cons c t ih =>
    simp only [rising, Bool.and_eq_true, decide_eq_true_eq] at h
    refine ⟨h.2, ?_⟩
    intro b hb
    rcases List.mem_cons.mp hb with rfl | hb
    · exact h.1
    · have := (ih h.2).2 b hb; omega

theorem rising_of {a : Nat} {l : List Nat} (h : rising l = true) (ha : ∀ b ∈ l, a < b) : rising (a :: l) = true := by
  cases l with
  | nil => rfl
  | cons c t =>
    simp only [rising, Bool.and_eq_true, decide_eq_true_eq]
    exact ⟨ha c (List.mem_cons_self ..), h⟩

theorem mem_sinsert {l : List Nat} {i b : Nat} (h : b ∈ sinsert l i) : b = i ∨ b ∈ l := by
  induction l with
  | nil => simp [sinsert] at h; exact Or.inl h
  | cons k t ih =>
    simp only [sinsert] at h
    split at h
    · exact Or.inr h
    · split at h
      · rcases List.mem_cons.mp h with rfl | h
        · exact Or.inl rfl
        · exact Or.inr h
      · rcases List.mem_cons.mp h with rfl | h
        · exact Or.inr (List.mem_cons_self ..)
        · rcases ih h with rfl | h
          · exact Or.inl rfl
          · exact Or.inr (List.mem_cons_of_mem _ h)

theorem sinsert_rising {l : List Nat} (i : Nat) (h : rising l = true) : rising (sinsert l i) = true := by
  induction l with
  | nil => rfl
  | cons k t ih =>
    have hk := rising_cons h
    simp only [sinsert]
    split
    · exact h
    · split
      · rename_i hlt
        refine rising_of h ?_
        intro b hb
        rcases List.mem_cons.mp hb with rfl | hb
        · exact hlt
        · have := hk.2 b hb; omega
      · refine rising_of (ih hk.1) ?_
        intro b hb
        rcases mem_sinsert hb with rfl | hb
        · omega
        · exact hk.2 b hb

theorem mem_serase {l : List Nat} {i b : Nat} (h : b ∈ serase l i) : b ∈ l := by
  induction l with
  | nil => simp [serase] at h
  | cons k t ih =>
    simp only [serase] at h
    split at h
    · exact List.mem_cons_of_mem _ h
    · split at h
      · exact h
      · rcases List.mem_cons.mp h with rfl | h
        · exact List.mem_cons_self ..
        · exact List.mem_cons_of_mem _ (ih h)

theorem serase_rising {l : List Nat} (i : Nat) (h : rising l = true) : rising (serase l i) = true := by
  induction l with
  | nil => rfl
  | cons k t ih =>
    have hk := rising_cons h
    simp only [serase]
    split
    · exact hk.1
    · split
      · exact h
      · exact rising_of (ih hk.1) fun b hb => hk.2 b (mem_serase hb)

theorem filter_rising {l : List Nat} (p : Nat → Bool) (h : rising l = true) : rising (l.filter p) = true := by
  induction l with
  | nil => rfl
  | cons k t ih =>
    have hk := rising_cons h
    simp only [List.filter_cons]
    split
    · exact rising_of (ih hk.1) fun b hb => hk.2 b (List.mem_filter.mp hb).1
    · exact ih hk.1

theorem foldl_rising {α : Type} (f : List Nat → α → List Nat) (hf : ∀ l a, rising l = true → rising (f l a) = true)
    (as : List α) {l : List Nat} (h : rising l = true) : rising (as.foldl f l) = true := by
  induction as generalizing l with
  | nil => exact h
  | cons a t ih => exact ih (hf l a h)

/-! Tables. -/

/-- The key of a cell of a written table is the key written, or was listed before. -/
theorem mem_tset {α : Type} {t : Tab α} {i : Nat} {a : α} {p : Nat × α} (h : p ∈ tset t i a) : p = (i, a) ∨ p ∈ t := by
  induction t with
  | nil => simp [tset] at h; exact Or.inl h
  | cons q t ih =>
    obtain ⟨k, v⟩ := q
    simp only [tset] at h
    split at h
    · rcases List.mem_cons.mp h with rfl | h
      · exact Or.inl rfl
      · exact Or.inr (List.mem_cons_of_mem _ h)
    · split at h
      · rcases List.mem_cons.mp h with rfl | h
        · exact Or.inl rfl
        · exact Or.inr h
      · rcases List.mem_cons.mp h with rfl | h
        · exact Or.inr (List.mem_cons_self ..)
        · rcases ih h with rfl | h
          · exact Or.inl rfl
          · exact Or.inr (List.mem_cons_of_mem _ h)

theorem mem_terase {α : Type} {t : Tab α} {i : Nat} {p : Nat × α} (h : p ∈ terase t i) : p ∈ t := by
  induction t with
  | nil => simp [terase] at h
  | cons q t ih =>
    obtain ⟨k, v⟩ := q
    simp only [terase] at h
    split at h
    · exact List.mem_cons_of_mem _ (ih h)
    · rcases List.mem_cons.mp h with rfl | h
      · exact List.mem_cons_self ..
      · exact List.mem_cons_of_mem _ (ih h)

theorem twf_cons {α : Type} {k : Nat} {v : α} {t : Tab α} (h : twf ((k, v) :: t) = true) :
    twf t = true ∧ ∀ p ∈ t, k < p.1 := by
  have := rising_cons (a := k) (l := tkeys t) h
  exact ⟨this.1, fun p hp => this.2 p.1 (List.mem_map.mpr ⟨p, hp, rfl⟩)⟩

theorem twf_of {α : Type} {k : Nat} {v : α} {t : Tab α} (h : twf t = true) (hk : ∀ p ∈ t, k < p.1) :
    twf ((k, v) :: t) = true := by
  refine rising_of (l := tkeys t) h ?_
  intro b hb
  obtain ⟨p, hp, rfl⟩ := List.mem_map.mp hb
  exact hk p hp

theorem tset_wf {α : Type} {t : Tab α} (i : Nat) (a : α) (h : twf t = true) : twf (tset t i a) = true := by
  induction t with
  | nil => rfl
  | cons q t ih =>
    obtain ⟨k, v⟩ := q
    have hk := twf_cons h
    simp only [tset]
    split
    · rename_i he; subst he; exact twf_of hk.1 hk.2
    · split
      · rename_i hlt
        refine twf_of h ?_
        intro p hp
        rcases List.mem_cons.mp hp with rfl | hp
        · exact hlt
        · have := hk.2 p hp; omega
      · refine twf_of (ih hk.1) ?_
        intro p hp
        rcases mem_tset hp with rfl | hp
        · simp; omega
        · exact hk.2 p hp

theorem terase_wf {α : Type} {t : Tab α} (i : Nat) (h : twf t = true) : twf (terase t i) = true := by
  induction t with
  | nil => rfl
  | cons q t ih =>
    obtain ⟨k, v⟩ := q
    have hk := twf_cons h
    simp only [terase]
    split
    · exact ih hk.1
    · exact twf_of (ih hk.1) fun p hp => hk.2 p (mem_terase hp)

theorem filter_wf {α : Type} {t : Tab α} (p : Nat × α → Bool) (h : twf t = true) : twf (t.filter p) = true := by
  induction t with
  | nil => rfl
  | cons q t ih =>
    obtain ⟨k, v⟩ := q
    have hk := twf_cons h
    simp only [List.filter_cons]
    split
    · exact twf_of (ih hk.1) fun r hr => hk.2 r (List.mem_filter.mp hr).1
    · exact ih hk.1

/-- What is written is read. -/
@[simp] theorem tget_tset_same {α : Type} (t : Tab α) (i : Nat) (a : α) : tget (tset t i a) i = some a := by
  induction t with
  | nil => simp [tset, tget]
  | cons q t ih =>
    obtain ⟨k, v⟩ := q
    simp only [tset]
    split
    · simp [tget]
    · split
      · simp [tget]
      · rename_i h1 h2
        simp only [tget, h1, if_false]
        exact ih

/-- The last of two writes to one key stands. -/
@[simp] theorem tset_tset {α : Type} (t : Tab α) (i : Nat) (a b : α) : tset (tset t i a) i b = tset t i b := by
  induction t with
  | nil => simp [tset]
  | cons p t ih =>
    obtain ⟨k, v⟩ := p
    simp only [tset]
    split
    · simp [tset]
    · split
      · simp [tset]
      · rename_i h1 h2; simp [tset, h1, h2, ih]

/-- A write leaves every other key alone. -/
@[simp] theorem tget_tset_ne {α : Type} (t : Tab α) {i j : Nat} (a : α) (h : j ≠ i) : tget (tset t i a) j = tget t j := by
  induction t with
  | nil =>
    simp only [tset, tget]
    rw [if_neg (Ne.symm h)]
  | cons q t ih =>
    obtain ⟨k, v⟩ := q
    simp only [tset]
    split
    · rename_i he; subst he
      simp only [tget]
      rw [if_neg (Ne.symm h), if_neg (Ne.symm h)]
    · split
      · simp only [tget]
        rw [if_neg (Ne.symm h)]
      · simp only [tget]
        rw [ih]

theorem tget_none_of_lt {α : Type} {t : Tab α} {i : Nat} (h : ∀ p ∈ t, i < p.1) : tget t i = none := by
  induction t with
  | nil => rfl
  | cons q t ih =>
    obtain ⟨k, v⟩ := q
    have := h (k, v) (List.mem_cons_self ..)
    simp only at this
    simp only [tget]
    rw [if_neg (by omega)]
    exact ih fun p hp => h p (List.mem_cons_of_mem _ hp)

/-- An erased key is not listed. -/
@[simp] theorem tget_terase_same {α : Type} (t : Tab α) (i : Nat) : tget (terase t i) i = none := by
  induction t with
  | nil => rfl
  | cons q t ih =>
    obtain ⟨k, v⟩ := q
    simp only [terase]
    split
    · exact ih
    · rename_i h1
      simp only [tget]
      rw [if_neg h1]
      exact ih

/-- Erasing leaves every other key alone. -/
@[simp] theorem tget_terase_ne {α : Type} (t : Tab α) {i j : Nat} (hj : j ≠ i) : tget (terase t i) j = tget t j := by
  induction t with
  | nil => rfl
  | cons q t ih =>
    obtain ⟨k, v⟩ := q
    simp only [terase]
    split
    · rename_i he; subst he
      rw [ih]
      simp only [tget]
      rw [if_neg (Ne.symm hj)]
    · simp only [tget]
      rw [ih]

theorem tget_mem {α : Type} {t : Tab α} {i : Nat} {a : α} (h : tget t i = some a) : (i, a) ∈ t := by
  induction t with
  | nil => simp [tget] at h
  | cons q t ih =>
    obtain ⟨k, v⟩ := q
    simp only [tget] at h
    split at h
    · rename_i he; subst he; simp at h; subst h; exact List.mem_cons_self ..
    · exact List.mem_cons_of_mem _ (ih h)

end Sys2Proof.Machine
end

