-- ==== Sys2Proof/Laws/State.lean ====
section
/-!
SUPPORT. One lemma per field per update of the device: what an update of one part leaves alone, and what a part written reads as.
-/

namespace Sys2Proof.Machine

@[simp] theorem Dev.eff_state (d : Dev) (e : Eff) : (d.eff e).state = d.state := rfl
@[simp] theorem Dev.eff_objs (d : Dev) (e : Eff) : (d.eff e).objs = d.objs := rfl
@[simp] theorem Dev.eff_chg (d : Dev) (e : Eff) : (d.eff e).chg = d.chg := rfl
@[simp] theorem Dev.eff_facets (d : Dev) (e : Eff) : (d.eff e).facets = d.facets := rfl
@[simp] theorem Dev.eff_canopy (d : Dev) (e : Eff) : (d.eff e).canopy = d.canopy := rfl
@[simp] theorem Dev.eff_scans (d : Dev) (e : Eff) : (d.eff e).scans = d.scans := rfl
@[simp] theorem Dev.eff_resume (d : Dev) (e : Eff) : (d.eff e).resume = d.resume := rfl
@[simp] theorem Dev.eff_scanned (d : Dev) (e : Eff) : (d.eff e).scanned = d.scanned := rfl
@[simp] theorem Dev.eff_sync (d : Dev) (e : Eff) : (d.eff e).sync = d.sync := rfl
@[simp] theorem Dev.eff_engines (d : Dev) (e : Eff) : (d.eff e).engines = d.engines := rfl
@[simp] theorem Dev.eff_stepser (d : Dev) (e : Eff) : (d.eff e).stepser = d.stepser := rfl
@[simp] theorem Dev.eff_board (d : Dev) (e : Eff) : (d.eff e).board = d.board := rfl
@[simp] theorem Dev.eff_boardTag (d : Dev) (e : Eff) : (d.eff e).boardTag = d.boardTag := rfl
@[simp] theorem Dev.eff_spill (d : Dev) (e : Eff) : (d.eff e).spill = d.spill := rfl
@[simp] theorem Dev.eff_jobs (d : Dev) (e : Eff) : (d.eff e).jobs = d.jobs := rfl
@[simp] theorem Dev.eff_images (d : Dev) (e : Eff) : (d.eff e).images = d.images := rfl
@[simp] theorem Dev.eff_catalogs (d : Dev) (e : Eff) : (d.eff e).catalogs = d.catalogs := rfl
@[simp] theorem Dev.eff_reqs (d : Dev) (e : Eff) : (d.eff e).reqs = d.reqs := rfl
@[simp] theorem Dev.eff_digests (d : Dev) (e : Eff) : (d.eff e).digests = d.digests := rfl
@[simp] theorem Dev.eff_schanges (d : Dev) (e : Eff) : (d.eff e).schanges = d.schanges := rfl
@[simp] theorem Dev.eff_stepDue (d : Dev) (e : Eff) : (d.eff e).stepDue = d.stepDue := rfl
@[simp] theorem Dev.eff_bWaiting (d : Dev) (e : Eff) : (d.eff e).bWaiting = d.bWaiting := rfl
@[simp] theorem Dev.eff_ports (d : Dev) (e : Eff) : (d.eff e).ports = d.ports := rfl
@[simp] theorem Dev.eff_legs (d : Dev) (e : Eff) : (d.eff e).legs = d.legs := rfl
@[simp] theorem Dev.eff_routes (d : Dev) (e : Eff) : (d.eff e).routes = d.routes := rfl
@[simp] theorem Dev.eff_passRecs (d : Dev) (e : Eff) : (d.eff e).passRecs = d.passRecs := rfl
@[simp] theorem Dev.eff_gwCredits (d : Dev) (e : Eff) : (d.eff e).gwCredits = d.gwCredits := rfl
@[simp] theorem Dev.eff_tether (d : Dev) (e : Eff) : (d.eff e).tether = d.tether := rfl
@[simp] theorem Dev.eff_groups (d : Dev) (e : Eff) : (d.eff e).groups = d.groups := rfl
@[simp] theorem Dev.eff_finished (d : Dev) (e : Eff) : (d.eff e).finished = d.finished := rfl
@[simp] theorem Dev.eff_heldReplies (d : Dev) (e : Eff) : (d.eff e).heldReplies = d.heldReplies := rfl
@[simp] theorem Dev.eff_nextGroup (d : Dev) (e : Eff) : (d.eff e).nextGroup = d.nextGroup := rfl
@[simp] theorem Dev.eff_nextOrder (d : Dev) (e : Eff) : (d.eff e).nextOrder = d.nextOrder := rfl
@[simp] theorem Dev.eff_sessions (d : Dev) (e : Eff) : (d.eff e).sessions = d.sessions := rfl
@[simp] theorem Dev.eff_nonces (d : Dev) (e : Eff) : (d.eff e).nonces = d.nonces := rfl
@[simp] theorem Dev.eff_mgr (d : Dev) (e : Eff) : (d.eff e).mgr = d.mgr := rfl
@[simp] theorem Dev.eff_mgrRound (d : Dev) (e : Eff) : (d.eff e).mgrRound = d.mgrRound := rfl
@[simp] theorem Dev.eff_mgrBase (d : Dev) (e : Eff) : (d.eff e).mgrBase = d.mgrBase := rfl
@[simp] theorem Dev.eff_authFails (d : Dev) (e : Eff) : (d.eff e).authFails = d.authFails := rfl
@[simp] theorem Dev.eff_authRound (d : Dev) (e : Eff) : (d.eff e).authRound = d.authRound := rfl
@[simp] theorem Dev.eff_notified (d : Dev) (e : Eff) : (d.eff e).notified = d.notified := rfl
@[simp] theorem Dev.eff_notifyDue (d : Dev) (e : Eff) : (d.eff e).notifyDue = d.notifyDue := rfl
@[simp] theorem Dev.eff_alerts (d : Dev) (e : Eff) : (d.eff e).alerts = d.alerts := rfl
@[simp] theorem Dev.eff_portState (d : Dev) (e : Eff) : (d.eff e).portState = d.portState := rfl
@[simp] theorem Dev.eff_permits (d : Dev) (e : Eff) : (d.eff e).permits = d.permits := rfl
@[simp] theorem Dev.eff_nextPermit (d : Dev) (e : Eff) : (d.eff e).nextPermit = d.nextPermit := rfl
@[simp] theorem Dev.eff_comps (d : Dev) (e : Eff) : (d.eff e).comps = d.comps := rfl
@[simp] theorem Dev.eff_keys (d : Dev) (e : Eff) : (d.eff e).keys = d.keys := rfl
@[simp] theorem Dev.eff_ballast (d : Dev) (e : Eff) : (d.eff e).ballast = d.ballast := rfl
@[simp] theorem Dev.eff_journal (d : Dev) (e : Eff) : (d.eff e).journal = d.journal := rfl
@[simp] theorem Dev.eff_boot (d : Dev) (e : Eff) : (d.eff e).boot = d.boot := rfl
@[simp] theorem Dev.eff_gust (d : Dev) (e : Eff) : (d.eff e).gust = d.gust := rfl
@[simp] theorem Dev.eff_samp (d : Dev) (e : Eff) : (d.eff e).samp = d.samp := rfl
@[simp] theorem Dev.eff_dirtySet (d : Dev) (e : Eff) : (d.eff e).dirtySet = d.dirtySet := rfl
@[simp] theorem Dev.eff_unprot (d : Dev) (e : Eff) : (d.eff e).unprot = d.unprot := rfl
@[simp] theorem Dev.eff_outUnits (d : Dev) (e : Eff) : (d.eff e).outUnits = d.outUnits := rfl
@[simp] theorem Dev.eff_sweep (d : Dev) (e : Eff) : (d.eff e).sweep = d.sweep := rfl
@[simp] theorem Dev.eff_tap (d : Dev) (e : Eff) : (d.eff e).tap = d.tap := rfl
@[simp] theorem Dev.eff_unlocked (d : Dev) (e : Eff) : (d.eff e).unlocked = d.unlocked := rfl
@[simp] theorem Dev.eff_switched (d : Dev) (e : Eff) : (d.eff e).switched = d.switched := rfl
@[simp] theorem Dev.eff_busy (d : Dev) (e : Eff) : (d.eff e).busy = d.busy := rfl
@[simp] theorem Dev.eff_execBeats (d : Dev) (e : Eff) : (d.eff e).execBeats = d.execBeats := rfl
@[simp] theorem Dev.eff_slotAt (d : Dev) (e : Eff) : (d.eff e).slotAt = d.slotAt := rfl
@[simp] theorem Dev.eff_draws (d : Dev) (e : Eff) : (d.eff e).draws = d.draws := rfl
@[simp] theorem Dev.eff_out (d : Dev) (e : Eff) : (d.eff e).out = d.out := rfl

@[simp] theorem Dev.memOp_state (d : Dev) (op : MemOp) : (d.memOp op).state = d.state := rfl
@[simp] theorem Dev.memOp_objs (d : Dev) (op : MemOp) : (d.memOp op).objs = d.objs := rfl
@[simp] theorem Dev.memOp_chg (d : Dev) (op : MemOp) : (d.memOp op).chg = d.chg := rfl
@[simp] theorem Dev.memOp_facets (d : Dev) (op : MemOp) : (d.memOp op).facets = d.facets := rfl
@[simp] theorem Dev.memOp_canopy (d : Dev) (op : MemOp) : (d.memOp op).canopy = d.canopy := rfl
@[simp] theorem Dev.memOp_scans (d : Dev) (op : MemOp) : (d.memOp op).scans = d.scans := rfl
@[simp] theorem Dev.memOp_resume (d : Dev) (op : MemOp) : (d.memOp op).resume = d.resume := rfl
@[simp] theorem Dev.memOp_scanned (d : Dev) (op : MemOp) : (d.memOp op).scanned = d.scanned := rfl
@[simp] theorem Dev.memOp_sync (d : Dev) (op : MemOp) : (d.memOp op).sync = d.sync := rfl
@[simp] theorem Dev.memOp_engines (d : Dev) (op : MemOp) : (d.memOp op).engines = d.engines := rfl
@[simp] theorem Dev.memOp_stepser (d : Dev) (op : MemOp) : (d.memOp op).stepser = d.stepser := rfl
@[simp] theorem Dev.memOp_board (d : Dev) (op : MemOp) : (d.memOp op).board = d.board := rfl
@[simp] theorem Dev.memOp_boardTag (d : Dev) (op : MemOp) : (d.memOp op).boardTag = d.boardTag := rfl
@[simp] theorem Dev.memOp_spill (d : Dev) (op : MemOp) : (d.memOp op).spill = d.spill := rfl
@[simp] theorem Dev.memOp_jobs (d : Dev) (op : MemOp) : (d.memOp op).jobs = d.jobs := rfl
@[simp] theorem Dev.memOp_images (d : Dev) (op : MemOp) : (d.memOp op).images = d.images := rfl
@[simp] theorem Dev.memOp_catalogs (d : Dev) (op : MemOp) : (d.memOp op).catalogs = d.catalogs := rfl
@[simp] theorem Dev.memOp_reqs (d : Dev) (op : MemOp) : (d.memOp op).reqs = d.reqs := rfl
@[simp] theorem Dev.memOp_digests (d : Dev) (op : MemOp) : (d.memOp op).digests = d.digests := rfl
@[simp] theorem Dev.memOp_schanges (d : Dev) (op : MemOp) : (d.memOp op).schanges = d.schanges := rfl
@[simp] theorem Dev.memOp_stepDue (d : Dev) (op : MemOp) : (d.memOp op).stepDue = d.stepDue := rfl
@[simp] theorem Dev.memOp_bWaiting (d : Dev) (op : MemOp) : (d.memOp op).bWaiting = d.bWaiting := rfl
@[simp] theorem Dev.memOp_ports (d : Dev) (op : MemOp) : (d.memOp op).ports = d.ports := rfl
@[simp] theorem Dev.memOp_legs (d : Dev) (op : MemOp) : (d.memOp op).legs = d.legs := rfl
@[simp] theorem Dev.memOp_routes (d : Dev) (op : MemOp) : (d.memOp op).routes = d.routes := rfl
@[simp] theorem Dev.memOp_passRecs (d : Dev) (op : MemOp) : (d.memOp op).passRecs = d.passRecs := rfl
@[simp] theorem Dev.memOp_gwCredits (d : Dev) (op : MemOp) : (d.memOp op).gwCredits = d.gwCredits := rfl
@[simp] theorem Dev.memOp_tether (d : Dev) (op : MemOp) : (d.memOp op).tether = d.tether := rfl
@[simp] theorem Dev.memOp_groups (d : Dev) (op : MemOp) : (d.memOp op).groups = d.groups := rfl
@[simp] theorem Dev.memOp_finished (d : Dev) (op : MemOp) : (d.memOp op).finished = d.finished := rfl
@[simp] theorem Dev.memOp_heldReplies (d : Dev) (op : MemOp) : (d.memOp op).heldReplies = d.heldReplies := rfl
@[simp] theorem Dev.memOp_nextGroup (d : Dev) (op : MemOp) : (d.memOp op).nextGroup = d.nextGroup := rfl
@[simp] theorem Dev.memOp_nextOrder (d : Dev) (op : MemOp) : (d.memOp op).nextOrder = d.nextOrder := rfl
@[simp] theorem Dev.memOp_sessions (d : Dev) (op : MemOp) : (d.memOp op).sessions = d.sessions := rfl
@[simp] theorem Dev.memOp_nonces (d : Dev) (op : MemOp) : (d.memOp op).nonces = d.nonces := rfl
@[simp] theorem Dev.memOp_mgr (d : Dev) (op : MemOp) : (d.memOp op).mgr = d.mgr := rfl
@[simp] theorem Dev.memOp_mgrRound (d : Dev) (op : MemOp) : (d.memOp op).mgrRound = d.mgrRound := rfl
@[simp] theorem Dev.memOp_mgrBase (d : Dev) (op : MemOp) : (d.memOp op).mgrBase = d.mgrBase := rfl
@[simp] theorem Dev.memOp_authFails (d : Dev) (op : MemOp) : (d.memOp op).authFails = d.authFails := rfl
@[simp] theorem Dev.memOp_authRound (d : Dev) (op : MemOp) : (d.memOp op).authRound = d.authRound := rfl
@[simp] theorem Dev.memOp_notified (d : Dev) (op : MemOp) : (d.memOp op).notified = d.notified := rfl
@[simp] theorem Dev.memOp_notifyDue (d : Dev) (op : MemOp) : (d.memOp op).notifyDue = d.notifyDue := rfl
@[simp] theorem Dev.memOp_alerts (d : Dev) (op : MemOp) : (d.memOp op).alerts = d.alerts := rfl
@[simp] theorem Dev.memOp_portState (d : Dev) (op : MemOp) : (d.memOp op).portState = d.portState := rfl
@[simp] theorem Dev.memOp_permits (d : Dev) (op : MemOp) : (d.memOp op).permits = d.permits := rfl
@[simp] theorem Dev.memOp_nextPermit (d : Dev) (op : MemOp) : (d.memOp op).nextPermit = d.nextPermit := rfl
@[simp] theorem Dev.memOp_comps (d : Dev) (op : MemOp) : (d.memOp op).comps = d.comps := rfl
@[simp] theorem Dev.memOp_keys (d : Dev) (op : MemOp) : (d.memOp op).keys = d.keys := rfl
@[simp] theorem Dev.memOp_ballast (d : Dev) (op : MemOp) : (d.memOp op).ballast = d.ballast := rfl
@[simp] theorem Dev.memOp_journal (d : Dev) (op : MemOp) : (d.memOp op).journal = d.journal := rfl
@[simp] theorem Dev.memOp_boot (d : Dev) (op : MemOp) : (d.memOp op).boot = d.boot := rfl
@[simp] theorem Dev.memOp_gust (d : Dev) (op : MemOp) : (d.memOp op).gust = d.gust := rfl
@[simp] theorem Dev.memOp_samp (d : Dev) (op : MemOp) : (d.memOp op).samp = d.samp := rfl
@[simp] theorem Dev.memOp_dirtySet (d : Dev) (op : MemOp) : (d.memOp op).dirtySet = d.dirtySet := rfl
@[simp] theorem Dev.memOp_unprot (d : Dev) (op : MemOp) : (d.memOp op).unprot = d.unprot := rfl
@[simp] theorem Dev.memOp_outUnits (d : Dev) (op : MemOp) : (d.memOp op).outUnits = d.outUnits := rfl
@[simp] theorem Dev.memOp_sweep (d : Dev) (op : MemOp) : (d.memOp op).sweep = d.sweep := rfl
@[simp] theorem Dev.memOp_tap (d : Dev) (op : MemOp) : (d.memOp op).tap = d.tap := rfl
@[simp] theorem Dev.memOp_unlocked (d : Dev) (op : MemOp) : (d.memOp op).unlocked = d.unlocked := rfl
@[simp] theorem Dev.memOp_switched (d : Dev) (op : MemOp) : (d.memOp op).switched = d.switched := rfl
@[simp] theorem Dev.memOp_busy (d : Dev) (op : MemOp) : (d.memOp op).busy = d.busy := rfl
@[simp] theorem Dev.memOp_execBeats (d : Dev) (op : MemOp) : (d.memOp op).execBeats = d.execBeats := rfl
@[simp] theorem Dev.memOp_slotAt (d : Dev) (op : MemOp) : (d.memOp op).slotAt = d.slotAt := rfl
@[simp] theorem Dev.memOp_draws (d : Dev) (op : MemOp) : (d.memOp op).draws = d.draws := rfl
@[simp] theorem Dev.memOp_out (d : Dev) (op : MemOp) : (d.memOp op).out = d.out := rfl

@[simp] theorem Dev.emit_state (d : Dev) (o : Out) : (d.emit o).state = d.state := rfl
@[simp] theorem Dev.emit_objs (d : Dev) (o : Out) : (d.emit o).objs = d.objs := rfl
@[simp] theorem Dev.emit_chg (d : Dev) (o : Out) : (d.emit o).chg = d.chg := rfl
@[simp] theorem Dev.emit_facets (d : Dev) (o : Out) : (d.emit o).facets = d.facets := rfl
@[simp] theorem Dev.emit_canopy (d : Dev) (o : Out) : (d.emit o).canopy = d.canopy := rfl
@[simp] theorem Dev.emit_scans (d : Dev) (o : Out) : (d.emit o).scans = d.scans := rfl
@[simp] theorem Dev.emit_resume (d : Dev) (o : Out) : (d.emit o).resume = d.resume := rfl
@[simp] theorem Dev.emit_scanned (d : Dev) (o : Out) : (d.emit o).scanned = d.scanned := rfl
@[simp] theorem Dev.emit_sync (d : Dev) (o : Out) : (d.emit o).sync = d.sync := rfl
@[simp] theorem Dev.emit_engines (d : Dev) (o : Out) : (d.emit o).engines = d.engines := rfl
@[simp] theorem Dev.emit_stepser (d : Dev) (o : Out) : (d.emit o).stepser = d.stepser := rfl
@[simp] theorem Dev.emit_board (d : Dev) (o : Out) : (d.emit o).board = d.board := rfl
@[simp] theorem Dev.emit_boardTag (d : Dev) (o : Out) : (d.emit o).boardTag = d.boardTag := rfl
@[simp] theorem Dev.emit_spill (d : Dev) (o : Out) : (d.emit o).spill = d.spill := rfl
@[simp] theorem Dev.emit_jobs (d : Dev) (o : Out) : (d.emit o).jobs = d.jobs := rfl
@[simp] theorem Dev.emit_images (d : Dev) (o : Out) : (d.emit o).images = d.images := rfl
@[simp] theorem Dev.emit_catalogs (d : Dev) (o : Out) : (d.emit o).catalogs = d.catalogs := rfl
@[simp] theorem Dev.emit_reqs (d : Dev) (o : Out) : (d.emit o).reqs = d.reqs := rfl
@[simp] theorem Dev.emit_digests (d : Dev) (o : Out) : (d.emit o).digests = d.digests := rfl
@[simp] theorem Dev.emit_schanges (d : Dev) (o : Out) : (d.emit o).schanges = d.schanges := rfl
@[simp] theorem Dev.emit_stepDue (d : Dev) (o : Out) : (d.emit o).stepDue = d.stepDue := rfl
@[simp] theorem Dev.emit_bWaiting (d : Dev) (o : Out) : (d.emit o).bWaiting = d.bWaiting := rfl
@[simp] theorem Dev.emit_ports (d : Dev) (o : Out) : (d.emit o).ports = d.ports := rfl
@[simp] theorem Dev.emit_legs (d : Dev) (o : Out) : (d.emit o).legs = d.legs := rfl
@[simp] theorem Dev.emit_routes (d : Dev) (o : Out) : (d.emit o).routes = d.routes := rfl
@[simp] theorem Dev.emit_passRecs (d : Dev) (o : Out) : (d.emit o).passRecs = d.passRecs := rfl
@[simp] theorem Dev.emit_gwCredits (d : Dev) (o : Out) : (d.emit o).gwCredits = d.gwCredits := rfl
@[simp] theorem Dev.emit_tether (d : Dev) (o : Out) : (d.emit o).tether = d.tether := rfl
@[simp] theorem Dev.emit_groups (d : Dev) (o : Out) : (d.emit o).groups = d.groups := rfl
@[simp] theorem Dev.emit_finished (d : Dev) (o : Out) : (d.emit o).finished = d.finished := rfl
@[simp] theorem Dev.emit_heldReplies (d : Dev) (o : Out) : (d.emit o).heldReplies = d.heldReplies := rfl
@[simp] theorem Dev.emit_nextGroup (d : Dev) (o : Out) : (d.emit o).nextGroup = d.nextGroup := rfl
@[simp] theorem Dev.emit_nextOrder (d : Dev) (o : Out) : (d.emit o).nextOrder = d.nextOrder := rfl
@[simp] theorem Dev.emit_sessions (d : Dev) (o : Out) : (d.emit o).sessions = d.sessions := rfl
@[simp] theorem Dev.emit_nonces (d : Dev) (o : Out) : (d.emit o).nonces = d.nonces := rfl
@[simp] theorem Dev.emit_mgr (d : Dev) (o : Out) : (d.emit o).mgr = d.mgr := rfl
@[simp] theorem Dev.emit_mgrRound (d : Dev) (o : Out) : (d.emit o).mgrRound = d.mgrRound := rfl
@[simp] theorem Dev.emit_mgrBase (d : Dev) (o : Out) : (d.emit o).mgrBase = d.mgrBase := rfl
@[simp] theorem Dev.emit_authFails (d : Dev) (o : Out) : (d.emit o).authFails = d.authFails := rfl
@[simp] theorem Dev.emit_authRound (d : Dev) (o : Out) : (d.emit o).authRound = d.authRound := rfl
@[simp] theorem Dev.emit_notified (d : Dev) (o : Out) : (d.emit o).notified = d.notified := rfl
@[simp] theorem Dev.emit_notifyDue (d : Dev) (o : Out) : (d.emit o).notifyDue = d.notifyDue := rfl
@[simp] theorem Dev.emit_alerts (d : Dev) (o : Out) : (d.emit o).alerts = d.alerts := rfl
@[simp] theorem Dev.emit_portState (d : Dev) (o : Out) : (d.emit o).portState = d.portState := rfl
@[simp] theorem Dev.emit_permits (d : Dev) (o : Out) : (d.emit o).permits = d.permits := rfl
@[simp] theorem Dev.emit_nextPermit (d : Dev) (o : Out) : (d.emit o).nextPermit = d.nextPermit := rfl
@[simp] theorem Dev.emit_comps (d : Dev) (o : Out) : (d.emit o).comps = d.comps := rfl
@[simp] theorem Dev.emit_keys (d : Dev) (o : Out) : (d.emit o).keys = d.keys := rfl
@[simp] theorem Dev.emit_ballast (d : Dev) (o : Out) : (d.emit o).ballast = d.ballast := rfl
@[simp] theorem Dev.emit_journal (d : Dev) (o : Out) : (d.emit o).journal = d.journal := rfl
@[simp] theorem Dev.emit_boot (d : Dev) (o : Out) : (d.emit o).boot = d.boot := rfl
@[simp] theorem Dev.emit_gust (d : Dev) (o : Out) : (d.emit o).gust = d.gust := rfl
@[simp] theorem Dev.emit_samp (d : Dev) (o : Out) : (d.emit o).samp = d.samp := rfl
@[simp] theorem Dev.emit_dirtySet (d : Dev) (o : Out) : (d.emit o).dirtySet = d.dirtySet := rfl
@[simp] theorem Dev.emit_unprot (d : Dev) (o : Out) : (d.emit o).unprot = d.unprot := rfl
@[simp] theorem Dev.emit_outUnits (d : Dev) (o : Out) : (d.emit o).outUnits = d.outUnits := rfl
@[simp] theorem Dev.emit_sweep (d : Dev) (o : Out) : (d.emit o).sweep = d.sweep := rfl
@[simp] theorem Dev.emit_tap (d : Dev) (o : Out) : (d.emit o).tap = d.tap := rfl
@[simp] theorem Dev.emit_unlocked (d : Dev) (o : Out) : (d.emit o).unlocked = d.unlocked := rfl
@[simp] theorem Dev.emit_switched (d : Dev) (o : Out) : (d.emit o).switched = d.switched := rfl
@[simp] theorem Dev.emit_busy (d : Dev) (o : Out) : (d.emit o).busy = d.busy := rfl
@[simp] theorem Dev.emit_execBeats (d : Dev) (o : Out) : (d.emit o).execBeats = d.execBeats := rfl
@[simp] theorem Dev.emit_slotAt (d : Dev) (o : Out) : (d.emit o).slotAt = d.slotAt := rfl
@[simp] theorem Dev.emit_draws (d : Dev) (o : Out) : (d.emit o).draws = d.draws := rfl
@[simp] theorem Dev.emit_effs (d : Dev) (o : Out) : (d.emit o).effs = d.effs := rfl

@[simp] theorem Dev.setObj_state (d : Dev) (i s : Nat) (v : Val) : (d.setObj i s v).state = d.state := rfl
@[simp] theorem Dev.setObj_chg (d : Dev) (i s : Nat) (v : Val) : (d.setObj i s v).chg = d.chg := rfl
@[simp] theorem Dev.setObj_facets (d : Dev) (i s : Nat) (v : Val) : (d.setObj i s v).facets = d.facets := rfl
@[simp] theorem Dev.setObj_canopy (d : Dev) (i s : Nat) (v : Val) : (d.setObj i s v).canopy = d.canopy := rfl
@[simp] theorem Dev.setObj_scans (d : Dev) (i s : Nat) (v : Val) : (d.setObj i s v).scans = d.scans := rfl
@[simp] theorem Dev.setObj_resume (d : Dev) (i s : Nat) (v : Val) : (d.setObj i s v).resume = d.resume := rfl
@[simp] theorem Dev.setObj_scanned (d : Dev) (i s : Nat) (v : Val) : (d.setObj i s v).scanned = d.scanned := rfl
@[simp] theorem Dev.setObj_sync (d : Dev) (i s : Nat) (v : Val) : (d.setObj i s v).sync = d.sync := rfl
@[simp] theorem Dev.setObj_engines (d : Dev) (i s : Nat) (v : Val) : (d.setObj i s v).engines = d.engines := rfl
@[simp] theorem Dev.setObj_stepser (d : Dev) (i s : Nat) (v : Val) : (d.setObj i s v).stepser = d.stepser := rfl
@[simp] theorem Dev.setObj_board (d : Dev) (i s : Nat) (v : Val) : (d.setObj i s v).board = d.board := rfl
@[simp] theorem Dev.setObj_boardTag (d : Dev) (i s : Nat) (v : Val) : (d.setObj i s v).boardTag = d.boardTag := rfl
@[simp] theorem Dev.setObj_spill (d : Dev) (i s : Nat) (v : Val) : (d.setObj i s v).spill = d.spill := rfl
@[simp] theorem Dev.setObj_jobs (d : Dev) (i s : Nat) (v : Val) : (d.setObj i s v).jobs = d.jobs := rfl
@[simp] theorem Dev.setObj_images (d : Dev) (i s : Nat) (v : Val) : (d.setObj i s v).images = d.images := rfl
@[simp] theorem Dev.setObj_catalogs (d : Dev) (i s : Nat) (v : Val) : (d.setObj i s v).catalogs = d.catalogs := rfl
@[simp] theorem Dev.setObj_reqs (d : Dev) (i s : Nat) (v : Val) : (d.setObj i s v).reqs = d.reqs := rfl
@[simp] theorem Dev.setObj_digests (d : Dev) (i s : Nat) (v : Val) : (d.setObj i s v).digests = d.digests := rfl
@[simp] theorem Dev.setObj_schanges (d : Dev) (i s : Nat) (v : Val) : (d.setObj i s v).schanges = d.schanges := rfl
@[simp] theorem Dev.setObj_stepDue (d : Dev) (i s : Nat) (v : Val) : (d.setObj i s v).stepDue = d.stepDue := rfl
@[simp] theorem Dev.setObj_bWaiting (d : Dev) (i s : Nat) (v : Val) : (d.setObj i s v).bWaiting = d.bWaiting := rfl
@[simp] theorem Dev.setObj_ports (d : Dev) (i s : Nat) (v : Val) : (d.setObj i s v).ports = d.ports := rfl
@[simp] theorem Dev.setObj_legs (d : Dev) (i s : Nat) (v : Val) : (d.setObj i s v).legs = d.legs := rfl
@[simp] theorem Dev.setObj_routes (d : Dev) (i s : Nat) (v : Val) : (d.setObj i s v).routes = d.routes := rfl
@[simp] theorem Dev.setObj_passRecs (d : Dev) (i s : Nat) (v : Val) : (d.setObj i s v).passRecs = d.passRecs := rfl
@[simp] theorem Dev.setObj_gwCredits (d : Dev) (i s : Nat) (v : Val) : (d.setObj i s v).gwCredits = d.gwCredits := rfl
@[simp] theorem Dev.setObj_tether (d : Dev) (i s : Nat) (v : Val) : (d.setObj i s v).tether = d.tether := rfl
@[simp] theorem Dev.setObj_groups (d : Dev) (i s : Nat) (v : Val) : (d.setObj i s v).groups = d.groups := rfl
@[simp] theorem Dev.setObj_finished (d : Dev) (i s : Nat) (v : Val) : (d.setObj i s v).finished = d.finished := rfl
@[simp] theorem Dev.setObj_heldReplies (d : Dev) (i s : Nat) (v : Val) : (d.setObj i s v).heldReplies = d.heldReplies := rfl
@[simp] theorem Dev.setObj_nextGroup (d : Dev) (i s : Nat) (v : Val) : (d.setObj i s v).nextGroup = d.nextGroup := rfl
@[simp] theorem Dev.setObj_nextOrder (d : Dev) (i s : Nat) (v : Val) : (d.setObj i s v).nextOrder = d.nextOrder := rfl
@[simp] theorem Dev.setObj_sessions (d : Dev) (i s : Nat) (v : Val) : (d.setObj i s v).sessions = d.sessions := rfl
@[simp] theorem Dev.setObj_nonces (d : Dev) (i s : Nat) (v : Val) : (d.setObj i s v).nonces = d.nonces := rfl
@[simp] theorem Dev.setObj_mgr (d : Dev) (i s : Nat) (v : Val) : (d.setObj i s v).mgr = d.mgr := rfl
@[simp] theorem Dev.setObj_mgrRound (d : Dev) (i s : Nat) (v : Val) : (d.setObj i s v).mgrRound = d.mgrRound := rfl
@[simp] theorem Dev.setObj_mgrBase (d : Dev) (i s : Nat) (v : Val) : (d.setObj i s v).mgrBase = d.mgrBase := rfl
@[simp] theorem Dev.setObj_authFails (d : Dev) (i s : Nat) (v : Val) : (d.setObj i s v).authFails = d.authFails := rfl
@[simp] theorem Dev.setObj_authRound (d : Dev) (i s : Nat) (v : Val) : (d.setObj i s v).authRound = d.authRound := rfl
@[simp] theorem Dev.setObj_notified (d : Dev) (i s : Nat) (v : Val) : (d.setObj i s v).notified = d.notified := rfl
@[simp] theorem Dev.setObj_notifyDue (d : Dev) (i s : Nat) (v : Val) : (d.setObj i s v).notifyDue = d.notifyDue := rfl
@[simp] theorem Dev.setObj_alerts (d : Dev) (i s : Nat) (v : Val) : (d.setObj i s v).alerts = d.alerts := rfl
@[simp] theorem Dev.setObj_portState (d : Dev) (i s : Nat) (v : Val) : (d.setObj i s v).portState = d.portState := rfl
@[simp] theorem Dev.setObj_permits (d : Dev) (i s : Nat) (v : Val) : (d.setObj i s v).permits = d.permits := rfl
@[simp] theorem Dev.setObj_nextPermit (d : Dev) (i s : Nat) (v : Val) : (d.setObj i s v).nextPermit = d.nextPermit := rfl
@[simp] theorem Dev.setObj_comps (d : Dev) (i s : Nat) (v : Val) : (d.setObj i s v).comps = d.comps := rfl
@[simp] theorem Dev.setObj_keys (d : Dev) (i s : Nat) (v : Val) : (d.setObj i s v).keys = d.keys := rfl
@[simp] theorem Dev.setObj_ballast (d : Dev) (i s : Nat) (v : Val) : (d.setObj i s v).ballast = d.ballast := rfl
@[simp] theorem Dev.setObj_journal (d : Dev) (i s : Nat) (v : Val) : (d.setObj i s v).journal = d.journal := rfl
@[simp] theorem Dev.setObj_boot (d : Dev) (i s : Nat) (v : Val) : (d.setObj i s v).boot = d.boot := rfl
@[simp] theorem Dev.setObj_gust (d : Dev) (i s : Nat) (v : Val) : (d.setObj i s v).gust = d.gust := rfl
@[simp] theorem Dev.setObj_samp (d : Dev) (i s : Nat) (v : Val) : (d.setObj i s v).samp = d.samp := rfl
@[simp] theorem Dev.setObj_dirtySet (d : Dev) (i s : Nat) (v : Val) : (d.setObj i s v).dirtySet = d.dirtySet := rfl
@[simp] theorem Dev.setObj_unprot (d : Dev) (i s : Nat) (v : Val) : (d.setObj i s v).unprot = d.unprot := rfl
@[simp] theorem Dev.setObj_outUnits (d : Dev) (i s : Nat) (v : Val) : (d.setObj i s v).outUnits = d.outUnits := rfl
@[simp] theorem Dev.setObj_sweep (d : Dev) (i s : Nat) (v : Val) : (d.setObj i s v).sweep = d.sweep := rfl
@[simp] theorem Dev.setObj_tap (d : Dev) (i s : Nat) (v : Val) : (d.setObj i s v).tap = d.tap := rfl
@[simp] theorem Dev.setObj_unlocked (d : Dev) (i s : Nat) (v : Val) : (d.setObj i s v).unlocked = d.unlocked := rfl
@[simp] theorem Dev.setObj_switched (d : Dev) (i s : Nat) (v : Val) : (d.setObj i s v).switched = d.switched := rfl
@[simp] theorem Dev.setObj_busy (d : Dev) (i s : Nat) (v : Val) : (d.setObj i s v).busy = d.busy := rfl
@[simp] theorem Dev.setObj_execBeats (d : Dev) (i s : Nat) (v : Val) : (d.setObj i s v).execBeats = d.execBeats := rfl
@[simp] theorem Dev.setObj_slotAt (d : Dev) (i s : Nat) (v : Val) : (d.setObj i s v).slotAt = d.slotAt := rfl
@[simp] theorem Dev.setObj_draws (d : Dev) (i s : Nat) (v : Val) : (d.setObj i s v).draws = d.draws := rfl
@[simp] theorem Dev.setObj_out (d : Dev) (i s : Nat) (v : Val) : (d.setObj i s v).out = d.out := rfl
@[simp] theorem Dev.setObj_effs (d : Dev) (i s : Nat) (v : Val) : (d.setObj i s v).effs = d.effs := rfl

@[simp] theorem Dev.setNum_state (d : Dev) (i s n : Nat) : (d.setNum i s n).state = d.state := rfl
@[simp] theorem Dev.setNum_chg (d : Dev) (i s n : Nat) : (d.setNum i s n).chg = d.chg := rfl
@[simp] theorem Dev.setNum_facets (d : Dev) (i s n : Nat) : (d.setNum i s n).facets = d.facets := rfl
@[simp] theorem Dev.setNum_canopy (d : Dev) (i s n : Nat) : (d.setNum i s n).canopy = d.canopy := rfl
@[simp] theorem Dev.setNum_scans (d : Dev) (i s n : Nat) : (d.setNum i s n).scans = d.scans := rfl
@[simp] theorem Dev.setNum_resume (d : Dev) (i s n : Nat) : (d.setNum i s n).resume = d.resume := rfl
@[simp] theorem Dev.setNum_scanned (d : Dev) (i s n : Nat) : (d.setNum i s n).scanned = d.scanned := rfl
@[simp] theorem Dev.setNum_sync (d : Dev) (i s n : Nat) : (d.setNum i s n).sync = d.sync := rfl
@[simp] theorem Dev.setNum_engines (d : Dev) (i s n : Nat) : (d.setNum i s n).engines = d.engines := rfl
@[simp] theorem Dev.setNum_stepser (d : Dev) (i s n : Nat) : (d.setNum i s n).stepser = d.stepser := rfl
@[simp] theorem Dev.setNum_board (d : Dev) (i s n : Nat) : (d.setNum i s n).board = d.board := rfl
@[simp] theorem Dev.setNum_boardTag (d : Dev) (i s n : Nat) : (d.setNum i s n).boardTag = d.boardTag := rfl
@[simp] theorem Dev.setNum_spill (d : Dev) (i s n : Nat) : (d.setNum i s n).spill = d.spill := rfl
@[simp] theorem Dev.setNum_jobs (d : Dev) (i s n : Nat) : (d.setNum i s n).jobs = d.jobs := rfl
@[simp] theorem Dev.setNum_images (d : Dev) (i s n : Nat) : (d.setNum i s n).images = d.images := rfl
@[simp] theorem Dev.setNum_catalogs (d : Dev) (i s n : Nat) : (d.setNum i s n).catalogs = d.catalogs := rfl
@[simp] theorem Dev.setNum_reqs (d : Dev) (i s n : Nat) : (d.setNum i s n).reqs = d.reqs := rfl
@[simp] theorem Dev.setNum_digests (d : Dev) (i s n : Nat) : (d.setNum i s n).digests = d.digests := rfl
@[simp] theorem Dev.setNum_schanges (d : Dev) (i s n : Nat) : (d.setNum i s n).schanges = d.schanges := rfl
@[simp] theorem Dev.setNum_stepDue (d : Dev) (i s n : Nat) : (d.setNum i s n).stepDue = d.stepDue := rfl
@[simp] theorem Dev.setNum_bWaiting (d : Dev) (i s n : Nat) : (d.setNum i s n).bWaiting = d.bWaiting := rfl
@[simp] theorem Dev.setNum_ports (d : Dev) (i s n : Nat) : (d.setNum i s n).ports = d.ports := rfl
@[simp] theorem Dev.setNum_legs (d : Dev) (i s n : Nat) : (d.setNum i s n).legs = d.legs := rfl
@[simp] theorem Dev.setNum_routes (d : Dev) (i s n : Nat) : (d.setNum i s n).routes = d.routes := rfl
@[simp] theorem Dev.setNum_passRecs (d : Dev) (i s n : Nat) : (d.setNum i s n).passRecs = d.passRecs := rfl
@[simp] theorem Dev.setNum_gwCredits (d : Dev) (i s n : Nat) : (d.setNum i s n).gwCredits = d.gwCredits := rfl
@[simp] theorem Dev.setNum_tether (d : Dev) (i s n : Nat) : (d.setNum i s n).tether = d.tether := rfl
@[simp] theorem Dev.setNum_groups (d : Dev) (i s n : Nat) : (d.setNum i s n).groups = d.groups := rfl
@[simp] theorem Dev.setNum_finished (d : Dev) (i s n : Nat) : (d.setNum i s n).finished = d.finished := rfl
@[simp] theorem Dev.setNum_heldReplies (d : Dev) (i s n : Nat) : (d.setNum i s n).heldReplies = d.heldReplies := rfl
@[simp] theorem Dev.setNum_nextGroup (d : Dev) (i s n : Nat) : (d.setNum i s n).nextGroup = d.nextGroup := rfl
@[simp] theorem Dev.setNum_nextOrder (d : Dev) (i s n : Nat) : (d.setNum i s n).nextOrder = d.nextOrder := rfl
@[simp] theorem Dev.setNum_sessions (d : Dev) (i s n : Nat) : (d.setNum i s n).sessions = d.sessions := rfl
@[simp] theorem Dev.setNum_nonces (d : Dev) (i s n : Nat) : (d.setNum i s n).nonces = d.nonces := rfl
@[simp] theorem Dev.setNum_mgr (d : Dev) (i s n : Nat) : (d.setNum i s n).mgr = d.mgr := rfl
@[simp] theorem Dev.setNum_mgrRound (d : Dev) (i s n : Nat) : (d.setNum i s n).mgrRound = d.mgrRound := rfl
@[simp] theorem Dev.setNum_mgrBase (d : Dev) (i s n : Nat) : (d.setNum i s n).mgrBase = d.mgrBase := rfl
@[simp] theorem Dev.setNum_authFails (d : Dev) (i s n : Nat) : (d.setNum i s n).authFails = d.authFails := rfl
@[simp] theorem Dev.setNum_authRound (d : Dev) (i s n : Nat) : (d.setNum i s n).authRound = d.authRound := rfl
@[simp] theorem Dev.setNum_notified (d : Dev) (i s n : Nat) : (d.setNum i s n).notified = d.notified := rfl
@[simp] theorem Dev.setNum_notifyDue (d : Dev) (i s n : Nat) : (d.setNum i s n).notifyDue = d.notifyDue := rfl
@[simp] theorem Dev.setNum_alerts (d : Dev) (i s n : Nat) : (d.setNum i s n).alerts = d.alerts := rfl
@[simp] theorem Dev.setNum_portState (d : Dev) (i s n : Nat) : (d.setNum i s n).portState = d.portState := rfl
@[simp] theorem Dev.setNum_permits (d : Dev) (i s n : Nat) : (d.setNum i s n).permits = d.permits := rfl
@[simp] theorem Dev.setNum_nextPermit (d : Dev) (i s n : Nat) : (d.setNum i s n).nextPermit = d.nextPermit := rfl
@[simp] theorem Dev.setNum_comps (d : Dev) (i s n : Nat) : (d.setNum i s n).comps = d.comps := rfl
@[simp] theorem Dev.setNum_keys (d : Dev) (i s n : Nat) : (d.setNum i s n).keys = d.keys := rfl
@[simp] theorem Dev.setNum_ballast (d : Dev) (i s n : Nat) : (d.setNum i s n).ballast = d.ballast := rfl
@[simp] theorem Dev.setNum_journal (d : Dev) (i s n : Nat) : (d.setNum i s n).journal = d.journal := rfl
@[simp] theorem Dev.setNum_boot (d : Dev) (i s n : Nat) : (d.setNum i s n).boot = d.boot := rfl
@[simp] theorem Dev.setNum_gust (d : Dev) (i s n : Nat) : (d.setNum i s n).gust = d.gust := rfl
@[simp] theorem Dev.setNum_samp (d : Dev) (i s n : Nat) : (d.setNum i s n).samp = d.samp := rfl
@[simp] theorem Dev.setNum_dirtySet (d : Dev) (i s n : Nat) : (d.setNum i s n).dirtySet = d.dirtySet := rfl
@[simp] theorem Dev.setNum_unprot (d : Dev) (i s n : Nat) : (d.setNum i s n).unprot = d.unprot := rfl
@[simp] theorem Dev.setNum_outUnits (d : Dev) (i s n : Nat) : (d.setNum i s n).outUnits = d.outUnits := rfl
@[simp] theorem Dev.setNum_sweep (d : Dev) (i s n : Nat) : (d.setNum i s n).sweep = d.sweep := rfl
@[simp] theorem Dev.setNum_tap (d : Dev) (i s n : Nat) : (d.setNum i s n).tap = d.tap := rfl
@[simp] theorem Dev.setNum_unlocked (d : Dev) (i s n : Nat) : (d.setNum i s n).unlocked = d.unlocked := rfl
@[simp] theorem Dev.setNum_switched (d : Dev) (i s n : Nat) : (d.setNum i s n).switched = d.switched := rfl
@[simp] theorem Dev.setNum_busy (d : Dev) (i s n : Nat) : (d.setNum i s n).busy = d.busy := rfl
@[simp] theorem Dev.setNum_execBeats (d : Dev) (i s n : Nat) : (d.setNum i s n).execBeats = d.execBeats := rfl
@[simp] theorem Dev.setNum_slotAt (d : Dev) (i s n : Nat) : (d.setNum i s n).slotAt = d.slotAt := rfl
@[simp] theorem Dev.setNum_draws (d : Dev) (i s n : Nat) : (d.setNum i s n).draws = d.draws := rfl
@[simp] theorem Dev.setNum_out (d : Dev) (i s n : Nat) : (d.setNum i s n).out = d.out := rfl
@[simp] theorem Dev.setNum_effs (d : Dev) (i s n : Nat) : (d.setNum i s n).effs = d.effs := rfl

@[simp] theorem Dev.count_state (d : Dev) (i s n : Nat) : (d.count i s n).state = d.state := rfl
@[simp] theorem Dev.count_chg (d : Dev) (i s n : Nat) : (d.count i s n).chg = d.chg := rfl
@[simp] theorem Dev.count_facets (d : Dev) (i s n : Nat) : (d.count i s n).facets = d.facets := rfl
@[simp] theorem Dev.count_canopy (d : Dev) (i s n : Nat) : (d.count i s n).canopy = d.canopy := rfl
@[simp] theorem Dev.count_scans (d : Dev) (i s n : Nat) : (d.count i s n).scans = d.scans := rfl
@[simp] theorem Dev.count_resume (d : Dev) (i s n : Nat) : (d.count i s n).resume = d.resume := rfl
@[simp] theorem Dev.count_scanned (d : Dev) (i s n : Nat) : (d.count i s n).scanned = d.scanned := rfl
@[simp] theorem Dev.count_sync (d : Dev) (i s n : Nat) : (d.count i s n).sync = d.sync := rfl
@[simp] theorem Dev.count_engines (d : Dev) (i s n : Nat) : (d.count i s n).engines = d.engines := rfl
@[simp] theorem Dev.count_stepser (d : Dev) (i s n : Nat) : (d.count i s n).stepser = d.stepser := rfl
@[simp] theorem Dev.count_board (d : Dev) (i s n : Nat) : (d.count i s n).board = d.board := rfl
@[simp] theorem Dev.count_boardTag (d : Dev) (i s n : Nat) : (d.count i s n).boardTag = d.boardTag := rfl
@[simp] theorem Dev.count_spill (d : Dev) (i s n : Nat) : (d.count i s n).spill = d.spill := rfl
@[simp] theorem Dev.count_jobs (d : Dev) (i s n : Nat) : (d.count i s n).jobs = d.jobs := rfl
@[simp] theorem Dev.count_images (d : Dev) (i s n : Nat) : (d.count i s n).images = d.images := rfl
@[simp] theorem Dev.count_catalogs (d : Dev) (i s n : Nat) : (d.count i s n).catalogs = d.catalogs := rfl
@[simp] theorem Dev.count_reqs (d : Dev) (i s n : Nat) : (d.count i s n).reqs = d.reqs := rfl
@[simp] theorem Dev.count_digests (d : Dev) (i s n : Nat) : (d.count i s n).digests = d.digests := rfl
@[simp] theorem Dev.count_schanges (d : Dev) (i s n : Nat) : (d.count i s n).schanges = d.schanges := rfl
@[simp] theorem Dev.count_stepDue (d : Dev) (i s n : Nat) : (d.count i s n).stepDue = d.stepDue := rfl
@[simp] theorem Dev.count_bWaiting (d : Dev) (i s n : Nat) : (d.count i s n).bWaiting = d.bWaiting := rfl
@[simp] theorem Dev.count_ports (d : Dev) (i s n : Nat) : (d.count i s n).ports = d.ports := rfl
@[simp] theorem Dev.count_legs (d : Dev) (i s n : Nat) : (d.count i s n).legs = d.legs := rfl
@[simp] theorem Dev.count_routes (d : Dev) (i s n : Nat) : (d.count i s n).routes = d.routes := rfl
@[simp] theorem Dev.count_passRecs (d : Dev) (i s n : Nat) : (d.count i s n).passRecs = d.passRecs := rfl
@[simp] theorem Dev.count_gwCredits (d : Dev) (i s n : Nat) : (d.count i s n).gwCredits = d.gwCredits := rfl
@[simp] theorem Dev.count_tether (d : Dev) (i s n : Nat) : (d.count i s n).tether = d.tether := rfl
@[simp] theorem Dev.count_groups (d : Dev) (i s n : Nat) : (d.count i s n).groups = d.groups := rfl
@[simp] theorem Dev.count_finished (d : Dev) (i s n : Nat) : (d.count i s n).finished = d.finished := rfl
@[simp] theorem Dev.count_heldReplies (d : Dev) (i s n : Nat) : (d.count i s n).heldReplies = d.heldReplies := rfl
@[simp] theorem Dev.count_nextGroup (d : Dev) (i s n : Nat) : (d.count i s n).nextGroup = d.nextGroup := rfl
@[simp] theorem Dev.count_nextOrder (d : Dev) (i s n : Nat) : (d.count i s n).nextOrder = d.nextOrder := rfl
@[simp] theorem Dev.count_sessions (d : Dev) (i s n : Nat) : (d.count i s n).sessions = d.sessions := rfl
@[simp] theorem Dev.count_nonces (d : Dev) (i s n : Nat) : (d.count i s n).nonces = d.nonces := rfl
@[simp] theorem Dev.count_mgr (d : Dev) (i s n : Nat) : (d.count i s n).mgr = d.mgr := rfl
@[simp] theorem Dev.count_mgrRound (d : Dev) (i s n : Nat) : (d.count i s n).mgrRound = d.mgrRound := rfl
@[simp] theorem Dev.count_mgrBase (d : Dev) (i s n : Nat) : (d.count i s n).mgrBase = d.mgrBase := rfl
@[simp] theorem Dev.count_authFails (d : Dev) (i s n : Nat) : (d.count i s n).authFails = d.authFails := rfl
@[simp] theorem Dev.count_authRound (d : Dev) (i s n : Nat) : (d.count i s n).authRound = d.authRound := rfl
@[simp] theorem Dev.count_notified (d : Dev) (i s n : Nat) : (d.count i s n).notified = d.notified := rfl
@[simp] theorem Dev.count_notifyDue (d : Dev) (i s n : Nat) : (d.count i s n).notifyDue = d.notifyDue := rfl
@[simp] theorem Dev.count_alerts (d : Dev) (i s n : Nat) : (d.count i s n).alerts = d.alerts := rfl
@[simp] theorem Dev.count_portState (d : Dev) (i s n : Nat) : (d.count i s n).portState = d.portState := rfl
@[simp] theorem Dev.count_permits (d : Dev) (i s n : Nat) : (d.count i s n).permits = d.permits := rfl
@[simp] theorem Dev.count_nextPermit (d : Dev) (i s n : Nat) : (d.count i s n).nextPermit = d.nextPermit := rfl
@[simp] theorem Dev.count_comps (d : Dev) (i s n : Nat) : (d.count i s n).comps = d.comps := rfl
@[simp] theorem Dev.count_keys (d : Dev) (i s n : Nat) : (d.count i s n).keys = d.keys := rfl
@[simp] theorem Dev.count_ballast (d : Dev) (i s n : Nat) : (d.count i s n).ballast = d.ballast := rfl
@[simp] theorem Dev.count_journal (d : Dev) (i s n : Nat) : (d.count i s n).journal = d.journal := rfl
@[simp] theorem Dev.count_boot (d : Dev) (i s n : Nat) : (d.count i s n).boot = d.boot := rfl
@[simp] theorem Dev.count_gust (d : Dev) (i s n : Nat) : (d.count i s n).gust = d.gust := rfl
@[simp] theorem Dev.count_samp (d : Dev) (i s n : Nat) : (d.count i s n).samp = d.samp := rfl
@[simp] theorem Dev.count_dirtySet (d : Dev) (i s n : Nat) : (d.count i s n).dirtySet = d.dirtySet := rfl
@[simp] theorem Dev.count_unprot (d : Dev) (i s n : Nat) : (d.count i s n).unprot = d.unprot := rfl
@[simp] theorem Dev.count_outUnits (d : Dev) (i s n : Nat) : (d.count i s n).outUnits = d.outUnits := rfl
@[simp] theorem Dev.count_sweep (d : Dev) (i s n : Nat) : (d.count i s n).sweep = d.sweep := rfl
@[simp] theorem Dev.count_tap (d : Dev) (i s n : Nat) : (d.count i s n).tap = d.tap := rfl
@[simp] theorem Dev.count_unlocked (d : Dev) (i s n : Nat) : (d.count i s n).unlocked = d.unlocked := rfl
@[simp] theorem Dev.count_switched (d : Dev) (i s n : Nat) : (d.count i s n).switched = d.switched := rfl
@[simp] theorem Dev.count_busy (d : Dev) (i s n : Nat) : (d.count i s n).busy = d.busy := rfl
@[simp] theorem Dev.count_execBeats (d : Dev) (i s n : Nat) : (d.count i s n).execBeats = d.execBeats := rfl
@[simp] theorem Dev.count_slotAt (d : Dev) (i s n : Nat) : (d.count i s n).slotAt = d.slotAt := rfl
@[simp] theorem Dev.count_draws (d : Dev) (i s n : Nat) : (d.count i s n).draws = d.draws := rfl
@[simp] theorem Dev.count_out (d : Dev) (i s n : Nat) : (d.count i s n).out = d.out := rfl
@[simp] theorem Dev.count_effs (d : Dev) (i s n : Nat) : (d.count i s n).effs = d.effs := rfl

@[simp] theorem Dev.setFacet_state (d : Dev) (n : Nat) (f : Facet) : (d.setFacet n f).state = d.state := rfl
@[simp] theorem Dev.setFacet_objs (d : Dev) (n : Nat) (f : Facet) : (d.setFacet n f).objs = d.objs := rfl
@[simp] theorem Dev.setFacet_chg (d : Dev) (n : Nat) (f : Facet) : (d.setFacet n f).chg = d.chg := rfl
@[simp] theorem Dev.setFacet_canopy (d : Dev) (n : Nat) (f : Facet) : (d.setFacet n f).canopy = d.canopy := rfl
@[simp] theorem Dev.setFacet_scans (d : Dev) (n : Nat) (f : Facet) : (d.setFacet n f).scans = d.scans := rfl
@[simp] theorem Dev.setFacet_resume (d : Dev) (n : Nat) (f : Facet) : (d.setFacet n f).resume = d.resume := rfl
@[simp] theorem Dev.setFacet_scanned (d : Dev) (n : Nat) (f : Facet) : (d.setFacet n f).scanned = d.scanned := rfl
@[simp] theorem Dev.setFacet_sync (d : Dev) (n : Nat) (f : Facet) : (d.setFacet n f).sync = d.sync := rfl
@[simp] theorem Dev.setFacet_engines (d : Dev) (n : Nat) (f : Facet) : (d.setFacet n f).engines = d.engines := rfl
@[simp] theorem Dev.setFacet_stepser (d : Dev) (n : Nat) (f : Facet) : (d.setFacet n f).stepser = d.stepser := rfl
@[simp] theorem Dev.setFacet_board (d : Dev) (n : Nat) (f : Facet) : (d.setFacet n f).board = d.board := rfl
@[simp] theorem Dev.setFacet_boardTag (d : Dev) (n : Nat) (f : Facet) : (d.setFacet n f).boardTag = d.boardTag := rfl
@[simp] theorem Dev.setFacet_spill (d : Dev) (n : Nat) (f : Facet) : (d.setFacet n f).spill = d.spill := rfl
@[simp] theorem Dev.setFacet_jobs (d : Dev) (n : Nat) (f : Facet) : (d.setFacet n f).jobs = d.jobs := rfl
@[simp] theorem Dev.setFacet_images (d : Dev) (n : Nat) (f : Facet) : (d.setFacet n f).images = d.images := rfl
@[simp] theorem Dev.setFacet_catalogs (d : Dev) (n : Nat) (f : Facet) : (d.setFacet n f).catalogs = d.catalogs := rfl
@[simp] theorem Dev.setFacet_reqs (d : Dev) (n : Nat) (f : Facet) : (d.setFacet n f).reqs = d.reqs := rfl
@[simp] theorem Dev.setFacet_digests (d : Dev) (n : Nat) (f : Facet) : (d.setFacet n f).digests = d.digests := rfl
@[simp] theorem Dev.setFacet_schanges (d : Dev) (n : Nat) (f : Facet) : (d.setFacet n f).schanges = d.schanges := rfl
@[simp] theorem Dev.setFacet_stepDue (d : Dev) (n : Nat) (f : Facet) : (d.setFacet n f).stepDue = d.stepDue := rfl
@[simp] theorem Dev.setFacet_bWaiting (d : Dev) (n : Nat) (f : Facet) : (d.setFacet n f).bWaiting = d.bWaiting := rfl
@[simp] theorem Dev.setFacet_ports (d : Dev) (n : Nat) (f : Facet) : (d.setFacet n f).ports = d.ports := rfl
@[simp] theorem Dev.setFacet_legs (d : Dev) (n : Nat) (f : Facet) : (d.setFacet n f).legs = d.legs := rfl
@[simp] theorem Dev.setFacet_routes (d : Dev) (n : Nat) (f : Facet) : (d.setFacet n f).routes = d.routes := rfl
@[simp] theorem Dev.setFacet_passRecs (d : Dev) (n : Nat) (f : Facet) : (d.setFacet n f).passRecs = d.passRecs := rfl
@[simp] theorem Dev.setFacet_gwCredits (d : Dev) (n : Nat) (f : Facet) : (d.setFacet n f).gwCredits = d.gwCredits := rfl
@[simp] theorem Dev.setFacet_tether (d : Dev) (n : Nat) (f : Facet) : (d.setFacet n f).tether = d.tether := rfl
@[simp] theorem Dev.setFacet_groups (d : Dev) (n : Nat) (f : Facet) : (d.setFacet n f).groups = d.groups := rfl
@[simp] theorem Dev.setFacet_finished (d : Dev) (n : Nat) (f : Facet) : (d.setFacet n f).finished = d.finished := rfl
@[simp] theorem Dev.setFacet_heldReplies (d : Dev) (n : Nat) (f : Facet) : (d.setFacet n f).heldReplies = d.heldReplies := rfl
@[simp] theorem Dev.setFacet_nextGroup (d : Dev) (n : Nat) (f : Facet) : (d.setFacet n f).nextGroup = d.nextGroup := rfl
@[simp] theorem Dev.setFacet_nextOrder (d : Dev) (n : Nat) (f : Facet) : (d.setFacet n f).nextOrder = d.nextOrder := rfl
@[simp] theorem Dev.setFacet_sessions (d : Dev) (n : Nat) (f : Facet) : (d.setFacet n f).sessions = d.sessions := rfl
@[simp] theorem Dev.setFacet_nonces (d : Dev) (n : Nat) (f : Facet) : (d.setFacet n f).nonces = d.nonces := rfl
@[simp] theorem Dev.setFacet_mgr (d : Dev) (n : Nat) (f : Facet) : (d.setFacet n f).mgr = d.mgr := rfl
@[simp] theorem Dev.setFacet_mgrRound (d : Dev) (n : Nat) (f : Facet) : (d.setFacet n f).mgrRound = d.mgrRound := rfl
@[simp] theorem Dev.setFacet_mgrBase (d : Dev) (n : Nat) (f : Facet) : (d.setFacet n f).mgrBase = d.mgrBase := rfl
@[simp] theorem Dev.setFacet_authFails (d : Dev) (n : Nat) (f : Facet) : (d.setFacet n f).authFails = d.authFails := rfl
@[simp] theorem Dev.setFacet_authRound (d : Dev) (n : Nat) (f : Facet) : (d.setFacet n f).authRound = d.authRound := rfl
@[simp] theorem Dev.setFacet_notified (d : Dev) (n : Nat) (f : Facet) : (d.setFacet n f).notified = d.notified := rfl
@[simp] theorem Dev.setFacet_notifyDue (d : Dev) (n : Nat) (f : Facet) : (d.setFacet n f).notifyDue = d.notifyDue := rfl
@[simp] theorem Dev.setFacet_alerts (d : Dev) (n : Nat) (f : Facet) : (d.setFacet n f).alerts = d.alerts := rfl
@[simp] theorem Dev.setFacet_portState (d : Dev) (n : Nat) (f : Facet) : (d.setFacet n f).portState = d.portState := rfl
@[simp] theorem Dev.setFacet_permits (d : Dev) (n : Nat) (f : Facet) : (d.setFacet n f).permits = d.permits := rfl
@[simp] theorem Dev.setFacet_nextPermit (d : Dev) (n : Nat) (f : Facet) : (d.setFacet n f).nextPermit = d.nextPermit := rfl
@[simp] theorem Dev.setFacet_comps (d : Dev) (n : Nat) (f : Facet) : (d.setFacet n f).comps = d.comps := rfl
@[simp] theorem Dev.setFacet_keys (d : Dev) (n : Nat) (f : Facet) : (d.setFacet n f).keys = d.keys := rfl
@[simp] theorem Dev.setFacet_ballast (d : Dev) (n : Nat) (f : Facet) : (d.setFacet n f).ballast = d.ballast := rfl
@[simp] theorem Dev.setFacet_journal (d : Dev) (n : Nat) (f : Facet) : (d.setFacet n f).journal = d.journal := rfl
@[simp] theorem Dev.setFacet_boot (d : Dev) (n : Nat) (f : Facet) : (d.setFacet n f).boot = d.boot := rfl
@[simp] theorem Dev.setFacet_gust (d : Dev) (n : Nat) (f : Facet) : (d.setFacet n f).gust = d.gust := rfl
@[simp] theorem Dev.setFacet_samp (d : Dev) (n : Nat) (f : Facet) : (d.setFacet n f).samp = d.samp := rfl
@[simp] theorem Dev.setFacet_dirtySet (d : Dev) (n : Nat) (f : Facet) : (d.setFacet n f).dirtySet = d.dirtySet := rfl
@[simp] theorem Dev.setFacet_unprot (d : Dev) (n : Nat) (f : Facet) : (d.setFacet n f).unprot = d.unprot := rfl
@[simp] theorem Dev.setFacet_outUnits (d : Dev) (n : Nat) (f : Facet) : (d.setFacet n f).outUnits = d.outUnits := rfl
@[simp] theorem Dev.setFacet_sweep (d : Dev) (n : Nat) (f : Facet) : (d.setFacet n f).sweep = d.sweep := rfl
@[simp] theorem Dev.setFacet_tap (d : Dev) (n : Nat) (f : Facet) : (d.setFacet n f).tap = d.tap := rfl
@[simp] theorem Dev.setFacet_unlocked (d : Dev) (n : Nat) (f : Facet) : (d.setFacet n f).unlocked = d.unlocked := rfl
@[simp] theorem Dev.setFacet_switched (d : Dev) (n : Nat) (f : Facet) : (d.setFacet n f).switched = d.switched := rfl
@[simp] theorem Dev.setFacet_busy (d : Dev) (n : Nat) (f : Facet) : (d.setFacet n f).busy = d.busy := rfl
@[simp] theorem Dev.setFacet_execBeats (d : Dev) (n : Nat) (f : Facet) : (d.setFacet n f).execBeats = d.execBeats := rfl
@[simp] theorem Dev.setFacet_slotAt (d : Dev) (n : Nat) (f : Facet) : (d.setFacet n f).slotAt = d.slotAt := rfl
@[simp] theorem Dev.setFacet_draws (d : Dev) (n : Nat) (f : Facet) : (d.setFacet n f).draws = d.draws := rfl
@[simp] theorem Dev.setFacet_out (d : Dev) (n : Nat) (f : Facet) : (d.setFacet n f).out = d.out := rfl
@[simp] theorem Dev.setFacet_effs (d : Dev) (n : Nat) (f : Facet) : (d.setFacet n f).effs = d.effs := rfl

@[simp] theorem Dev.setCanopy_state (d : Dev) (c : Nat) (k : Canopy) : (d.setCanopy c k).state = d.state := rfl
@[simp] theorem Dev.setCanopy_objs (d : Dev) (c : Nat) (k : Canopy) : (d.setCanopy c k).objs = d.objs := rfl
@[simp] theorem Dev.setCanopy_chg (d : Dev) (c : Nat) (k : Canopy) : (d.setCanopy c k).chg = d.chg := rfl
@[simp] theorem Dev.setCanopy_facets (d : Dev) (c : Nat) (k : Canopy) : (d.setCanopy c k).facets = d.facets := rfl
@[simp] theorem Dev.setCanopy_scans (d : Dev) (c : Nat) (k : Canopy) : (d.setCanopy c k).scans = d.scans := rfl
@[simp] theorem Dev.setCanopy_resume (d : Dev) (c : Nat) (k : Canopy) : (d.setCanopy c k).resume = d.resume := rfl
@[simp] theorem Dev.setCanopy_scanned (d : Dev) (c : Nat) (k : Canopy) : (d.setCanopy c k).scanned = d.scanned := rfl
@[simp] theorem Dev.setCanopy_sync (d : Dev) (c : Nat) (k : Canopy) : (d.setCanopy c k).sync = d.sync := rfl
@[simp] theorem Dev.setCanopy_engines (d : Dev) (c : Nat) (k : Canopy) : (d.setCanopy c k).engines = d.engines := rfl
@[simp] theorem Dev.setCanopy_stepser (d : Dev) (c : Nat) (k : Canopy) : (d.setCanopy c k).stepser = d.stepser := rfl
@[simp] theorem Dev.setCanopy_board (d : Dev) (c : Nat) (k : Canopy) : (d.setCanopy c k).board = d.board := rfl
@[simp] theorem Dev.setCanopy_boardTag (d : Dev) (c : Nat) (k : Canopy) : (d.setCanopy c k).boardTag = d.boardTag := rfl
@[simp] theorem Dev.setCanopy_spill (d : Dev) (c : Nat) (k : Canopy) : (d.setCanopy c k).spill = d.spill := rfl
@[simp] theorem Dev.setCanopy_jobs (d : Dev) (c : Nat) (k : Canopy) : (d.setCanopy c k).jobs = d.jobs := rfl
@[simp] theorem Dev.setCanopy_images (d : Dev) (c : Nat) (k : Canopy) : (d.setCanopy c k).images = d.images := rfl
@[simp] theorem Dev.setCanopy_catalogs (d : Dev) (c : Nat) (k : Canopy) : (d.setCanopy c k).catalogs = d.catalogs := rfl
@[simp] theorem Dev.setCanopy_reqs (d : Dev) (c : Nat) (k : Canopy) : (d.setCanopy c k).reqs = d.reqs := rfl
@[simp] theorem Dev.setCanopy_digests (d : Dev) (c : Nat) (k : Canopy) : (d.setCanopy c k).digests = d.digests := rfl
@[simp] theorem Dev.setCanopy_schanges (d : Dev) (c : Nat) (k : Canopy) : (d.setCanopy c k).schanges = d.schanges := rfl
@[simp] theorem Dev.setCanopy_stepDue (d : Dev) (c : Nat) (k : Canopy) : (d.setCanopy c k).stepDue = d.stepDue := rfl
@[simp] theorem Dev.setCanopy_bWaiting (d : Dev) (c : Nat) (k : Canopy) : (d.setCanopy c k).bWaiting = d.bWaiting := rfl
@[simp] theorem Dev.setCanopy_ports (d : Dev) (c : Nat) (k : Canopy) : (d.setCanopy c k).ports = d.ports := rfl
@[simp] theorem Dev.setCanopy_legs (d : Dev) (c : Nat) (k : Canopy) : (d.setCanopy c k).legs = d.legs := rfl
@[simp] theorem Dev.setCanopy_routes (d : Dev) (c : Nat) (k : Canopy) : (d.setCanopy c k).routes = d.routes := rfl
@[simp] theorem Dev.setCanopy_passRecs (d : Dev) (c : Nat) (k : Canopy) : (d.setCanopy c k).passRecs = d.passRecs := rfl
@[simp] theorem Dev.setCanopy_gwCredits (d : Dev) (c : Nat) (k : Canopy) : (d.setCanopy c k).gwCredits = d.gwCredits := rfl
@[simp] theorem Dev.setCanopy_tether (d : Dev) (c : Nat) (k : Canopy) : (d.setCanopy c k).tether = d.tether := rfl
@[simp] theorem Dev.setCanopy_groups (d : Dev) (c : Nat) (k : Canopy) : (d.setCanopy c k).groups = d.groups := rfl
@[simp] theorem Dev.setCanopy_finished (d : Dev) (c : Nat) (k : Canopy) : (d.setCanopy c k).finished = d.finished := rfl
@[simp] theorem Dev.setCanopy_heldReplies (d : Dev) (c : Nat) (k : Canopy) : (d.setCanopy c k).heldReplies = d.heldReplies := rfl
@[simp] theorem Dev.setCanopy_nextGroup (d : Dev) (c : Nat) (k : Canopy) : (d.setCanopy c k).nextGroup = d.nextGroup := rfl
@[simp] theorem Dev.setCanopy_nextOrder (d : Dev) (c : Nat) (k : Canopy) : (d.setCanopy c k).nextOrder = d.nextOrder := rfl
@[simp] theorem Dev.setCanopy_sessions (d : Dev) (c : Nat) (k : Canopy) : (d.setCanopy c k).sessions = d.sessions := rfl
@[simp] theorem Dev.setCanopy_nonces (d : Dev) (c : Nat) (k : Canopy) : (d.setCanopy c k).nonces = d.nonces := rfl
@[simp] theorem Dev.setCanopy_mgr (d : Dev) (c : Nat) (k : Canopy) : (d.setCanopy c k).mgr = d.mgr := rfl
@[simp] theorem Dev.setCanopy_mgrRound (d : Dev) (c : Nat) (k : Canopy) : (d.setCanopy c k).mgrRound = d.mgrRound := rfl
@[simp] theorem Dev.setCanopy_mgrBase (d : Dev) (c : Nat) (k : Canopy) : (d.setCanopy c k).mgrBase = d.mgrBase := rfl
@[simp] theorem Dev.setCanopy_authFails (d : Dev) (c : Nat) (k : Canopy) : (d.setCanopy c k).authFails = d.authFails := rfl
@[simp] theorem Dev.setCanopy_authRound (d : Dev) (c : Nat) (k : Canopy) : (d.setCanopy c k).authRound = d.authRound := rfl
@[simp] theorem Dev.setCanopy_notified (d : Dev) (c : Nat) (k : Canopy) : (d.setCanopy c k).notified = d.notified := rfl
@[simp] theorem Dev.setCanopy_notifyDue (d : Dev) (c : Nat) (k : Canopy) : (d.setCanopy c k).notifyDue = d.notifyDue := rfl
@[simp] theorem Dev.setCanopy_alerts (d : Dev) (c : Nat) (k : Canopy) : (d.setCanopy c k).alerts = d.alerts := rfl
@[simp] theorem Dev.setCanopy_portState (d : Dev) (c : Nat) (k : Canopy) : (d.setCanopy c k).portState = d.portState := rfl
@[simp] theorem Dev.setCanopy_permits (d : Dev) (c : Nat) (k : Canopy) : (d.setCanopy c k).permits = d.permits := rfl
@[simp] theorem Dev.setCanopy_nextPermit (d : Dev) (c : Nat) (k : Canopy) : (d.setCanopy c k).nextPermit = d.nextPermit := rfl
@[simp] theorem Dev.setCanopy_comps (d : Dev) (c : Nat) (k : Canopy) : (d.setCanopy c k).comps = d.comps := rfl
@[simp] theorem Dev.setCanopy_keys (d : Dev) (c : Nat) (k : Canopy) : (d.setCanopy c k).keys = d.keys := rfl
@[simp] theorem Dev.setCanopy_ballast (d : Dev) (c : Nat) (k : Canopy) : (d.setCanopy c k).ballast = d.ballast := rfl
@[simp] theorem Dev.setCanopy_journal (d : Dev) (c : Nat) (k : Canopy) : (d.setCanopy c k).journal = d.journal := rfl
@[simp] theorem Dev.setCanopy_boot (d : Dev) (c : Nat) (k : Canopy) : (d.setCanopy c k).boot = d.boot := rfl
@[simp] theorem Dev.setCanopy_gust (d : Dev) (c : Nat) (k : Canopy) : (d.setCanopy c k).gust = d.gust := rfl
@[simp] theorem Dev.setCanopy_samp (d : Dev) (c : Nat) (k : Canopy) : (d.setCanopy c k).samp = d.samp := rfl
@[simp] theorem Dev.setCanopy_dirtySet (d : Dev) (c : Nat) (k : Canopy) : (d.setCanopy c k).dirtySet = d.dirtySet := rfl
@[simp] theorem Dev.setCanopy_unprot (d : Dev) (c : Nat) (k : Canopy) : (d.setCanopy c k).unprot = d.unprot := rfl
@[simp] theorem Dev.setCanopy_outUnits (d : Dev) (c : Nat) (k : Canopy) : (d.setCanopy c k).outUnits = d.outUnits := rfl
@[simp] theorem Dev.setCanopy_sweep (d : Dev) (c : Nat) (k : Canopy) : (d.setCanopy c k).sweep = d.sweep := rfl
@[simp] theorem Dev.setCanopy_tap (d : Dev) (c : Nat) (k : Canopy) : (d.setCanopy c k).tap = d.tap := rfl
@[simp] theorem Dev.setCanopy_unlocked (d : Dev) (c : Nat) (k : Canopy) : (d.setCanopy c k).unlocked = d.unlocked := rfl
@[simp] theorem Dev.setCanopy_switched (d : Dev) (c : Nat) (k : Canopy) : (d.setCanopy c k).switched = d.switched := rfl
@[simp] theorem Dev.setCanopy_busy (d : Dev) (c : Nat) (k : Canopy) : (d.setCanopy c k).busy = d.busy := rfl
@[simp] theorem Dev.setCanopy_execBeats (d : Dev) (c : Nat) (k : Canopy) : (d.setCanopy c k).execBeats = d.execBeats := rfl
@[simp] theorem Dev.setCanopy_slotAt (d : Dev) (c : Nat) (k : Canopy) : (d.setCanopy c k).slotAt = d.slotAt := rfl
@[simp] theorem Dev.setCanopy_draws (d : Dev) (c : Nat) (k : Canopy) : (d.setCanopy c k).draws = d.draws := rfl
@[simp] theorem Dev.setCanopy_out (d : Dev) (c : Nat) (k : Canopy) : (d.setCanopy c k).out = d.out := rfl
@[simp] theorem Dev.setCanopy_effs (d : Dev) (c : Nat) (k : Canopy) : (d.setCanopy c k).effs = d.effs := rfl

@[simp] theorem Dev.setEngine_state (d : Dev) (e : Nat) (g : Engine) : (d.setEngine e g).state = d.state := rfl
@[simp] theorem Dev.setEngine_objs (d : Dev) (e : Nat) (g : Engine) : (d.setEngine e g).objs = d.objs := rfl
@[simp] theorem Dev.setEngine_chg (d : Dev) (e : Nat) (g : Engine) : (d.setEngine e g).chg = d.chg := rfl
@[simp] theorem Dev.setEngine_facets (d : Dev) (e : Nat) (g : Engine) : (d.setEngine e g).facets = d.facets := rfl
@[simp] theorem Dev.setEngine_canopy (d : Dev) (e : Nat) (g : Engine) : (d.setEngine e g).canopy = d.canopy := rfl
@[simp] theorem Dev.setEngine_scans (d : Dev) (e : Nat) (g : Engine) : (d.setEngine e g).scans = d.scans := rfl
@[simp] theorem Dev.setEngine_resume (d : Dev) (e : Nat) (g : Engine) : (d.setEngine e g).resume = d.resume := rfl
@[simp] theorem Dev.setEngine_scanned (d : Dev) (e : Nat) (g : Engine) : (d.setEngine e g).scanned = d.scanned := rfl
@[simp] theorem Dev.setEngine_sync (d : Dev) (e : Nat) (g : Engine) : (d.setEngine e g).sync = d.sync := rfl
@[simp] theorem Dev.setEngine_stepser (d : Dev) (e : Nat) (g : Engine) : (d.setEngine e g).stepser = d.stepser := rfl
@[simp] theorem Dev.setEngine_board (d : Dev) (e : Nat) (g : Engine) : (d.setEngine e g).board = d.board := rfl
@[simp] theorem Dev.setEngine_boardTag (d : Dev) (e : Nat) (g : Engine) : (d.setEngine e g).boardTag = d.boardTag := rfl
@[simp] theorem Dev.setEngine_spill (d : Dev) (e : Nat) (g : Engine) : (d.setEngine e g).spill = d.spill := rfl
@[simp] theorem Dev.setEngine_jobs (d : Dev) (e : Nat) (g : Engine) : (d.setEngine e g).jobs = d.jobs := rfl
@[simp] theorem Dev.setEngine_images (d : Dev) (e : Nat) (g : Engine) : (d.setEngine e g).images = d.images := rfl
@[simp] theorem Dev.setEngine_catalogs (d : Dev) (e : Nat) (g : Engine) : (d.setEngine e g).catalogs = d.catalogs := rfl
@[simp] theorem Dev.setEngine_reqs (d : Dev) (e : Nat) (g : Engine) : (d.setEngine e g).reqs = d.reqs := rfl
@[simp] theorem Dev.setEngine_digests (d : Dev) (e : Nat) (g : Engine) : (d.setEngine e g).digests = d.digests := rfl
@[simp] theorem Dev.setEngine_schanges (d : Dev) (e : Nat) (g : Engine) : (d.setEngine e g).schanges = d.schanges := rfl
@[simp] theorem Dev.setEngine_stepDue (d : Dev) (e : Nat) (g : Engine) : (d.setEngine e g).stepDue = d.stepDue := rfl
@[simp] theorem Dev.setEngine_bWaiting (d : Dev) (e : Nat) (g : Engine) : (d.setEngine e g).bWaiting = d.bWaiting := rfl
@[simp] theorem Dev.setEngine_ports (d : Dev) (e : Nat) (g : Engine) : (d.setEngine e g).ports = d.ports := rfl
@[simp] theorem Dev.setEngine_legs (d : Dev) (e : Nat) (g : Engine) : (d.setEngine e g).legs = d.legs := rfl
@[simp] theorem Dev.setEngine_routes (d : Dev) (e : Nat) (g : Engine) : (d.setEngine e g).routes = d.routes := rfl
@[simp] theorem Dev.setEngine_passRecs (d : Dev) (e : Nat) (g : Engine) : (d.setEngine e g).passRecs = d.passRecs := rfl
@[simp] theorem Dev.setEngine_gwCredits (d : Dev) (e : Nat) (g : Engine) : (d.setEngine e g).gwCredits = d.gwCredits := rfl
@[simp] theorem Dev.setEngine_tether (d : Dev) (e : Nat) (g : Engine) : (d.setEngine e g).tether = d.tether := rfl
@[simp] theorem Dev.setEngine_groups (d : Dev) (e : Nat) (g : Engine) : (d.setEngine e g).groups = d.groups := rfl
@[simp] theorem Dev.setEngine_finished (d : Dev) (e : Nat) (g : Engine) : (d.setEngine e g).finished = d.finished := rfl
@[simp] theorem Dev.setEngine_heldReplies (d : Dev) (e : Nat) (g : Engine) : (d.setEngine e g).heldReplies = d.heldReplies := rfl
@[simp] theorem Dev.setEngine_nextGroup (d : Dev) (e : Nat) (g : Engine) : (d.setEngine e g).nextGroup = d.nextGroup := rfl
@[simp] theorem Dev.setEngine_nextOrder (d : Dev) (e : Nat) (g : Engine) : (d.setEngine e g).nextOrder = d.nextOrder := rfl
@[simp] theorem Dev.setEngine_sessions (d : Dev) (e : Nat) (g : Engine) : (d.setEngine e g).sessions = d.sessions := rfl
@[simp] theorem Dev.setEngine_nonces (d : Dev) (e : Nat) (g : Engine) : (d.setEngine e g).nonces = d.nonces := rfl
@[simp] theorem Dev.setEngine_mgr (d : Dev) (e : Nat) (g : Engine) : (d.setEngine e g).mgr = d.mgr := rfl
@[simp] theorem Dev.setEngine_mgrRound (d : Dev) (e : Nat) (g : Engine) : (d.setEngine e g).mgrRound = d.mgrRound := rfl
@[simp] theorem Dev.setEngine_mgrBase (d : Dev) (e : Nat) (g : Engine) : (d.setEngine e g).mgrBase = d.mgrBase := rfl
@[simp] theorem Dev.setEngine_authFails (d : Dev) (e : Nat) (g : Engine) : (d.setEngine e g).authFails = d.authFails := rfl
@[simp] theorem Dev.setEngine_authRound (d : Dev) (e : Nat) (g : Engine) : (d.setEngine e g).authRound = d.authRound := rfl
@[simp] theorem Dev.setEngine_notified (d : Dev) (e : Nat) (g : Engine) : (d.setEngine e g).notified = d.notified := rfl
@[simp] theorem Dev.setEngine_notifyDue (d : Dev) (e : Nat) (g : Engine) : (d.setEngine e g).notifyDue = d.notifyDue := rfl
@[simp] theorem Dev.setEngine_alerts (d : Dev) (e : Nat) (g : Engine) : (d.setEngine e g).alerts = d.alerts := rfl
@[simp] theorem Dev.setEngine_portState (d : Dev) (e : Nat) (g : Engine) : (d.setEngine e g).portState = d.portState := rfl
@[simp] theorem Dev.setEngine_permits (d : Dev) (e : Nat) (g : Engine) : (d.setEngine e g).permits = d.permits := rfl
@[simp] theorem Dev.setEngine_nextPermit (d : Dev) (e : Nat) (g : Engine) : (d.setEngine e g).nextPermit = d.nextPermit := rfl
@[simp] theorem Dev.setEngine_comps (d : Dev) (e : Nat) (g : Engine) : (d.setEngine e g).comps = d.comps := rfl
@[simp] theorem Dev.setEngine_keys (d : Dev) (e : Nat) (g : Engine) : (d.setEngine e g).keys = d.keys := rfl
@[simp] theorem Dev.setEngine_ballast (d : Dev) (e : Nat) (g : Engine) : (d.setEngine e g).ballast = d.ballast := rfl
@[simp] theorem Dev.setEngine_journal (d : Dev) (e : Nat) (g : Engine) : (d.setEngine e g).journal = d.journal := rfl
@[simp] theorem Dev.setEngine_boot (d : Dev) (e : Nat) (g : Engine) : (d.setEngine e g).boot = d.boot := rfl
@[simp] theorem Dev.setEngine_gust (d : Dev) (e : Nat) (g : Engine) : (d.setEngine e g).gust = d.gust := rfl
@[simp] theorem Dev.setEngine_samp (d : Dev) (e : Nat) (g : Engine) : (d.setEngine e g).samp = d.samp := rfl
@[simp] theorem Dev.setEngine_dirtySet (d : Dev) (e : Nat) (g : Engine) : (d.setEngine e g).dirtySet = d.dirtySet := rfl
@[simp] theorem Dev.setEngine_unprot (d : Dev) (e : Nat) (g : Engine) : (d.setEngine e g).unprot = d.unprot := rfl
@[simp] theorem Dev.setEngine_outUnits (d : Dev) (e : Nat) (g : Engine) : (d.setEngine e g).outUnits = d.outUnits := rfl
@[simp] theorem Dev.setEngine_sweep (d : Dev) (e : Nat) (g : Engine) : (d.setEngine e g).sweep = d.sweep := rfl
@[simp] theorem Dev.setEngine_tap (d : Dev) (e : Nat) (g : Engine) : (d.setEngine e g).tap = d.tap := rfl
@[simp] theorem Dev.setEngine_unlocked (d : Dev) (e : Nat) (g : Engine) : (d.setEngine e g).unlocked = d.unlocked := rfl
@[simp] theorem Dev.setEngine_switched (d : Dev) (e : Nat) (g : Engine) : (d.setEngine e g).switched = d.switched := rfl
@[simp] theorem Dev.setEngine_busy (d : Dev) (e : Nat) (g : Engine) : (d.setEngine e g).busy = d.busy := rfl
@[simp] theorem Dev.setEngine_execBeats (d : Dev) (e : Nat) (g : Engine) : (d.setEngine e g).execBeats = d.execBeats := rfl
@[simp] theorem Dev.setEngine_slotAt (d : Dev) (e : Nat) (g : Engine) : (d.setEngine e g).slotAt = d.slotAt := rfl
@[simp] theorem Dev.setEngine_draws (d : Dev) (e : Nat) (g : Engine) : (d.setEngine e g).draws = d.draws := rfl
@[simp] theorem Dev.setEngine_out (d : Dev) (e : Nat) (g : Engine) : (d.setEngine e g).out = d.out := rfl
@[simp] theorem Dev.setEngine_effs (d : Dev) (e : Nat) (g : Engine) : (d.setEngine e g).effs = d.effs := rfl

@[simp] theorem Dev.setPort_state (d : Dev) (p : Nat) (q : Port) : (d.setPort p q).state = d.state := rfl
@[simp] theorem Dev.setPort_objs (d : Dev) (p : Nat) (q : Port) : (d.setPort p q).objs = d.objs := rfl
@[simp] theorem Dev.setPort_chg (d : Dev) (p : Nat) (q : Port) : (d.setPort p q).chg = d.chg := rfl
@[simp] theorem Dev.setPort_facets (d : Dev) (p : Nat) (q : Port) : (d.setPort p q).facets = d.facets := rfl
@[simp] theorem Dev.setPort_canopy (d : Dev) (p : Nat) (q : Port) : (d.setPort p q).canopy = d.canopy := rfl
@[simp] theorem Dev.setPort_scans (d : Dev) (p : Nat) (q : Port) : (d.setPort p q).scans = d.scans := rfl
@[simp] theorem Dev.setPort_resume (d : Dev) (p : Nat) (q : Port) : (d.setPort p q).resume = d.resume := rfl
@[simp] theorem Dev.setPort_scanned (d : Dev) (p : Nat) (q : Port) : (d.setPort p q).scanned = d.scanned := rfl
@[simp] theorem Dev.setPort_sync (d : Dev) (p : Nat) (q : Port) : (d.setPort p q).sync = d.sync := rfl
@[simp] theorem Dev.setPort_engines (d : Dev) (p : Nat) (q : Port) : (d.setPort p q).engines = d.engines := rfl
@[simp] theorem Dev.setPort_stepser (d : Dev) (p : Nat) (q : Port) : (d.setPort p q).stepser = d.stepser := rfl
@[simp] theorem Dev.setPort_board (d : Dev) (p : Nat) (q : Port) : (d.setPort p q).board = d.board := rfl
@[simp] theorem Dev.setPort_boardTag (d : Dev) (p : Nat) (q : Port) : (d.setPort p q).boardTag = d.boardTag := rfl
@[simp] theorem Dev.setPort_spill (d : Dev) (p : Nat) (q : Port) : (d.setPort p q).spill = d.spill := rfl
@[simp] theorem Dev.setPort_jobs (d : Dev) (p : Nat) (q : Port) : (d.setPort p q).jobs = d.jobs := rfl
@[simp] theorem Dev.setPort_images (d : Dev) (p : Nat) (q : Port) : (d.setPort p q).images = d.images := rfl
@[simp] theorem Dev.setPort_catalogs (d : Dev) (p : Nat) (q : Port) : (d.setPort p q).catalogs = d.catalogs := rfl
@[simp] theorem Dev.setPort_reqs (d : Dev) (p : Nat) (q : Port) : (d.setPort p q).reqs = d.reqs := rfl
@[simp] theorem Dev.setPort_digests (d : Dev) (p : Nat) (q : Port) : (d.setPort p q).digests = d.digests := rfl
@[simp] theorem Dev.setPort_schanges (d : Dev) (p : Nat) (q : Port) : (d.setPort p q).schanges = d.schanges := rfl
@[simp] theorem Dev.setPort_stepDue (d : Dev) (p : Nat) (q : Port) : (d.setPort p q).stepDue = d.stepDue := rfl
@[simp] theorem Dev.setPort_bWaiting (d : Dev) (p : Nat) (q : Port) : (d.setPort p q).bWaiting = d.bWaiting := rfl
@[simp] theorem Dev.setPort_legs (d : Dev) (p : Nat) (q : Port) : (d.setPort p q).legs = d.legs := rfl
@[simp] theorem Dev.setPort_routes (d : Dev) (p : Nat) (q : Port) : (d.setPort p q).routes = d.routes := rfl
@[simp] theorem Dev.setPort_passRecs (d : Dev) (p : Nat) (q : Port) : (d.setPort p q).passRecs = d.passRecs := rfl
@[simp] theorem Dev.setPort_gwCredits (d : Dev) (p : Nat) (q : Port) : (d.setPort p q).gwCredits = d.gwCredits := rfl
@[simp] theorem Dev.setPort_tether (d : Dev) (p : Nat) (q : Port) : (d.setPort p q).tether = d.tether := rfl
@[simp] theorem Dev.setPort_groups (d : Dev) (p : Nat) (q : Port) : (d.setPort p q).groups = d.groups := rfl
@[simp] theorem Dev.setPort_finished (d : Dev) (p : Nat) (q : Port) : (d.setPort p q).finished = d.finished := rfl
@[simp] theorem Dev.setPort_heldReplies (d : Dev) (p : Nat) (q : Port) : (d.setPort p q).heldReplies = d.heldReplies := rfl
@[simp] theorem Dev.setPort_nextGroup (d : Dev) (p : Nat) (q : Port) : (d.setPort p q).nextGroup = d.nextGroup := rfl
@[simp] theorem Dev.setPort_nextOrder (d : Dev) (p : Nat) (q : Port) : (d.setPort p q).nextOrder = d.nextOrder := rfl
@[simp] theorem Dev.setPort_sessions (d : Dev) (p : Nat) (q : Port) : (d.setPort p q).sessions = d.sessions := rfl
@[simp] theorem Dev.setPort_nonces (d : Dev) (p : Nat) (q : Port) : (d.setPort p q).nonces = d.nonces := rfl
@[simp] theorem Dev.setPort_mgr (d : Dev) (p : Nat) (q : Port) : (d.setPort p q).mgr = d.mgr := rfl
@[simp] theorem Dev.setPort_mgrRound (d : Dev) (p : Nat) (q : Port) : (d.setPort p q).mgrRound = d.mgrRound := rfl
@[simp] theorem Dev.setPort_mgrBase (d : Dev) (p : Nat) (q : Port) : (d.setPort p q).mgrBase = d.mgrBase := rfl
@[simp] theorem Dev.setPort_authFails (d : Dev) (p : Nat) (q : Port) : (d.setPort p q).authFails = d.authFails := rfl
@[simp] theorem Dev.setPort_authRound (d : Dev) (p : Nat) (q : Port) : (d.setPort p q).authRound = d.authRound := rfl
@[simp] theorem Dev.setPort_notified (d : Dev) (p : Nat) (q : Port) : (d.setPort p q).notified = d.notified := rfl
@[simp] theorem Dev.setPort_notifyDue (d : Dev) (p : Nat) (q : Port) : (d.setPort p q).notifyDue = d.notifyDue := rfl
@[simp] theorem Dev.setPort_alerts (d : Dev) (p : Nat) (q : Port) : (d.setPort p q).alerts = d.alerts := rfl
@[simp] theorem Dev.setPort_portState (d : Dev) (p : Nat) (q : Port) : (d.setPort p q).portState = d.portState := rfl
@[simp] theorem Dev.setPort_permits (d : Dev) (p : Nat) (q : Port) : (d.setPort p q).permits = d.permits := rfl
@[simp] theorem Dev.setPort_nextPermit (d : Dev) (p : Nat) (q : Port) : (d.setPort p q).nextPermit = d.nextPermit := rfl
@[simp] theorem Dev.setPort_comps (d : Dev) (p : Nat) (q : Port) : (d.setPort p q).comps = d.comps := rfl
@[simp] theorem Dev.setPort_keys (d : Dev) (p : Nat) (q : Port) : (d.setPort p q).keys = d.keys := rfl
@[simp] theorem Dev.setPort_ballast (d : Dev) (p : Nat) (q : Port) : (d.setPort p q).ballast = d.ballast := rfl
@[simp] theorem Dev.setPort_journal (d : Dev) (p : Nat) (q : Port) : (d.setPort p q).journal = d.journal := rfl
@[simp] theorem Dev.setPort_boot (d : Dev) (p : Nat) (q : Port) : (d.setPort p q).boot = d.boot := rfl
@[simp] theorem Dev.setPort_gust (d : Dev) (p : Nat) (q : Port) : (d.setPort p q).gust = d.gust := rfl
@[simp] theorem Dev.setPort_samp (d : Dev) (p : Nat) (q : Port) : (d.setPort p q).samp = d.samp := rfl
@[simp] theorem Dev.setPort_dirtySet (d : Dev) (p : Nat) (q : Port) : (d.setPort p q).dirtySet = d.dirtySet := rfl
@[simp] theorem Dev.setPort_unprot (d : Dev) (p : Nat) (q : Port) : (d.setPort p q).unprot = d.unprot := rfl
@[simp] theorem Dev.setPort_outUnits (d : Dev) (p : Nat) (q : Port) : (d.setPort p q).outUnits = d.outUnits := rfl
@[simp] theorem Dev.setPort_sweep (d : Dev) (p : Nat) (q : Port) : (d.setPort p q).sweep = d.sweep := rfl
@[simp] theorem Dev.setPort_tap (d : Dev) (p : Nat) (q : Port) : (d.setPort p q).tap = d.tap := rfl
@[simp] theorem Dev.setPort_unlocked (d : Dev) (p : Nat) (q : Port) : (d.setPort p q).unlocked = d.unlocked := rfl
@[simp] theorem Dev.setPort_switched (d : Dev) (p : Nat) (q : Port) : (d.setPort p q).switched = d.switched := rfl
@[simp] theorem Dev.setPort_busy (d : Dev) (p : Nat) (q : Port) : (d.setPort p q).busy = d.busy := rfl
@[simp] theorem Dev.setPort_execBeats (d : Dev) (p : Nat) (q : Port) : (d.setPort p q).execBeats = d.execBeats := rfl
@[simp] theorem Dev.setPort_slotAt (d : Dev) (p : Nat) (q : Port) : (d.setPort p q).slotAt = d.slotAt := rfl
@[simp] theorem Dev.setPort_draws (d : Dev) (p : Nat) (q : Port) : (d.setPort p q).draws = d.draws := rfl
@[simp] theorem Dev.setPort_out (d : Dev) (p : Nat) (q : Port) : (d.setPort p q).out = d.out := rfl
@[simp] theorem Dev.setPort_effs (d : Dev) (p : Nat) (q : Port) : (d.setPort p q).effs = d.effs := rfl

@[simp] theorem Dev.setRing_state (d : Dev) (r : Nat) (g : Ring) : (d.setRing r g).state = d.state := rfl
@[simp] theorem Dev.setRing_objs (d : Dev) (r : Nat) (g : Ring) : (d.setRing r g).objs = d.objs := rfl
@[simp] theorem Dev.setRing_chg (d : Dev) (r : Nat) (g : Ring) : (d.setRing r g).chg = d.chg := rfl
@[simp] theorem Dev.setRing_facets (d : Dev) (r : Nat) (g : Ring) : (d.setRing r g).facets = d.facets := rfl
@[simp] theorem Dev.setRing_canopy (d : Dev) (r : Nat) (g : Ring) : (d.setRing r g).canopy = d.canopy := rfl
@[simp] theorem Dev.setRing_scans (d : Dev) (r : Nat) (g : Ring) : (d.setRing r g).scans = d.scans := rfl
@[simp] theorem Dev.setRing_resume (d : Dev) (r : Nat) (g : Ring) : (d.setRing r g).resume = d.resume := rfl
@[simp] theorem Dev.setRing_scanned (d : Dev) (r : Nat) (g : Ring) : (d.setRing r g).scanned = d.scanned := rfl
@[simp] theorem Dev.setRing_sync (d : Dev) (r : Nat) (g : Ring) : (d.setRing r g).sync = d.sync := rfl
@[simp] theorem Dev.setRing_engines (d : Dev) (r : Nat) (g : Ring) : (d.setRing r g).engines = d.engines := rfl
@[simp] theorem Dev.setRing_stepser (d : Dev) (r : Nat) (g : Ring) : (d.setRing r g).stepser = d.stepser := rfl
@[simp] theorem Dev.setRing_board (d : Dev) (r : Nat) (g : Ring) : (d.setRing r g).board = d.board := rfl
@[simp] theorem Dev.setRing_boardTag (d : Dev) (r : Nat) (g : Ring) : (d.setRing r g).boardTag = d.boardTag := rfl
@[simp] theorem Dev.setRing_spill (d : Dev) (r : Nat) (g : Ring) : (d.setRing r g).spill = d.spill := rfl
@[simp] theorem Dev.setRing_jobs (d : Dev) (r : Nat) (g : Ring) : (d.setRing r g).jobs = d.jobs := rfl
@[simp] theorem Dev.setRing_images (d : Dev) (r : Nat) (g : Ring) : (d.setRing r g).images = d.images := rfl
@[simp] theorem Dev.setRing_catalogs (d : Dev) (r : Nat) (g : Ring) : (d.setRing r g).catalogs = d.catalogs := rfl
@[simp] theorem Dev.setRing_reqs (d : Dev) (r : Nat) (g : Ring) : (d.setRing r g).reqs = d.reqs := rfl
@[simp] theorem Dev.setRing_digests (d : Dev) (r : Nat) (g : Ring) : (d.setRing r g).digests = d.digests := rfl
@[simp] theorem Dev.setRing_schanges (d : Dev) (r : Nat) (g : Ring) : (d.setRing r g).schanges = d.schanges := rfl
@[simp] theorem Dev.setRing_stepDue (d : Dev) (r : Nat) (g : Ring) : (d.setRing r g).stepDue = d.stepDue := rfl
@[simp] theorem Dev.setRing_bWaiting (d : Dev) (r : Nat) (g : Ring) : (d.setRing r g).bWaiting = d.bWaiting := rfl
@[simp] theorem Dev.setRing_ports (d : Dev) (r : Nat) (g : Ring) : (d.setRing r g).ports = d.ports := rfl
@[simp] theorem Dev.setRing_legs (d : Dev) (r : Nat) (g : Ring) : (d.setRing r g).legs = d.legs := rfl
@[simp] theorem Dev.setRing_routes (d : Dev) (r : Nat) (g : Ring) : (d.setRing r g).routes = d.routes := rfl
@[simp] theorem Dev.setRing_passRecs (d : Dev) (r : Nat) (g : Ring) : (d.setRing r g).passRecs = d.passRecs := rfl
@[simp] theorem Dev.setRing_gwCredits (d : Dev) (r : Nat) (g : Ring) : (d.setRing r g).gwCredits = d.gwCredits := rfl
@[simp] theorem Dev.setRing_groups (d : Dev) (r : Nat) (g : Ring) : (d.setRing r g).groups = d.groups := rfl
@[simp] theorem Dev.setRing_finished (d : Dev) (r : Nat) (g : Ring) : (d.setRing r g).finished = d.finished := rfl
@[simp] theorem Dev.setRing_heldReplies (d : Dev) (r : Nat) (g : Ring) : (d.setRing r g).heldReplies = d.heldReplies := rfl
@[simp] theorem Dev.setRing_nextGroup (d : Dev) (r : Nat) (g : Ring) : (d.setRing r g).nextGroup = d.nextGroup := rfl
@[simp] theorem Dev.setRing_nextOrder (d : Dev) (r : Nat) (g : Ring) : (d.setRing r g).nextOrder = d.nextOrder := rfl
@[simp] theorem Dev.setRing_sessions (d : Dev) (r : Nat) (g : Ring) : (d.setRing r g).sessions = d.sessions := rfl
@[simp] theorem Dev.setRing_nonces (d : Dev) (r : Nat) (g : Ring) : (d.setRing r g).nonces = d.nonces := rfl
@[simp] theorem Dev.setRing_mgr (d : Dev) (r : Nat) (g : Ring) : (d.setRing r g).mgr = d.mgr := rfl
@[simp] theorem Dev.setRing_mgrRound (d : Dev) (r : Nat) (g : Ring) : (d.setRing r g).mgrRound = d.mgrRound := rfl
@[simp] theorem Dev.setRing_mgrBase (d : Dev) (r : Nat) (g : Ring) : (d.setRing r g).mgrBase = d.mgrBase := rfl
@[simp] theorem Dev.setRing_authFails (d : Dev) (r : Nat) (g : Ring) : (d.setRing r g).authFails = d.authFails := rfl
@[simp] theorem Dev.setRing_authRound (d : Dev) (r : Nat) (g : Ring) : (d.setRing r g).authRound = d.authRound := rfl
@[simp] theorem Dev.setRing_notified (d : Dev) (r : Nat) (g : Ring) : (d.setRing r g).notified = d.notified := rfl
@[simp] theorem Dev.setRing_notifyDue (d : Dev) (r : Nat) (g : Ring) : (d.setRing r g).notifyDue = d.notifyDue := rfl
@[simp] theorem Dev.setRing_alerts (d : Dev) (r : Nat) (g : Ring) : (d.setRing r g).alerts = d.alerts := rfl
@[simp] theorem Dev.setRing_portState (d : Dev) (r : Nat) (g : Ring) : (d.setRing r g).portState = d.portState := rfl
@[simp] theorem Dev.setRing_permits (d : Dev) (r : Nat) (g : Ring) : (d.setRing r g).permits = d.permits := rfl
@[simp] theorem Dev.setRing_nextPermit (d : Dev) (r : Nat) (g : Ring) : (d.setRing r g).nextPermit = d.nextPermit := rfl
@[simp] theorem Dev.setRing_comps (d : Dev) (r : Nat) (g : Ring) : (d.setRing r g).comps = d.comps := rfl
@[simp] theorem Dev.setRing_keys (d : Dev) (r : Nat) (g : Ring) : (d.setRing r g).keys = d.keys := rfl
@[simp] theorem Dev.setRing_ballast (d : Dev) (r : Nat) (g : Ring) : (d.setRing r g).ballast = d.ballast := rfl
@[simp] theorem Dev.setRing_journal (d : Dev) (r : Nat) (g : Ring) : (d.setRing r g).journal = d.journal := rfl
@[simp] theorem Dev.setRing_boot (d : Dev) (r : Nat) (g : Ring) : (d.setRing r g).boot = d.boot := rfl
@[simp] theorem Dev.setRing_gust (d : Dev) (r : Nat) (g : Ring) : (d.setRing r g).gust = d.gust := rfl
@[simp] theorem Dev.setRing_samp (d : Dev) (r : Nat) (g : Ring) : (d.setRing r g).samp = d.samp := rfl
@[simp] theorem Dev.setRing_dirtySet (d : Dev) (r : Nat) (g : Ring) : (d.setRing r g).dirtySet = d.dirtySet := rfl
@[simp] theorem Dev.setRing_unprot (d : Dev) (r : Nat) (g : Ring) : (d.setRing r g).unprot = d.unprot := rfl
@[simp] theorem Dev.setRing_outUnits (d : Dev) (r : Nat) (g : Ring) : (d.setRing r g).outUnits = d.outUnits := rfl
@[simp] theorem Dev.setRing_sweep (d : Dev) (r : Nat) (g : Ring) : (d.setRing r g).sweep = d.sweep := rfl
@[simp] theorem Dev.setRing_tap (d : Dev) (r : Nat) (g : Ring) : (d.setRing r g).tap = d.tap := rfl
@[simp] theorem Dev.setRing_unlocked (d : Dev) (r : Nat) (g : Ring) : (d.setRing r g).unlocked = d.unlocked := rfl
@[simp] theorem Dev.setRing_switched (d : Dev) (r : Nat) (g : Ring) : (d.setRing r g).switched = d.switched := rfl
@[simp] theorem Dev.setRing_busy (d : Dev) (r : Nat) (g : Ring) : (d.setRing r g).busy = d.busy := rfl
@[simp] theorem Dev.setRing_execBeats (d : Dev) (r : Nat) (g : Ring) : (d.setRing r g).execBeats = d.execBeats := rfl
@[simp] theorem Dev.setRing_slotAt (d : Dev) (r : Nat) (g : Ring) : (d.setRing r g).slotAt = d.slotAt := rfl
@[simp] theorem Dev.setRing_draws (d : Dev) (r : Nat) (g : Ring) : (d.setRing r g).draws = d.draws := rfl
@[simp] theorem Dev.setRing_out (d : Dev) (r : Nat) (g : Ring) : (d.setRing r g).out = d.out := rfl
@[simp] theorem Dev.setRing_effs (d : Dev) (r : Nat) (g : Ring) : (d.setRing r g).effs = d.effs := rfl

@[simp] theorem Dev.setComp_state (d : Dev) (c : Nat) (k : Comp) : (d.setComp c k).state = d.state := rfl
@[simp] theorem Dev.setComp_objs (d : Dev) (c : Nat) (k : Comp) : (d.setComp c k).objs = d.objs := rfl
@[simp] theorem Dev.setComp_chg (d : Dev) (c : Nat) (k : Comp) : (d.setComp c k).chg = d.chg := rfl
@[simp] theorem Dev.setComp_facets (d : Dev) (c : Nat) (k : Comp) : (d.setComp c k).facets = d.facets := rfl
@[simp] theorem Dev.setComp_canopy (d : Dev) (c : Nat) (k : Comp) : (d.setComp c k).canopy = d.canopy := rfl
@[simp] theorem Dev.setComp_scans (d : Dev) (c : Nat) (k : Comp) : (d.setComp c k).scans = d.scans := rfl
@[simp] theorem Dev.setComp_resume (d : Dev) (c : Nat) (k : Comp) : (d.setComp c k).resume = d.resume := rfl
@[simp] theorem Dev.setComp_scanned (d : Dev) (c : Nat) (k : Comp) : (d.setComp c k).scanned = d.scanned := rfl
@[simp] theorem Dev.setComp_sync (d : Dev) (c : Nat) (k : Comp) : (d.setComp c k).sync = d.sync := rfl
@[simp] theorem Dev.setComp_engines (d : Dev) (c : Nat) (k : Comp) : (d.setComp c k).engines = d.engines := rfl
@[simp] theorem Dev.setComp_stepser (d : Dev) (c : Nat) (k : Comp) : (d.setComp c k).stepser = d.stepser := rfl
@[simp] theorem Dev.setComp_board (d : Dev) (c : Nat) (k : Comp) : (d.setComp c k).board = d.board := rfl
@[simp] theorem Dev.setComp_boardTag (d : Dev) (c : Nat) (k : Comp) : (d.setComp c k).boardTag = d.boardTag := rfl
@[simp] theorem Dev.setComp_spill (d : Dev) (c : Nat) (k : Comp) : (d.setComp c k).spill = d.spill := rfl
@[simp] theorem Dev.setComp_jobs (d : Dev) (c : Nat) (k : Comp) : (d.setComp c k).jobs = d.jobs := rfl
@[simp] theorem Dev.setComp_images (d : Dev) (c : Nat) (k : Comp) : (d.setComp c k).images = d.images := rfl
@[simp] theorem Dev.setComp_catalogs (d : Dev) (c : Nat) (k : Comp) : (d.setComp c k).catalogs = d.catalogs := rfl
@[simp] theorem Dev.setComp_reqs (d : Dev) (c : Nat) (k : Comp) : (d.setComp c k).reqs = d.reqs := rfl
@[simp] theorem Dev.setComp_digests (d : Dev) (c : Nat) (k : Comp) : (d.setComp c k).digests = d.digests := rfl
@[simp] theorem Dev.setComp_schanges (d : Dev) (c : Nat) (k : Comp) : (d.setComp c k).schanges = d.schanges := rfl
@[simp] theorem Dev.setComp_stepDue (d : Dev) (c : Nat) (k : Comp) : (d.setComp c k).stepDue = d.stepDue := rfl
@[simp] theorem Dev.setComp_bWaiting (d : Dev) (c : Nat) (k : Comp) : (d.setComp c k).bWaiting = d.bWaiting := rfl
@[simp] theorem Dev.setComp_ports (d : Dev) (c : Nat) (k : Comp) : (d.setComp c k).ports = d.ports := rfl
@[simp] theorem Dev.setComp_legs (d : Dev) (c : Nat) (k : Comp) : (d.setComp c k).legs = d.legs := rfl
@[simp] theorem Dev.setComp_routes (d : Dev) (c : Nat) (k : Comp) : (d.setComp c k).routes = d.routes := rfl
@[simp] theorem Dev.setComp_passRecs (d : Dev) (c : Nat) (k : Comp) : (d.setComp c k).passRecs = d.passRecs := rfl
@[simp] theorem Dev.setComp_gwCredits (d : Dev) (c : Nat) (k : Comp) : (d.setComp c k).gwCredits = d.gwCredits := rfl
@[simp] theorem Dev.setComp_tether (d : Dev) (c : Nat) (k : Comp) : (d.setComp c k).tether = d.tether := rfl
@[simp] theorem Dev.setComp_groups (d : Dev) (c : Nat) (k : Comp) : (d.setComp c k).groups = d.groups := rfl
@[simp] theorem Dev.setComp_finished (d : Dev) (c : Nat) (k : Comp) : (d.setComp c k).finished = d.finished := rfl
@[simp] theorem Dev.setComp_heldReplies (d : Dev) (c : Nat) (k : Comp) : (d.setComp c k).heldReplies = d.heldReplies := rfl
@[simp] theorem Dev.setComp_nextGroup (d : Dev) (c : Nat) (k : Comp) : (d.setComp c k).nextGroup = d.nextGroup := rfl
@[simp] theorem Dev.setComp_nextOrder (d : Dev) (c : Nat) (k : Comp) : (d.setComp c k).nextOrder = d.nextOrder := rfl
@[simp] theorem Dev.setComp_sessions (d : Dev) (c : Nat) (k : Comp) : (d.setComp c k).sessions = d.sessions := rfl
@[simp] theorem Dev.setComp_nonces (d : Dev) (c : Nat) (k : Comp) : (d.setComp c k).nonces = d.nonces := rfl
@[simp] theorem Dev.setComp_mgr (d : Dev) (c : Nat) (k : Comp) : (d.setComp c k).mgr = d.mgr := rfl
@[simp] theorem Dev.setComp_mgrRound (d : Dev) (c : Nat) (k : Comp) : (d.setComp c k).mgrRound = d.mgrRound := rfl
@[simp] theorem Dev.setComp_mgrBase (d : Dev) (c : Nat) (k : Comp) : (d.setComp c k).mgrBase = d.mgrBase := rfl
@[simp] theorem Dev.setComp_authFails (d : Dev) (c : Nat) (k : Comp) : (d.setComp c k).authFails = d.authFails := rfl
@[simp] theorem Dev.setComp_authRound (d : Dev) (c : Nat) (k : Comp) : (d.setComp c k).authRound = d.authRound := rfl
@[simp] theorem Dev.setComp_notified (d : Dev) (c : Nat) (k : Comp) : (d.setComp c k).notified = d.notified := rfl
@[simp] theorem Dev.setComp_notifyDue (d : Dev) (c : Nat) (k : Comp) : (d.setComp c k).notifyDue = d.notifyDue := rfl
@[simp] theorem Dev.setComp_alerts (d : Dev) (c : Nat) (k : Comp) : (d.setComp c k).alerts = d.alerts := rfl
@[simp] theorem Dev.setComp_portState (d : Dev) (c : Nat) (k : Comp) : (d.setComp c k).portState = d.portState := rfl
@[simp] theorem Dev.setComp_permits (d : Dev) (c : Nat) (k : Comp) : (d.setComp c k).permits = d.permits := rfl
@[simp] theorem Dev.setComp_nextPermit (d : Dev) (c : Nat) (k : Comp) : (d.setComp c k).nextPermit = d.nextPermit := rfl
@[simp] theorem Dev.setComp_keys (d : Dev) (c : Nat) (k : Comp) : (d.setComp c k).keys = d.keys := rfl
@[simp] theorem Dev.setComp_ballast (d : Dev) (c : Nat) (k : Comp) : (d.setComp c k).ballast = d.ballast := rfl
@[simp] theorem Dev.setComp_journal (d : Dev) (c : Nat) (k : Comp) : (d.setComp c k).journal = d.journal := rfl
@[simp] theorem Dev.setComp_boot (d : Dev) (c : Nat) (k : Comp) : (d.setComp c k).boot = d.boot := rfl
@[simp] theorem Dev.setComp_gust (d : Dev) (c : Nat) (k : Comp) : (d.setComp c k).gust = d.gust := rfl
@[simp] theorem Dev.setComp_samp (d : Dev) (c : Nat) (k : Comp) : (d.setComp c k).samp = d.samp := rfl
@[simp] theorem Dev.setComp_dirtySet (d : Dev) (c : Nat) (k : Comp) : (d.setComp c k).dirtySet = d.dirtySet := rfl
@[simp] theorem Dev.setComp_unprot (d : Dev) (c : Nat) (k : Comp) : (d.setComp c k).unprot = d.unprot := rfl
@[simp] theorem Dev.setComp_outUnits (d : Dev) (c : Nat) (k : Comp) : (d.setComp c k).outUnits = d.outUnits := rfl
@[simp] theorem Dev.setComp_sweep (d : Dev) (c : Nat) (k : Comp) : (d.setComp c k).sweep = d.sweep := rfl
@[simp] theorem Dev.setComp_tap (d : Dev) (c : Nat) (k : Comp) : (d.setComp c k).tap = d.tap := rfl
@[simp] theorem Dev.setComp_unlocked (d : Dev) (c : Nat) (k : Comp) : (d.setComp c k).unlocked = d.unlocked := rfl
@[simp] theorem Dev.setComp_switched (d : Dev) (c : Nat) (k : Comp) : (d.setComp c k).switched = d.switched := rfl
@[simp] theorem Dev.setComp_busy (d : Dev) (c : Nat) (k : Comp) : (d.setComp c k).busy = d.busy := rfl
@[simp] theorem Dev.setComp_execBeats (d : Dev) (c : Nat) (k : Comp) : (d.setComp c k).execBeats = d.execBeats := rfl
@[simp] theorem Dev.setComp_slotAt (d : Dev) (c : Nat) (k : Comp) : (d.setComp c k).slotAt = d.slotAt := rfl
@[simp] theorem Dev.setComp_draws (d : Dev) (c : Nat) (k : Comp) : (d.setComp c k).draws = d.draws := rfl
@[simp] theorem Dev.setComp_out (d : Dev) (c : Nat) (k : Comp) : (d.setComp c k).out = d.out := rfl
@[simp] theorem Dev.setComp_effs (d : Dev) (c : Nat) (k : Comp) : (d.setComp c k).effs = d.effs := rfl

@[simp] theorem Dev.setCatalog_state (d : Dev) (c : Nat) (k : Catalog) : (d.setCatalog c k).state = d.state := rfl
@[simp] theorem Dev.setCatalog_objs (d : Dev) (c : Nat) (k : Catalog) : (d.setCatalog c k).objs = d.objs := rfl
@[simp] theorem Dev.setCatalog_chg (d : Dev) (c : Nat) (k : Catalog) : (d.setCatalog c k).chg = d.chg := rfl
@[simp] theorem Dev.setCatalog_facets (d : Dev) (c : Nat) (k : Catalog) : (d.setCatalog c k).facets = d.facets := rfl
@[simp] theorem Dev.setCatalog_canopy (d : Dev) (c : Nat) (k : Catalog) : (d.setCatalog c k).canopy = d.canopy := rfl
@[simp] theorem Dev.setCatalog_scans (d : Dev) (c : Nat) (k : Catalog) : (d.setCatalog c k).scans = d.scans := rfl
@[simp] theorem Dev.setCatalog_resume (d : Dev) (c : Nat) (k : Catalog) : (d.setCatalog c k).resume = d.resume := rfl
@[simp] theorem Dev.setCatalog_scanned (d : Dev) (c : Nat) (k : Catalog) : (d.setCatalog c k).scanned = d.scanned := rfl
@[simp] theorem Dev.setCatalog_sync (d : Dev) (c : Nat) (k : Catalog) : (d.setCatalog c k).sync = d.sync := rfl
@[simp] theorem Dev.setCatalog_engines (d : Dev) (c : Nat) (k : Catalog) : (d.setCatalog c k).engines = d.engines := rfl
@[simp] theorem Dev.setCatalog_stepser (d : Dev) (c : Nat) (k : Catalog) : (d.setCatalog c k).stepser = d.stepser := rfl
@[simp] theorem Dev.setCatalog_board (d : Dev) (c : Nat) (k : Catalog) : (d.setCatalog c k).board = d.board := rfl
@[simp] theorem Dev.setCatalog_boardTag (d : Dev) (c : Nat) (k : Catalog) : (d.setCatalog c k).boardTag = d.boardTag := rfl
@[simp] theorem Dev.setCatalog_spill (d : Dev) (c : Nat) (k : Catalog) : (d.setCatalog c k).spill = d.spill := rfl
@[simp] theorem Dev.setCatalog_jobs (d : Dev) (c : Nat) (k : Catalog) : (d.setCatalog c k).jobs = d.jobs := rfl
@[simp] theorem Dev.setCatalog_images (d : Dev) (c : Nat) (k : Catalog) : (d.setCatalog c k).images = d.images := rfl
@[simp] theorem Dev.setCatalog_reqs (d : Dev) (c : Nat) (k : Catalog) : (d.setCatalog c k).reqs = d.reqs := rfl
@[simp] theorem Dev.setCatalog_digests (d : Dev) (c : Nat) (k : Catalog) : (d.setCatalog c k).digests = d.digests := rfl
@[simp] theorem Dev.setCatalog_schanges (d : Dev) (c : Nat) (k : Catalog) : (d.setCatalog c k).schanges = d.schanges := rfl
@[simp] theorem Dev.setCatalog_stepDue (d : Dev) (c : Nat) (k : Catalog) : (d.setCatalog c k).stepDue = d.stepDue := rfl
@[simp] theorem Dev.setCatalog_bWaiting (d : Dev) (c : Nat) (k : Catalog) : (d.setCatalog c k).bWaiting = d.bWaiting := rfl
@[simp] theorem Dev.setCatalog_ports (d : Dev) (c : Nat) (k : Catalog) : (d.setCatalog c k).ports = d.ports := rfl
@[simp] theorem Dev.setCatalog_legs (d : Dev) (c : Nat) (k : Catalog) : (d.setCatalog c k).legs = d.legs := rfl
@[simp] theorem Dev.setCatalog_routes (d : Dev) (c : Nat) (k : Catalog) : (d.setCatalog c k).routes = d.routes := rfl
@[simp] theorem Dev.setCatalog_passRecs (d : Dev) (c : Nat) (k : Catalog) : (d.setCatalog c k).passRecs = d.passRecs := rfl
@[simp] theorem Dev.setCatalog_gwCredits (d : Dev) (c : Nat) (k : Catalog) : (d.setCatalog c k).gwCredits = d.gwCredits := rfl
@[simp] theorem Dev.setCatalog_tether (d : Dev) (c : Nat) (k : Catalog) : (d.setCatalog c k).tether = d.tether := rfl
@[simp] theorem Dev.setCatalog_groups (d : Dev) (c : Nat) (k : Catalog) : (d.setCatalog c k).groups = d.groups := rfl
@[simp] theorem Dev.setCatalog_finished (d : Dev) (c : Nat) (k : Catalog) : (d.setCatalog c k).finished = d.finished := rfl
@[simp] theorem Dev.setCatalog_heldReplies (d : Dev) (c : Nat) (k : Catalog) : (d.setCatalog c k).heldReplies = d.heldReplies := rfl
@[simp] theorem Dev.setCatalog_nextGroup (d : Dev) (c : Nat) (k : Catalog) : (d.setCatalog c k).nextGroup = d.nextGroup := rfl
@[simp] theorem Dev.setCatalog_nextOrder (d : Dev) (c : Nat) (k : Catalog) : (d.setCatalog c k).nextOrder = d.nextOrder := rfl
@[simp] theorem Dev.setCatalog_sessions (d : Dev) (c : Nat) (k : Catalog) : (d.setCatalog c k).sessions = d.sessions := rfl
@[simp] theorem Dev.setCatalog_nonces (d : Dev) (c : Nat) (k : Catalog) : (d.setCatalog c k).nonces = d.nonces := rfl
@[simp] theorem Dev.setCatalog_mgr (d : Dev) (c : Nat) (k : Catalog) : (d.setCatalog c k).mgr = d.mgr := rfl
@[simp] theorem Dev.setCatalog_mgrRound (d : Dev) (c : Nat) (k : Catalog) : (d.setCatalog c k).mgrRound = d.mgrRound := rfl
@[simp] theorem Dev.setCatalog_mgrBase (d : Dev) (c : Nat) (k : Catalog) : (d.setCatalog c k).mgrBase = d.mgrBase := rfl
@[simp] theorem Dev.setCatalog_authFails (d : Dev) (c : Nat) (k : Catalog) : (d.setCatalog c k).authFails = d.authFails := rfl
@[simp] theorem Dev.setCatalog_authRound (d : Dev) (c : Nat) (k : Catalog) : (d.setCatalog c k).authRound = d.authRound := rfl
@[simp] theorem Dev.setCatalog_notified (d : Dev) (c : Nat) (k : Catalog) : (d.setCatalog c k).notified = d.notified := rfl
@[simp] theorem Dev.setCatalog_notifyDue (d : Dev) (c : Nat) (k : Catalog) : (d.setCatalog c k).notifyDue = d.notifyDue := rfl
@[simp] theorem Dev.setCatalog_alerts (d : Dev) (c : Nat) (k : Catalog) : (d.setCatalog c k).alerts = d.alerts := rfl
@[simp] theorem Dev.setCatalog_portState (d : Dev) (c : Nat) (k : Catalog) : (d.setCatalog c k).portState = d.portState := rfl
@[simp] theorem Dev.setCatalog_permits (d : Dev) (c : Nat) (k : Catalog) : (d.setCatalog c k).permits = d.permits := rfl
@[simp] theorem Dev.setCatalog_nextPermit (d : Dev) (c : Nat) (k : Catalog) : (d.setCatalog c k).nextPermit = d.nextPermit := rfl
@[simp] theorem Dev.setCatalog_comps (d : Dev) (c : Nat) (k : Catalog) : (d.setCatalog c k).comps = d.comps := rfl
@[simp] theorem Dev.setCatalog_keys (d : Dev) (c : Nat) (k : Catalog) : (d.setCatalog c k).keys = d.keys := rfl
@[simp] theorem Dev.setCatalog_ballast (d : Dev) (c : Nat) (k : Catalog) : (d.setCatalog c k).ballast = d.ballast := rfl
@[simp] theorem Dev.setCatalog_journal (d : Dev) (c : Nat) (k : Catalog) : (d.setCatalog c k).journal = d.journal := rfl
@[simp] theorem Dev.setCatalog_boot (d : Dev) (c : Nat) (k : Catalog) : (d.setCatalog c k).boot = d.boot := rfl
@[simp] theorem Dev.setCatalog_gust (d : Dev) (c : Nat) (k : Catalog) : (d.setCatalog c k).gust = d.gust := rfl
@[simp] theorem Dev.setCatalog_samp (d : Dev) (c : Nat) (k : Catalog) : (d.setCatalog c k).samp = d.samp := rfl
@[simp] theorem Dev.setCatalog_dirtySet (d : Dev) (c : Nat) (k : Catalog) : (d.setCatalog c k).dirtySet = d.dirtySet := rfl
@[simp] theorem Dev.setCatalog_unprot (d : Dev) (c : Nat) (k : Catalog) : (d.setCatalog c k).unprot = d.unprot := rfl
@[simp] theorem Dev.setCatalog_outUnits (d : Dev) (c : Nat) (k : Catalog) : (d.setCatalog c k).outUnits = d.outUnits := rfl
@[simp] theorem Dev.setCatalog_sweep (d : Dev) (c : Nat) (k : Catalog) : (d.setCatalog c k).sweep = d.sweep := rfl
@[simp] theorem Dev.setCatalog_tap (d : Dev) (c : Nat) (k : Catalog) : (d.setCatalog c k).tap = d.tap := rfl
@[simp] theorem Dev.setCatalog_unlocked (d : Dev) (c : Nat) (k : Catalog) : (d.setCatalog c k).unlocked = d.unlocked := rfl
@[simp] theorem Dev.setCatalog_switched (d : Dev) (c : Nat) (k : Catalog) : (d.setCatalog c k).switched = d.switched := rfl
@[simp] theorem Dev.setCatalog_busy (d : Dev) (c : Nat) (k : Catalog) : (d.setCatalog c k).busy = d.busy := rfl
@[simp] theorem Dev.setCatalog_execBeats (d : Dev) (c : Nat) (k : Catalog) : (d.setCatalog c k).execBeats = d.execBeats := rfl
@[simp] theorem Dev.setCatalog_slotAt (d : Dev) (c : Nat) (k : Catalog) : (d.setCatalog c k).slotAt = d.slotAt := rfl
@[simp] theorem Dev.setCatalog_draws (d : Dev) (c : Nat) (k : Catalog) : (d.setCatalog c k).draws = d.draws := rfl
@[simp] theorem Dev.setCatalog_out (d : Dev) (c : Nat) (k : Catalog) : (d.setCatalog c k).out = d.out := rfl
@[simp] theorem Dev.setCatalog_effs (d : Dev) (c : Nat) (k : Catalog) : (d.setCatalog c k).effs = d.effs := rfl

@[simp] theorem Dev.setJob_state (d : Dev) (j : Nat) (b : Job) : (d.setJob j b).state = d.state := rfl
@[simp] theorem Dev.setJob_objs (d : Dev) (j : Nat) (b : Job) : (d.setJob j b).objs = d.objs := rfl
@[simp] theorem Dev.setJob_chg (d : Dev) (j : Nat) (b : Job) : (d.setJob j b).chg = d.chg := rfl
@[simp] theorem Dev.setJob_facets (d : Dev) (j : Nat) (b : Job) : (d.setJob j b).facets = d.facets := rfl
@[simp] theorem Dev.setJob_canopy (d : Dev) (j : Nat) (b : Job) : (d.setJob j b).canopy = d.canopy := rfl
@[simp] theorem Dev.setJob_scans (d : Dev) (j : Nat) (b : Job) : (d.setJob j b).scans = d.scans := rfl
@[simp] theorem Dev.setJob_resume (d : Dev) (j : Nat) (b : Job) : (d.setJob j b).resume = d.resume := rfl
@[simp] theorem Dev.setJob_scanned (d : Dev) (j : Nat) (b : Job) : (d.setJob j b).scanned = d.scanned := rfl
@[simp] theorem Dev.setJob_sync (d : Dev) (j : Nat) (b : Job) : (d.setJob j b).sync = d.sync := rfl
@[simp] theorem Dev.setJob_engines (d : Dev) (j : Nat) (b : Job) : (d.setJob j b).engines = d.engines := rfl
@[simp] theorem Dev.setJob_stepser (d : Dev) (j : Nat) (b : Job) : (d.setJob j b).stepser = d.stepser := rfl
@[simp] theorem Dev.setJob_board (d : Dev) (j : Nat) (b : Job) : (d.setJob j b).board = d.board := rfl
@[simp] theorem Dev.setJob_boardTag (d : Dev) (j : Nat) (b : Job) : (d.setJob j b).boardTag = d.boardTag := rfl
@[simp] theorem Dev.setJob_spill (d : Dev) (j : Nat) (b : Job) : (d.setJob j b).spill = d.spill := rfl
@[simp] theorem Dev.setJob_images (d : Dev) (j : Nat) (b : Job) : (d.setJob j b).images = d.images := rfl
@[simp] theorem Dev.setJob_catalogs (d : Dev) (j : Nat) (b : Job) : (d.setJob j b).catalogs = d.catalogs := rfl
@[simp] theorem Dev.setJob_reqs (d : Dev) (j : Nat) (b : Job) : (d.setJob j b).reqs = d.reqs := rfl
@[simp] theorem Dev.setJob_digests (d : Dev) (j : Nat) (b : Job) : (d.setJob j b).digests = d.digests := rfl
@[simp] theorem Dev.setJob_schanges (d : Dev) (j : Nat) (b : Job) : (d.setJob j b).schanges = d.schanges := rfl
@[simp] theorem Dev.setJob_stepDue (d : Dev) (j : Nat) (b : Job) : (d.setJob j b).stepDue = d.stepDue := rfl
@[simp] theorem Dev.setJob_bWaiting (d : Dev) (j : Nat) (b : Job) : (d.setJob j b).bWaiting = d.bWaiting := rfl
@[simp] theorem Dev.setJob_ports (d : Dev) (j : Nat) (b : Job) : (d.setJob j b).ports = d.ports := rfl
@[simp] theorem Dev.setJob_legs (d : Dev) (j : Nat) (b : Job) : (d.setJob j b).legs = d.legs := rfl
@[simp] theorem Dev.setJob_routes (d : Dev) (j : Nat) (b : Job) : (d.setJob j b).routes = d.routes := rfl
@[simp] theorem Dev.setJob_passRecs (d : Dev) (j : Nat) (b : Job) : (d.setJob j b).passRecs = d.passRecs := rfl
@[simp] theorem Dev.setJob_gwCredits (d : Dev) (j : Nat) (b : Job) : (d.setJob j b).gwCredits = d.gwCredits := rfl
@[simp] theorem Dev.setJob_tether (d : Dev) (j : Nat) (b : Job) : (d.setJob j b).tether = d.tether := rfl
@[simp] theorem Dev.setJob_groups (d : Dev) (j : Nat) (b : Job) : (d.setJob j b).groups = d.groups := rfl
@[simp] theorem Dev.setJob_finished (d : Dev) (j : Nat) (b : Job) : (d.setJob j b).finished = d.finished := rfl
@[simp] theorem Dev.setJob_heldReplies (d : Dev) (j : Nat) (b : Job) : (d.setJob j b).heldReplies = d.heldReplies := rfl
@[simp] theorem Dev.setJob_nextGroup (d : Dev) (j : Nat) (b : Job) : (d.setJob j b).nextGroup = d.nextGroup := rfl
@[simp] theorem Dev.setJob_nextOrder (d : Dev) (j : Nat) (b : Job) : (d.setJob j b).nextOrder = d.nextOrder := rfl
@[simp] theorem Dev.setJob_sessions (d : Dev) (j : Nat) (b : Job) : (d.setJob j b).sessions = d.sessions := rfl
@[simp] theorem Dev.setJob_nonces (d : Dev) (j : Nat) (b : Job) : (d.setJob j b).nonces = d.nonces := rfl
@[simp] theorem Dev.setJob_mgr (d : Dev) (j : Nat) (b : Job) : (d.setJob j b).mgr = d.mgr := rfl
@[simp] theorem Dev.setJob_mgrRound (d : Dev) (j : Nat) (b : Job) : (d.setJob j b).mgrRound = d.mgrRound := rfl
@[simp] theorem Dev.setJob_mgrBase (d : Dev) (j : Nat) (b : Job) : (d.setJob j b).mgrBase = d.mgrBase := rfl
@[simp] theorem Dev.setJob_authFails (d : Dev) (j : Nat) (b : Job) : (d.setJob j b).authFails = d.authFails := rfl
@[simp] theorem Dev.setJob_authRound (d : Dev) (j : Nat) (b : Job) : (d.setJob j b).authRound = d.authRound := rfl
@[simp] theorem Dev.setJob_notified (d : Dev) (j : Nat) (b : Job) : (d.setJob j b).notified = d.notified := rfl
@[simp] theorem Dev.setJob_notifyDue (d : Dev) (j : Nat) (b : Job) : (d.setJob j b).notifyDue = d.notifyDue := rfl
@[simp] theorem Dev.setJob_alerts (d : Dev) (j : Nat) (b : Job) : (d.setJob j b).alerts = d.alerts := rfl
@[simp] theorem Dev.setJob_portState (d : Dev) (j : Nat) (b : Job) : (d.setJob j b).portState = d.portState := rfl
@[simp] theorem Dev.setJob_permits (d : Dev) (j : Nat) (b : Job) : (d.setJob j b).permits = d.permits := rfl
@[simp] theorem Dev.setJob_nextPermit (d : Dev) (j : Nat) (b : Job) : (d.setJob j b).nextPermit = d.nextPermit := rfl
@[simp] theorem Dev.setJob_comps (d : Dev) (j : Nat) (b : Job) : (d.setJob j b).comps = d.comps := rfl
@[simp] theorem Dev.setJob_keys (d : Dev) (j : Nat) (b : Job) : (d.setJob j b).keys = d.keys := rfl
@[simp] theorem Dev.setJob_ballast (d : Dev) (j : Nat) (b : Job) : (d.setJob j b).ballast = d.ballast := rfl
@[simp] theorem Dev.setJob_journal (d : Dev) (j : Nat) (b : Job) : (d.setJob j b).journal = d.journal := rfl
@[simp] theorem Dev.setJob_boot (d : Dev) (j : Nat) (b : Job) : (d.setJob j b).boot = d.boot := rfl
@[simp] theorem Dev.setJob_gust (d : Dev) (j : Nat) (b : Job) : (d.setJob j b).gust = d.gust := rfl
@[simp] theorem Dev.setJob_samp (d : Dev) (j : Nat) (b : Job) : (d.setJob j b).samp = d.samp := rfl
@[simp] theorem Dev.setJob_dirtySet (d : Dev) (j : Nat) (b : Job) : (d.setJob j b).dirtySet = d.dirtySet := rfl
@[simp] theorem Dev.setJob_unprot (d : Dev) (j : Nat) (b : Job) : (d.setJob j b).unprot = d.unprot := rfl
@[simp] theorem Dev.setJob_outUnits (d : Dev) (j : Nat) (b : Job) : (d.setJob j b).outUnits = d.outUnits := rfl
@[simp] theorem Dev.setJob_sweep (d : Dev) (j : Nat) (b : Job) : (d.setJob j b).sweep = d.sweep := rfl
@[simp] theorem Dev.setJob_tap (d : Dev) (j : Nat) (b : Job) : (d.setJob j b).tap = d.tap := rfl
@[simp] theorem Dev.setJob_unlocked (d : Dev) (j : Nat) (b : Job) : (d.setJob j b).unlocked = d.unlocked := rfl
@[simp] theorem Dev.setJob_switched (d : Dev) (j : Nat) (b : Job) : (d.setJob j b).switched = d.switched := rfl
@[simp] theorem Dev.setJob_busy (d : Dev) (j : Nat) (b : Job) : (d.setJob j b).busy = d.busy := rfl
@[simp] theorem Dev.setJob_execBeats (d : Dev) (j : Nat) (b : Job) : (d.setJob j b).execBeats = d.execBeats := rfl
@[simp] theorem Dev.setJob_slotAt (d : Dev) (j : Nat) (b : Job) : (d.setJob j b).slotAt = d.slotAt := rfl
@[simp] theorem Dev.setJob_draws (d : Dev) (j : Nat) (b : Job) : (d.setJob j b).draws = d.draws := rfl
@[simp] theorem Dev.setJob_out (d : Dev) (j : Nat) (b : Job) : (d.setJob j b).out = d.out := rfl
@[simp] theorem Dev.setJob_effs (d : Dev) (j : Nat) (b : Job) : (d.setJob j b).effs = d.effs := rfl

@[simp] theorem Dev.addSync_state (d : Dev) (k n : Nat) : (d.addSync k n).state = d.state := rfl
@[simp] theorem Dev.addSync_objs (d : Dev) (k n : Nat) : (d.addSync k n).objs = d.objs := rfl
@[simp] theorem Dev.addSync_chg (d : Dev) (k n : Nat) : (d.addSync k n).chg = d.chg := rfl
@[simp] theorem Dev.addSync_facets (d : Dev) (k n : Nat) : (d.addSync k n).facets = d.facets := rfl
@[simp] theorem Dev.addSync_canopy (d : Dev) (k n : Nat) : (d.addSync k n).canopy = d.canopy := rfl
@[simp] theorem Dev.addSync_scans (d : Dev) (k n : Nat) : (d.addSync k n).scans = d.scans := rfl
@[simp] theorem Dev.addSync_resume (d : Dev) (k n : Nat) : (d.addSync k n).resume = d.resume := rfl
@[simp] theorem Dev.addSync_scanned (d : Dev) (k n : Nat) : (d.addSync k n).scanned = d.scanned := rfl
@[simp] theorem Dev.addSync_engines (d : Dev) (k n : Nat) : (d.addSync k n).engines = d.engines := rfl
@[simp] theorem Dev.addSync_stepser (d : Dev) (k n : Nat) : (d.addSync k n).stepser = d.stepser := rfl
@[simp] theorem Dev.addSync_board (d : Dev) (k n : Nat) : (d.addSync k n).board = d.board := rfl
@[simp] theorem Dev.addSync_boardTag (d : Dev) (k n : Nat) : (d.addSync k n).boardTag = d.boardTag := rfl
@[simp] theorem Dev.addSync_spill (d : Dev) (k n : Nat) : (d.addSync k n).spill = d.spill := rfl
@[simp] theorem Dev.addSync_jobs (d : Dev) (k n : Nat) : (d.addSync k n).jobs = d.jobs := rfl
@[simp] theorem Dev.addSync_images (d : Dev) (k n : Nat) : (d.addSync k n).images = d.images := rfl
@[simp] theorem Dev.addSync_catalogs (d : Dev) (k n : Nat) : (d.addSync k n).catalogs = d.catalogs := rfl
@[simp] theorem Dev.addSync_reqs (d : Dev) (k n : Nat) : (d.addSync k n).reqs = d.reqs := rfl
@[simp] theorem Dev.addSync_digests (d : Dev) (k n : Nat) : (d.addSync k n).digests = d.digests := rfl
@[simp] theorem Dev.addSync_schanges (d : Dev) (k n : Nat) : (d.addSync k n).schanges = d.schanges := rfl
@[simp] theorem Dev.addSync_stepDue (d : Dev) (k n : Nat) : (d.addSync k n).stepDue = d.stepDue := rfl
@[simp] theorem Dev.addSync_bWaiting (d : Dev) (k n : Nat) : (d.addSync k n).bWaiting = d.bWaiting := rfl
@[simp] theorem Dev.addSync_ports (d : Dev) (k n : Nat) : (d.addSync k n).ports = d.ports := rfl
@[simp] theorem Dev.addSync_legs (d : Dev) (k n : Nat) : (d.addSync k n).legs = d.legs := rfl
@[simp] theorem Dev.addSync_routes (d : Dev) (k n : Nat) : (d.addSync k n).routes = d.routes := rfl
@[simp] theorem Dev.addSync_passRecs (d : Dev) (k n : Nat) : (d.addSync k n).passRecs = d.passRecs := rfl
@[simp] theorem Dev.addSync_gwCredits (d : Dev) (k n : Nat) : (d.addSync k n).gwCredits = d.gwCredits := rfl
@[simp] theorem Dev.addSync_tether (d : Dev) (k n : Nat) : (d.addSync k n).tether = d.tether := rfl
@[simp] theorem Dev.addSync_groups (d : Dev) (k n : Nat) : (d.addSync k n).groups = d.groups := rfl
@[simp] theorem Dev.addSync_finished (d : Dev) (k n : Nat) : (d.addSync k n).finished = d.finished := rfl
@[simp] theorem Dev.addSync_heldReplies (d : Dev) (k n : Nat) : (d.addSync k n).heldReplies = d.heldReplies := rfl
@[simp] theorem Dev.addSync_nextGroup (d : Dev) (k n : Nat) : (d.addSync k n).nextGroup = d.nextGroup := rfl
@[simp] theorem Dev.addSync_nextOrder (d : Dev) (k n : Nat) : (d.addSync k n).nextOrder = d.nextOrder := rfl
@[simp] theorem Dev.addSync_sessions (d : Dev) (k n : Nat) : (d.addSync k n).sessions = d.sessions := rfl
@[simp] theorem Dev.addSync_nonces (d : Dev) (k n : Nat) : (d.addSync k n).nonces = d.nonces := rfl
@[simp] theorem Dev.addSync_mgr (d : Dev) (k n : Nat) : (d.addSync k n).mgr = d.mgr := rfl
@[simp] theorem Dev.addSync_mgrRound (d : Dev) (k n : Nat) : (d.addSync k n).mgrRound = d.mgrRound := rfl
@[simp] theorem Dev.addSync_mgrBase (d : Dev) (k n : Nat) : (d.addSync k n).mgrBase = d.mgrBase := rfl
@[simp] theorem Dev.addSync_authFails (d : Dev) (k n : Nat) : (d.addSync k n).authFails = d.authFails := rfl
@[simp] theorem Dev.addSync_authRound (d : Dev) (k n : Nat) : (d.addSync k n).authRound = d.authRound := rfl
@[simp] theorem Dev.addSync_notified (d : Dev) (k n : Nat) : (d.addSync k n).notified = d.notified := rfl
@[simp] theorem Dev.addSync_notifyDue (d : Dev) (k n : Nat) : (d.addSync k n).notifyDue = d.notifyDue := rfl
@[simp] theorem Dev.addSync_alerts (d : Dev) (k n : Nat) : (d.addSync k n).alerts = d.alerts := rfl
@[simp] theorem Dev.addSync_portState (d : Dev) (k n : Nat) : (d.addSync k n).portState = d.portState := rfl
@[simp] theorem Dev.addSync_permits (d : Dev) (k n : Nat) : (d.addSync k n).permits = d.permits := rfl
@[simp] theorem Dev.addSync_nextPermit (d : Dev) (k n : Nat) : (d.addSync k n).nextPermit = d.nextPermit := rfl
@[simp] theorem Dev.addSync_comps (d : Dev) (k n : Nat) : (d.addSync k n).comps = d.comps := rfl
@[simp] theorem Dev.addSync_keys (d : Dev) (k n : Nat) : (d.addSync k n).keys = d.keys := rfl
@[simp] theorem Dev.addSync_ballast (d : Dev) (k n : Nat) : (d.addSync k n).ballast = d.ballast := rfl
@[simp] theorem Dev.addSync_journal (d : Dev) (k n : Nat) : (d.addSync k n).journal = d.journal := rfl
@[simp] theorem Dev.addSync_boot (d : Dev) (k n : Nat) : (d.addSync k n).boot = d.boot := rfl
@[simp] theorem Dev.addSync_gust (d : Dev) (k n : Nat) : (d.addSync k n).gust = d.gust := rfl
@[simp] theorem Dev.addSync_samp (d : Dev) (k n : Nat) : (d.addSync k n).samp = d.samp := rfl
@[simp] theorem Dev.addSync_dirtySet (d : Dev) (k n : Nat) : (d.addSync k n).dirtySet = d.dirtySet := rfl
@[simp] theorem Dev.addSync_unprot (d : Dev) (k n : Nat) : (d.addSync k n).unprot = d.unprot := rfl
@[simp] theorem Dev.addSync_outUnits (d : Dev) (k n : Nat) : (d.addSync k n).outUnits = d.outUnits := rfl
@[simp] theorem Dev.addSync_sweep (d : Dev) (k n : Nat) : (d.addSync k n).sweep = d.sweep := rfl
@[simp] theorem Dev.addSync_tap (d : Dev) (k n : Nat) : (d.addSync k n).tap = d.tap := rfl
@[simp] theorem Dev.addSync_unlocked (d : Dev) (k n : Nat) : (d.addSync k n).unlocked = d.unlocked := rfl
@[simp] theorem Dev.addSync_switched (d : Dev) (k n : Nat) : (d.addSync k n).switched = d.switched := rfl
@[simp] theorem Dev.addSync_busy (d : Dev) (k n : Nat) : (d.addSync k n).busy = d.busy := rfl
@[simp] theorem Dev.addSync_execBeats (d : Dev) (k n : Nat) : (d.addSync k n).execBeats = d.execBeats := rfl
@[simp] theorem Dev.addSync_slotAt (d : Dev) (k n : Nat) : (d.addSync k n).slotAt = d.slotAt := rfl
@[simp] theorem Dev.addSync_draws (d : Dev) (k n : Nat) : (d.addSync k n).draws = d.draws := rfl
@[simp] theorem Dev.addSync_out (d : Dev) (k n : Nat) : (d.addSync k n).out = d.out := rfl
@[simp] theorem Dev.addSync_effs (d : Dev) (k n : Nat) : (d.addSync k n).effs = d.effs := rfl

@[simp] theorem Dev.movePin_state (old d : Dev) : (old.movePin d).state = d.state := by unfold Dev.movePin; split <;> rfl
@[simp] theorem Dev.movePin_objs (old d : Dev) : (old.movePin d).objs = d.objs := by unfold Dev.movePin; split <;> rfl
@[simp] theorem Dev.movePin_chg (old d : Dev) : (old.movePin d).chg = d.chg := by unfold Dev.movePin; split <;> rfl
@[simp] theorem Dev.movePin_facets (old d : Dev) : (old.movePin d).facets = d.facets := by unfold Dev.movePin; split <;> rfl
@[simp] theorem Dev.movePin_canopy (old d : Dev) : (old.movePin d).canopy = d.canopy := by unfold Dev.movePin; split <;> rfl
@[simp] theorem Dev.movePin_scans (old d : Dev) : (old.movePin d).scans = d.scans := by unfold Dev.movePin; split <;> rfl
@[simp] theorem Dev.movePin_resume (old d : Dev) : (old.movePin d).resume = d.resume := by unfold Dev.movePin; split <;> rfl
@[simp] theorem Dev.movePin_scanned (old d : Dev) : (old.movePin d).scanned = d.scanned := by unfold Dev.movePin; split <;> rfl
@[simp] theorem Dev.movePin_sync (old d : Dev) : (old.movePin d).sync = d.sync := by unfold Dev.movePin; split <;> rfl
@[simp] theorem Dev.movePin_engines (old d : Dev) : (old.movePin d).engines = d.engines := by unfold Dev.movePin; split <;> rfl
@[simp] theorem Dev.movePin_stepser (old d : Dev) : (old.movePin d).stepser = d.stepser := by unfold Dev.movePin; split <;> rfl
@[simp] theorem Dev.movePin_board (old d : Dev) : (old.movePin d).board = d.board := by unfold Dev.movePin; split <;> rfl
@[simp] theorem Dev.movePin_boardTag (old d : Dev) : (old.movePin d).boardTag = d.boardTag := by unfold Dev.movePin; split <;> rfl
@[simp] theorem Dev.movePin_spill (old d : Dev) : (old.movePin d).spill = d.spill := by unfold Dev.movePin; split <;> rfl
@[simp] theorem Dev.movePin_jobs (old d : Dev) : (old.movePin d).jobs = d.jobs := by unfold Dev.movePin; split <;> rfl
@[simp] theorem Dev.movePin_images (old d : Dev) : (old.movePin d).images = d.images := by unfold Dev.movePin; split <;> rfl
@[simp] theorem Dev.movePin_catalogs (old d : Dev) : (old.movePin d).catalogs = d.catalogs := by unfold Dev.movePin; split <;> rfl
@[simp] theorem Dev.movePin_reqs (old d : Dev) : (old.movePin d).reqs = d.reqs := by unfold Dev.movePin; split <;> rfl
@[simp] theorem Dev.movePin_digests (old d : Dev) : (old.movePin d).digests = d.digests := by unfold Dev.movePin; split <;> rfl
@[simp] theorem Dev.movePin_schanges (old d : Dev) : (old.movePin d).schanges = d.schanges := by unfold Dev.movePin; split <;> rfl
@[simp] theorem Dev.movePin_stepDue (old d : Dev) : (old.movePin d).stepDue = d.stepDue := by unfold Dev.movePin; split <;> rfl
@[simp] theorem Dev.movePin_bWaiting (old d : Dev) : (old.movePin d).bWaiting = d.bWaiting := by unfold Dev.movePin; split <;> rfl
@[simp] theorem Dev.movePin_ports (old d : Dev) : (old.movePin d).ports = d.ports := by unfold Dev.movePin; split <;> rfl
@[simp] theorem Dev.movePin_legs (old d : Dev) : (old.movePin d).legs = d.legs := by unfold Dev.movePin; split <;> rfl
@[simp] theorem Dev.movePin_routes (old d : Dev) : (old.movePin d).routes = d.routes := by unfold Dev.movePin; split <;> rfl
@[simp] theorem Dev.movePin_passRecs (old d : Dev) : (old.movePin d).passRecs = d.passRecs := by unfold Dev.movePin; split <;> rfl
@[simp] theorem Dev.movePin_gwCredits (old d : Dev) : (old.movePin d).gwCredits = d.gwCredits := by unfold Dev.movePin; split <;> rfl
@[simp] theorem Dev.movePin_tether (old d : Dev) : (old.movePin d).tether = d.tether := by unfold Dev.movePin; split <;> rfl
@[simp] theorem Dev.movePin_groups (old d : Dev) : (old.movePin d).groups = d.groups := by unfold Dev.movePin; split <;> rfl
@[simp] theorem Dev.movePin_finished (old d : Dev) : (old.movePin d).finished = d.finished := by unfold Dev.movePin; split <;> rfl
@[simp] theorem Dev.movePin_heldReplies (old d : Dev) : (old.movePin d).heldReplies = d.heldReplies := by unfold Dev.movePin; split <;> rfl
@[simp] theorem Dev.movePin_nextGroup (old d : Dev) : (old.movePin d).nextGroup = d.nextGroup := by unfold Dev.movePin; split <;> rfl
@[simp] theorem Dev.movePin_nextOrder (old d : Dev) : (old.movePin d).nextOrder = d.nextOrder := by unfold Dev.movePin; split <;> rfl
@[simp] theorem Dev.movePin_sessions (old d : Dev) : (old.movePin d).sessions = d.sessions := by unfold Dev.movePin; split <;> rfl
@[simp] theorem Dev.movePin_nonces (old d : Dev) : (old.movePin d).nonces = d.nonces := by unfold Dev.movePin; split <;> rfl
@[simp] theorem Dev.movePin_mgr (old d : Dev) : (old.movePin d).mgr = d.mgr := by unfold Dev.movePin; split <;> rfl
@[simp] theorem Dev.movePin_mgrRound (old d : Dev) : (old.movePin d).mgrRound = d.mgrRound := by unfold Dev.movePin; split <;> rfl
@[simp] theorem Dev.movePin_mgrBase (old d : Dev) : (old.movePin d).mgrBase = d.mgrBase := by unfold Dev.movePin; split <;> rfl
@[simp] theorem Dev.movePin_authFails (old d : Dev) : (old.movePin d).authFails = d.authFails := by unfold Dev.movePin; split <;> rfl
@[simp] theorem Dev.movePin_authRound (old d : Dev) : (old.movePin d).authRound = d.authRound := by unfold Dev.movePin; split <;> rfl
@[simp] theorem Dev.movePin_notified (old d : Dev) : (old.movePin d).notified = d.notified := by unfold Dev.movePin; split <;> rfl
@[simp] theorem Dev.movePin_notifyDue (old d : Dev) : (old.movePin d).notifyDue = d.notifyDue := by unfold Dev.movePin; split <;> rfl
@[simp] theorem Dev.movePin_alerts (old d : Dev) : (old.movePin d).alerts = d.alerts := by unfold Dev.movePin; split <;> rfl
@[simp] theorem Dev.movePin_portState (old d : Dev) : (old.movePin d).portState = d.portState := by unfold Dev.movePin; split <;> rfl
@[simp] theorem Dev.movePin_permits (old d : Dev) : (old.movePin d).permits = d.permits := by unfold Dev.movePin; split <;> rfl
@[simp] theorem Dev.movePin_nextPermit (old d : Dev) : (old.movePin d).nextPermit = d.nextPermit := by unfold Dev.movePin; split <;> rfl
@[simp] theorem Dev.movePin_comps (old d : Dev) : (old.movePin d).comps = d.comps := by unfold Dev.movePin; split <;> rfl
@[simp] theorem Dev.movePin_keys (old d : Dev) : (old.movePin d).keys = d.keys := by unfold Dev.movePin; split <;> rfl
@[simp] theorem Dev.movePin_ballast (old d : Dev) : (old.movePin d).ballast = d.ballast := by unfold Dev.movePin; split <;> rfl
@[simp] theorem Dev.movePin_journal (old d : Dev) : (old.movePin d).journal = d.journal := by unfold Dev.movePin; split <;> rfl
@[simp] theorem Dev.movePin_boot (old d : Dev) : (old.movePin d).boot = d.boot := by unfold Dev.movePin; split <;> rfl
@[simp] theorem Dev.movePin_gust (old d : Dev) : (old.movePin d).gust = d.gust := by unfold Dev.movePin; split <;> rfl
@[simp] theorem Dev.movePin_samp (old d : Dev) : (old.movePin d).samp = d.samp := by unfold Dev.movePin; split <;> rfl
@[simp] theorem Dev.movePin_dirtySet (old d : Dev) : (old.movePin d).dirtySet = d.dirtySet := by unfold Dev.movePin; split <;> rfl
@[simp] theorem Dev.movePin_unprot (old d : Dev) : (old.movePin d).unprot = d.unprot := by unfold Dev.movePin; split <;> rfl
@[simp] theorem Dev.movePin_outUnits (old d : Dev) : (old.movePin d).outUnits = d.outUnits := by unfold Dev.movePin; split <;> rfl
@[simp] theorem Dev.movePin_sweep (old d : Dev) : (old.movePin d).sweep = d.sweep := by unfold Dev.movePin; split <;> rfl
@[simp] theorem Dev.movePin_tap (old d : Dev) : (old.movePin d).tap = d.tap := by unfold Dev.movePin; split <;> rfl
@[simp] theorem Dev.movePin_unlocked (old d : Dev) : (old.movePin d).unlocked = d.unlocked := by unfold Dev.movePin; split <;> rfl
@[simp] theorem Dev.movePin_switched (old d : Dev) : (old.movePin d).switched = d.switched := by unfold Dev.movePin; split <;> rfl
@[simp] theorem Dev.movePin_busy (old d : Dev) : (old.movePin d).busy = d.busy := by unfold Dev.movePin; split <;> rfl
@[simp] theorem Dev.movePin_execBeats (old d : Dev) : (old.movePin d).execBeats = d.execBeats := by unfold Dev.movePin; split <;> rfl
@[simp] theorem Dev.movePin_slotAt (old d : Dev) : (old.movePin d).slotAt = d.slotAt := by unfold Dev.movePin; split <;> rfl
@[simp] theorem Dev.movePin_draws (old d : Dev) : (old.movePin d).draws = d.draws := by unfold Dev.movePin; split <;> rfl
@[simp] theorem Dev.movePin_effs (old d : Dev) : (old.movePin d).effs = d.effs := by unfold Dev.movePin; split <;> rfl

@[simp] theorem Dev.alert_state (d : Dev) (b : Nat) : (d.alert b).state = d.state := by unfold Dev.alert; split <;> first | rfl | exact Dev.movePin_state _ _
@[simp] theorem Dev.alert_chg (d : Dev) (b : Nat) : (d.alert b).chg = d.chg := by unfold Dev.alert; split <;> first | rfl | exact Dev.movePin_chg _ _
@[simp] theorem Dev.alert_facets (d : Dev) (b : Nat) : (d.alert b).facets = d.facets := by unfold Dev.alert; split <;> first | rfl | exact Dev.movePin_facets _ _
@[simp] theorem Dev.alert_canopy (d : Dev) (b : Nat) : (d.alert b).canopy = d.canopy := by unfold Dev.alert; split <;> first | rfl | exact Dev.movePin_canopy _ _
@[simp] theorem Dev.alert_scans (d : Dev) (b : Nat) : (d.alert b).scans = d.scans := by unfold Dev.alert; split <;> first | rfl | exact Dev.movePin_scans _ _
@[simp] theorem Dev.alert_resume (d : Dev) (b : Nat) : (d.alert b).resume = d.resume := by unfold Dev.alert; split <;> first | rfl | exact Dev.movePin_resume _ _
@[simp] theorem Dev.alert_scanned (d : Dev) (b : Nat) : (d.alert b).scanned = d.scanned := by unfold Dev.alert; split <;> first | rfl | exact Dev.movePin_scanned _ _
@[simp] theorem Dev.alert_sync (d : Dev) (b : Nat) : (d.alert b).sync = d.sync := by unfold Dev.alert; split <;> first | rfl | exact Dev.movePin_sync _ _
@[simp] theorem Dev.alert_engines (d : Dev) (b : Nat) : (d.alert b).engines = d.engines := by unfold Dev.alert; split <;> first | rfl | exact Dev.movePin_engines _ _
@[simp] theorem Dev.alert_stepser (d : Dev) (b : Nat) : (d.alert b).stepser = d.stepser := by unfold Dev.alert; split <;> first | rfl | exact Dev.movePin_stepser _ _
@[simp] theorem Dev.alert_board (d : Dev) (b : Nat) : (d.alert b).board = d.board := by unfold Dev.alert; split <;> first | rfl | exact Dev.movePin_board _ _
@[simp] theorem Dev.alert_boardTag (d : Dev) (b : Nat) : (d.alert b).boardTag = d.boardTag := by unfold Dev.alert; split <;> first | rfl | exact Dev.movePin_boardTag _ _
@[simp] theorem Dev.alert_spill (d : Dev) (b : Nat) : (d.alert b).spill = d.spill := by unfold Dev.alert; split <;> first | rfl | exact Dev.movePin_spill _ _
@[simp] theorem Dev.alert_jobs (d : Dev) (b : Nat) : (d.alert b).jobs = d.jobs := by unfold Dev.alert; split <;> first | rfl | exact Dev.movePin_jobs _ _
@[simp] theorem Dev.alert_images (d : Dev) (b : Nat) : (d.alert b).images = d.images := by unfold Dev.alert; split <;> first | rfl | exact Dev.movePin_images _ _
@[simp] theorem Dev.alert_catalogs (d : Dev) (b : Nat) : (d.alert b).catalogs = d.catalogs := by unfold Dev.alert; split <;> first | rfl | exact Dev.movePin_catalogs _ _
@[simp] theorem Dev.alert_reqs (d : Dev) (b : Nat) : (d.alert b).reqs = d.reqs := by unfold Dev.alert; split <;> first | rfl | exact Dev.movePin_reqs _ _
@[simp] theorem Dev.alert_digests (d : Dev) (b : Nat) : (d.alert b).digests = d.digests := by unfold Dev.alert; split <;> first | rfl | exact Dev.movePin_digests _ _
@[simp] theorem Dev.alert_schanges (d : Dev) (b : Nat) : (d.alert b).schanges = d.schanges := by unfold Dev.alert; split <;> first | rfl | exact Dev.movePin_schanges _ _
@[simp] theorem Dev.alert_stepDue (d : Dev) (b : Nat) : (d.alert b).stepDue = d.stepDue := by unfold Dev.alert; split <;> first | rfl | exact Dev.movePin_stepDue _ _
@[simp] theorem Dev.alert_bWaiting (d : Dev) (b : Nat) : (d.alert b).bWaiting = d.bWaiting := by unfold Dev.alert; split <;> first | rfl | exact Dev.movePin_bWaiting _ _
@[simp] theorem Dev.alert_ports (d : Dev) (b : Nat) : (d.alert b).ports = d.ports := by unfold Dev.alert; split <;> first | rfl | exact Dev.movePin_ports _ _
@[simp] theorem Dev.alert_legs (d : Dev) (b : Nat) : (d.alert b).legs = d.legs := by unfold Dev.alert; split <;> first | rfl | exact Dev.movePin_legs _ _
@[simp] theorem Dev.alert_routes (d : Dev) (b : Nat) : (d.alert b).routes = d.routes := by unfold Dev.alert; split <;> first | rfl | exact Dev.movePin_routes _ _
@[simp] theorem Dev.alert_passRecs (d : Dev) (b : Nat) : (d.alert b).passRecs = d.passRecs := by unfold Dev.alert; split <;> first | rfl | exact Dev.movePin_passRecs _ _
@[simp] theorem Dev.alert_gwCredits (d : Dev) (b : Nat) : (d.alert b).gwCredits = d.gwCredits := by unfold Dev.alert; split <;> first | rfl | exact Dev.movePin_gwCredits _ _
@[simp] theorem Dev.alert_tether (d : Dev) (b : Nat) : (d.alert b).tether = d.tether := by unfold Dev.alert; split <;> first | rfl | exact Dev.movePin_tether _ _
@[simp] theorem Dev.alert_groups (d : Dev) (b : Nat) : (d.alert b).groups = d.groups := by unfold Dev.alert; split <;> first | rfl | exact Dev.movePin_groups _ _
@[simp] theorem Dev.alert_finished (d : Dev) (b : Nat) : (d.alert b).finished = d.finished := by unfold Dev.alert; split <;> first | rfl | exact Dev.movePin_finished _ _
@[simp] theorem Dev.alert_heldReplies (d : Dev) (b : Nat) : (d.alert b).heldReplies = d.heldReplies := by unfold Dev.alert; split <;> first | rfl | exact Dev.movePin_heldReplies _ _
@[simp] theorem Dev.alert_nextGroup (d : Dev) (b : Nat) : (d.alert b).nextGroup = d.nextGroup := by unfold Dev.alert; split <;> first | rfl | exact Dev.movePin_nextGroup _ _
@[simp] theorem Dev.alert_nextOrder (d : Dev) (b : Nat) : (d.alert b).nextOrder = d.nextOrder := by unfold Dev.alert; split <;> first | rfl | exact Dev.movePin_nextOrder _ _
@[simp] theorem Dev.alert_sessions (d : Dev) (b : Nat) : (d.alert b).sessions = d.sessions := by unfold Dev.alert; split <;> first | rfl | exact Dev.movePin_sessions _ _
@[simp] theorem Dev.alert_nonces (d : Dev) (b : Nat) : (d.alert b).nonces = d.nonces := by unfold Dev.alert; split <;> first | rfl | exact Dev.movePin_nonces _ _
@[simp] theorem Dev.alert_mgr (d : Dev) (b : Nat) : (d.alert b).mgr = d.mgr := by unfold Dev.alert; split <;> first | rfl | exact Dev.movePin_mgr _ _
@[simp] theorem Dev.alert_mgrRound (d : Dev) (b : Nat) : (d.alert b).mgrRound = d.mgrRound := by unfold Dev.alert; split <;> first | rfl | exact Dev.movePin_mgrRound _ _
@[simp] theorem Dev.alert_mgrBase (d : Dev) (b : Nat) : (d.alert b).mgrBase = d.mgrBase := by unfold Dev.alert; split <;> first | rfl | exact Dev.movePin_mgrBase _ _
@[simp] theorem Dev.alert_authFails (d : Dev) (b : Nat) : (d.alert b).authFails = d.authFails := by unfold Dev.alert; split <;> first | rfl | exact Dev.movePin_authFails _ _
@[simp] theorem Dev.alert_authRound (d : Dev) (b : Nat) : (d.alert b).authRound = d.authRound := by unfold Dev.alert; split <;> first | rfl | exact Dev.movePin_authRound _ _
@[simp] theorem Dev.alert_notified (d : Dev) (b : Nat) : (d.alert b).notified = d.notified := by unfold Dev.alert; split <;> first | rfl | exact Dev.movePin_notified _ _
@[simp] theorem Dev.alert_portState (d : Dev) (b : Nat) : (d.alert b).portState = d.portState := by unfold Dev.alert; split <;> first | rfl | exact Dev.movePin_portState _ _
@[simp] theorem Dev.alert_permits (d : Dev) (b : Nat) : (d.alert b).permits = d.permits := by unfold Dev.alert; split <;> first | rfl | exact Dev.movePin_permits _ _
@[simp] theorem Dev.alert_nextPermit (d : Dev) (b : Nat) : (d.alert b).nextPermit = d.nextPermit := by unfold Dev.alert; split <;> first | rfl | exact Dev.movePin_nextPermit _ _
@[simp] theorem Dev.alert_comps (d : Dev) (b : Nat) : (d.alert b).comps = d.comps := by unfold Dev.alert; split <;> first | rfl | exact Dev.movePin_comps _ _
@[simp] theorem Dev.alert_keys (d : Dev) (b : Nat) : (d.alert b).keys = d.keys := by unfold Dev.alert; split <;> first | rfl | exact Dev.movePin_keys _ _
@[simp] theorem Dev.alert_ballast (d : Dev) (b : Nat) : (d.alert b).ballast = d.ballast := by unfold Dev.alert; split <;> first | rfl | exact Dev.movePin_ballast _ _
@[simp] theorem Dev.alert_journal (d : Dev) (b : Nat) : (d.alert b).journal = d.journal := by unfold Dev.alert; split <;> first | rfl | exact Dev.movePin_journal _ _
@[simp] theorem Dev.alert_boot (d : Dev) (b : Nat) : (d.alert b).boot = d.boot := by unfold Dev.alert; split <;> first | rfl | exact Dev.movePin_boot _ _
@[simp] theorem Dev.alert_gust (d : Dev) (b : Nat) : (d.alert b).gust = d.gust := by unfold Dev.alert; split <;> first | rfl | exact Dev.movePin_gust _ _
@[simp] theorem Dev.alert_samp (d : Dev) (b : Nat) : (d.alert b).samp = d.samp := by unfold Dev.alert; split <;> first | rfl | exact Dev.movePin_samp _ _
@[simp] theorem Dev.alert_dirtySet (d : Dev) (b : Nat) : (d.alert b).dirtySet = d.dirtySet := by unfold Dev.alert; split <;> first | rfl | exact Dev.movePin_dirtySet _ _
@[simp] theorem Dev.alert_unprot (d : Dev) (b : Nat) : (d.alert b).unprot = d.unprot := by unfold Dev.alert; split <;> first | rfl | exact Dev.movePin_unprot _ _
@[simp] theorem Dev.alert_outUnits (d : Dev) (b : Nat) : (d.alert b).outUnits = d.outUnits := by unfold Dev.alert; split <;> first | rfl | exact Dev.movePin_outUnits _ _
@[simp] theorem Dev.alert_sweep (d : Dev) (b : Nat) : (d.alert b).sweep = d.sweep := by unfold Dev.alert; split <;> first | rfl | exact Dev.movePin_sweep _ _
@[simp] theorem Dev.alert_tap (d : Dev) (b : Nat) : (d.alert b).tap = d.tap := by unfold Dev.alert; split <;> first | rfl | exact Dev.movePin_tap _ _
@[simp] theorem Dev.alert_unlocked (d : Dev) (b : Nat) : (d.alert b).unlocked = d.unlocked := by unfold Dev.alert; split <;> first | rfl | exact Dev.movePin_unlocked _ _
@[simp] theorem Dev.alert_switched (d : Dev) (b : Nat) : (d.alert b).switched = d.switched := by unfold Dev.alert; split <;> first | rfl | exact Dev.movePin_switched _ _
@[simp] theorem Dev.alert_busy (d : Dev) (b : Nat) : (d.alert b).busy = d.busy := by unfold Dev.alert; split <;> first | rfl | exact Dev.movePin_busy _ _
@[simp] theorem Dev.alert_execBeats (d : Dev) (b : Nat) : (d.alert b).execBeats = d.execBeats := by unfold Dev.alert; split <;> first | rfl | exact Dev.movePin_execBeats _ _
@[simp] theorem Dev.alert_slotAt (d : Dev) (b : Nat) : (d.alert b).slotAt = d.slotAt := by unfold Dev.alert; split <;> first | rfl | exact Dev.movePin_slotAt _ _
@[simp] theorem Dev.alert_draws (d : Dev) (b : Nat) : (d.alert b).draws = d.draws := by unfold Dev.alert; split <;> first | rfl | exact Dev.movePin_draws _ _
@[simp] theorem Dev.alert_effs (d : Dev) (b : Nat) : (d.alert b).effs = d.effs := by unfold Dev.alert; split <;> first | rfl | exact Dev.movePin_effs _ _

@[simp] theorem Dev.post_state (d : Dev) (c : Compl) : (d.post c).state = d.state := by unfold Dev.post Dev.peak; split <;> rfl
@[simp] theorem Dev.post_chg (d : Dev) (c : Compl) : (d.post c).chg = d.chg := by unfold Dev.post Dev.peak; split <;> rfl
@[simp] theorem Dev.post_facets (d : Dev) (c : Compl) : (d.post c).facets = d.facets := by unfold Dev.post Dev.peak; split <;> rfl
@[simp] theorem Dev.post_canopy (d : Dev) (c : Compl) : (d.post c).canopy = d.canopy := by unfold Dev.post Dev.peak; split <;> rfl
@[simp] theorem Dev.post_scans (d : Dev) (c : Compl) : (d.post c).scans = d.scans := by unfold Dev.post Dev.peak; split <;> rfl
@[simp] theorem Dev.post_resume (d : Dev) (c : Compl) : (d.post c).resume = d.resume := by unfold Dev.post Dev.peak; split <;> rfl
@[simp] theorem Dev.post_scanned (d : Dev) (c : Compl) : (d.post c).scanned = d.scanned := by unfold Dev.post Dev.peak; split <;> rfl
@[simp] theorem Dev.post_sync (d : Dev) (c : Compl) : (d.post c).sync = d.sync := by unfold Dev.post Dev.peak; split <;> rfl
@[simp] theorem Dev.post_engines (d : Dev) (c : Compl) : (d.post c).engines = d.engines := by unfold Dev.post Dev.peak; split <;> rfl
@[simp] theorem Dev.post_stepser (d : Dev) (c : Compl) : (d.post c).stepser = d.stepser := by unfold Dev.post Dev.peak; split <;> rfl
@[simp] theorem Dev.post_board (d : Dev) (c : Compl) : (d.post c).board = d.board := by unfold Dev.post Dev.peak; split <;> rfl
@[simp] theorem Dev.post_boardTag (d : Dev) (c : Compl) : (d.post c).boardTag = d.boardTag := by unfold Dev.post Dev.peak; split <;> rfl
@[simp] theorem Dev.post_spill (d : Dev) (c : Compl) : (d.post c).spill = d.spill := by unfold Dev.post Dev.peak; split <;> rfl
@[simp] theorem Dev.post_jobs (d : Dev) (c : Compl) : (d.post c).jobs = d.jobs := by unfold Dev.post Dev.peak; split <;> rfl
@[simp] theorem Dev.post_images (d : Dev) (c : Compl) : (d.post c).images = d.images := by unfold Dev.post Dev.peak; split <;> rfl
@[simp] theorem Dev.post_catalogs (d : Dev) (c : Compl) : (d.post c).catalogs = d.catalogs := by unfold Dev.post Dev.peak; split <;> rfl
@[simp] theorem Dev.post_reqs (d : Dev) (c : Compl) : (d.post c).reqs = d.reqs := by unfold Dev.post Dev.peak; split <;> rfl
@[simp] theorem Dev.post_digests (d : Dev) (c : Compl) : (d.post c).digests = d.digests := by unfold Dev.post Dev.peak; split <;> rfl
@[simp] theorem Dev.post_schanges (d : Dev) (c : Compl) : (d.post c).schanges = d.schanges := by unfold Dev.post Dev.peak; split <;> rfl
@[simp] theorem Dev.post_stepDue (d : Dev) (c : Compl) : (d.post c).stepDue = d.stepDue := by unfold Dev.post Dev.peak; split <;> rfl
@[simp] theorem Dev.post_bWaiting (d : Dev) (c : Compl) : (d.post c).bWaiting = d.bWaiting := by unfold Dev.post Dev.peak; split <;> rfl
@[simp] theorem Dev.post_ports (d : Dev) (c : Compl) : (d.post c).ports = d.ports := by unfold Dev.post Dev.peak; split <;> rfl
@[simp] theorem Dev.post_legs (d : Dev) (c : Compl) : (d.post c).legs = d.legs := by unfold Dev.post Dev.peak; split <;> rfl
@[simp] theorem Dev.post_routes (d : Dev) (c : Compl) : (d.post c).routes = d.routes := by unfold Dev.post Dev.peak; split <;> rfl
@[simp] theorem Dev.post_passRecs (d : Dev) (c : Compl) : (d.post c).passRecs = d.passRecs := by unfold Dev.post Dev.peak; split <;> rfl
@[simp] theorem Dev.post_gwCredits (d : Dev) (c : Compl) : (d.post c).gwCredits = d.gwCredits := by unfold Dev.post Dev.peak; split <;> rfl
@[simp] theorem Dev.post_groups (d : Dev) (c : Compl) : (d.post c).groups = d.groups := by unfold Dev.post Dev.peak; split <;> rfl
@[simp] theorem Dev.post_finished (d : Dev) (c : Compl) : (d.post c).finished = d.finished := by unfold Dev.post Dev.peak; split <;> rfl
@[simp] theorem Dev.post_heldReplies (d : Dev) (c : Compl) : (d.post c).heldReplies = d.heldReplies := by unfold Dev.post Dev.peak; split <;> rfl
@[simp] theorem Dev.post_nextGroup (d : Dev) (c : Compl) : (d.post c).nextGroup = d.nextGroup := by unfold Dev.post Dev.peak; split <;> rfl
@[simp] theorem Dev.post_nextOrder (d : Dev) (c : Compl) : (d.post c).nextOrder = d.nextOrder := by unfold Dev.post Dev.peak; split <;> rfl
@[simp] theorem Dev.post_sessions (d : Dev) (c : Compl) : (d.post c).sessions = d.sessions := by unfold Dev.post Dev.peak; split <;> rfl
@[simp] theorem Dev.post_nonces (d : Dev) (c : Compl) : (d.post c).nonces = d.nonces := by unfold Dev.post Dev.peak; split <;> rfl
@[simp] theorem Dev.post_mgr (d : Dev) (c : Compl) : (d.post c).mgr = d.mgr := by unfold Dev.post Dev.peak; split <;> rfl
@[simp] theorem Dev.post_mgrRound (d : Dev) (c : Compl) : (d.post c).mgrRound = d.mgrRound := by unfold Dev.post Dev.peak; split <;> rfl
@[simp] theorem Dev.post_mgrBase (d : Dev) (c : Compl) : (d.post c).mgrBase = d.mgrBase := by unfold Dev.post Dev.peak; split <;> rfl
@[simp] theorem Dev.post_authFails (d : Dev) (c : Compl) : (d.post c).authFails = d.authFails := by unfold Dev.post Dev.peak; split <;> rfl
@[simp] theorem Dev.post_authRound (d : Dev) (c : Compl) : (d.post c).authRound = d.authRound := by unfold Dev.post Dev.peak; split <;> rfl
@[simp] theorem Dev.post_notified (d : Dev) (c : Compl) : (d.post c).notified = d.notified := by unfold Dev.post Dev.peak; split <;> rfl
@[simp] theorem Dev.post_notifyDue (d : Dev) (c : Compl) : (d.post c).notifyDue = d.notifyDue := by unfold Dev.post Dev.peak; split <;> rfl
@[simp] theorem Dev.post_alerts (d : Dev) (c : Compl) : (d.post c).alerts = d.alerts := by unfold Dev.post Dev.peak; split <;> rfl
@[simp] theorem Dev.post_portState (d : Dev) (c : Compl) : (d.post c).portState = d.portState := by unfold Dev.post Dev.peak; split <;> rfl
@[simp] theorem Dev.post_permits (d : Dev) (c : Compl) : (d.post c).permits = d.permits := by unfold Dev.post Dev.peak; split <;> rfl
@[simp] theorem Dev.post_nextPermit (d : Dev) (c : Compl) : (d.post c).nextPermit = d.nextPermit := by unfold Dev.post Dev.peak; split <;> rfl
@[simp] theorem Dev.post_comps (d : Dev) (c : Compl) : (d.post c).comps = d.comps := by unfold Dev.post Dev.peak; split <;> rfl
@[simp] theorem Dev.post_keys (d : Dev) (c : Compl) : (d.post c).keys = d.keys := by unfold Dev.post Dev.peak; split <;> rfl
@[simp] theorem Dev.post_ballast (d : Dev) (c : Compl) : (d.post c).ballast = d.ballast := by unfold Dev.post Dev.peak; split <;> rfl
@[simp] theorem Dev.post_journal (d : Dev) (c : Compl) : (d.post c).journal = d.journal := by unfold Dev.post Dev.peak; split <;> rfl
@[simp] theorem Dev.post_boot (d : Dev) (c : Compl) : (d.post c).boot = d.boot := by unfold Dev.post Dev.peak; split <;> rfl
@[simp] theorem Dev.post_gust (d : Dev) (c : Compl) : (d.post c).gust = d.gust := by unfold Dev.post Dev.peak; split <;> rfl
@[simp] theorem Dev.post_samp (d : Dev) (c : Compl) : (d.post c).samp = d.samp := by unfold Dev.post Dev.peak; split <;> rfl
@[simp] theorem Dev.post_dirtySet (d : Dev) (c : Compl) : (d.post c).dirtySet = d.dirtySet := by unfold Dev.post Dev.peak; split <;> rfl
@[simp] theorem Dev.post_unprot (d : Dev) (c : Compl) : (d.post c).unprot = d.unprot := by unfold Dev.post Dev.peak; split <;> rfl
@[simp] theorem Dev.post_outUnits (d : Dev) (c : Compl) : (d.post c).outUnits = d.outUnits := by unfold Dev.post Dev.peak; split <;> rfl
@[simp] theorem Dev.post_sweep (d : Dev) (c : Compl) : (d.post c).sweep = d.sweep := by unfold Dev.post Dev.peak; split <;> rfl
@[simp] theorem Dev.post_tap (d : Dev) (c : Compl) : (d.post c).tap = d.tap := by unfold Dev.post Dev.peak; split <;> rfl
@[simp] theorem Dev.post_unlocked (d : Dev) (c : Compl) : (d.post c).unlocked = d.unlocked := by unfold Dev.post Dev.peak; split <;> rfl
@[simp] theorem Dev.post_switched (d : Dev) (c : Compl) : (d.post c).switched = d.switched := by unfold Dev.post Dev.peak; split <;> rfl
@[simp] theorem Dev.post_busy (d : Dev) (c : Compl) : (d.post c).busy = d.busy := by unfold Dev.post Dev.peak; split <;> rfl
@[simp] theorem Dev.post_execBeats (d : Dev) (c : Compl) : (d.post c).execBeats = d.execBeats := by unfold Dev.post Dev.peak; split <;> rfl
@[simp] theorem Dev.post_slotAt (d : Dev) (c : Compl) : (d.post c).slotAt = d.slotAt := by unfold Dev.post Dev.peak; split <;> rfl
@[simp] theorem Dev.post_draws (d : Dev) (c : Compl) : (d.post c).draws = d.draws := by unfold Dev.post Dev.peak; split <;> rfl
@[simp] theorem Dev.post_out (d : Dev) (c : Compl) : (d.post c).out = d.out := by unfold Dev.post Dev.peak; split <;> rfl
@[simp] theorem Dev.post_effs (d : Dev) (c : Compl) : (d.post c).effs = d.effs := by unfold Dev.post Dev.peak; split <;> rfl

@[simp] theorem Dev.answer_state (d : Dev) (x : Ctx) (r tag st : Nat) : (d.answer x r tag st).state = d.state := by unfold Dev.answer Dev.answerV; split <;> first | rfl | exact Dev.post_state _ _
@[simp] theorem Dev.answer_chg (d : Dev) (x : Ctx) (r tag st : Nat) : (d.answer x r tag st).chg = d.chg := by unfold Dev.answer Dev.answerV; split <;> first | rfl | exact Dev.post_chg _ _
@[simp] theorem Dev.answer_facets (d : Dev) (x : Ctx) (r tag st : Nat) : (d.answer x r tag st).facets = d.facets := by unfold Dev.answer Dev.answerV; split <;> first | rfl | exact Dev.post_facets _ _
@[simp] theorem Dev.answer_canopy (d : Dev) (x : Ctx) (r tag st : Nat) : (d.answer x r tag st).canopy = d.canopy := by unfold Dev.answer Dev.answerV; split <;> first | rfl | exact Dev.post_canopy _ _
@[simp] theorem Dev.answer_scans (d : Dev) (x : Ctx) (r tag st : Nat) : (d.answer x r tag st).scans = d.scans := by unfold Dev.answer Dev.answerV; split <;> first | rfl | exact Dev.post_scans _ _
@[simp] theorem Dev.answer_resume (d : Dev) (x : Ctx) (r tag st : Nat) : (d.answer x r tag st).resume = d.resume := by unfold Dev.answer Dev.answerV; split <;> first | rfl | exact Dev.post_resume _ _
@[simp] theorem Dev.answer_scanned (d : Dev) (x : Ctx) (r tag st : Nat) : (d.answer x r tag st).scanned = d.scanned := by unfold Dev.answer Dev.answerV; split <;> first | rfl | exact Dev.post_scanned _ _
@[simp] theorem Dev.answer_sync (d : Dev) (x : Ctx) (r tag st : Nat) : (d.answer x r tag st).sync = d.sync := by unfold Dev.answer Dev.answerV; split <;> first | rfl | exact Dev.post_sync _ _
@[simp] theorem Dev.answer_engines (d : Dev) (x : Ctx) (r tag st : Nat) : (d.answer x r tag st).engines = d.engines := by unfold Dev.answer Dev.answerV; split <;> first | rfl | exact Dev.post_engines _ _
@[simp] theorem Dev.answer_stepser (d : Dev) (x : Ctx) (r tag st : Nat) : (d.answer x r tag st).stepser = d.stepser := by unfold Dev.answer Dev.answerV; split <;> first | rfl | exact Dev.post_stepser _ _
@[simp] theorem Dev.answer_board (d : Dev) (x : Ctx) (r tag st : Nat) : (d.answer x r tag st).board = d.board := by unfold Dev.answer Dev.answerV; split <;> first | rfl | exact Dev.post_board _ _
@[simp] theorem Dev.answer_boardTag (d : Dev) (x : Ctx) (r tag st : Nat) : (d.answer x r tag st).boardTag = d.boardTag := by unfold Dev.answer Dev.answerV; split <;> first | rfl | exact Dev.post_boardTag _ _
@[simp] theorem Dev.answer_spill (d : Dev) (x : Ctx) (r tag st : Nat) : (d.answer x r tag st).spill = d.spill := by unfold Dev.answer Dev.answerV; split <;> first | rfl | exact Dev.post_spill _ _
@[simp] theorem Dev.answer_jobs (d : Dev) (x : Ctx) (r tag st : Nat) : (d.answer x r tag st).jobs = d.jobs := by unfold Dev.answer Dev.answerV; split <;> first | rfl | exact Dev.post_jobs _ _
@[simp] theorem Dev.answer_images (d : Dev) (x : Ctx) (r tag st : Nat) : (d.answer x r tag st).images = d.images := by unfold Dev.answer Dev.answerV; split <;> first | rfl | exact Dev.post_images _ _
@[simp] theorem Dev.answer_catalogs (d : Dev) (x : Ctx) (r tag st : Nat) : (d.answer x r tag st).catalogs = d.catalogs := by unfold Dev.answer Dev.answerV; split <;> first | rfl | exact Dev.post_catalogs _ _
@[simp] theorem Dev.answer_reqs (d : Dev) (x : Ctx) (r tag st : Nat) : (d.answer x r tag st).reqs = d.reqs := by unfold Dev.answer Dev.answerV; split <;> first | rfl | exact Dev.post_reqs _ _
@[simp] theorem Dev.answer_digests (d : Dev) (x : Ctx) (r tag st : Nat) : (d.answer x r tag st).digests = d.digests := by unfold Dev.answer Dev.answerV; split <;> first | rfl | exact Dev.post_digests _ _
@[simp] theorem Dev.answer_schanges (d : Dev) (x : Ctx) (r tag st : Nat) : (d.answer x r tag st).schanges = d.schanges := by unfold Dev.answer Dev.answerV; split <;> first | rfl | exact Dev.post_schanges _ _
@[simp] theorem Dev.answer_stepDue (d : Dev) (x : Ctx) (r tag st : Nat) : (d.answer x r tag st).stepDue = d.stepDue := by unfold Dev.answer Dev.answerV; split <;> first | rfl | exact Dev.post_stepDue _ _
@[simp] theorem Dev.answer_bWaiting (d : Dev) (x : Ctx) (r tag st : Nat) : (d.answer x r tag st).bWaiting = d.bWaiting := by unfold Dev.answer Dev.answerV; split <;> first | rfl | exact Dev.post_bWaiting _ _
@[simp] theorem Dev.answer_ports (d : Dev) (x : Ctx) (r tag st : Nat) : (d.answer x r tag st).ports = d.ports := by unfold Dev.answer Dev.answerV; split <;> first | rfl | exact Dev.post_ports _ _
@[simp] theorem Dev.answer_legs (d : Dev) (x : Ctx) (r tag st : Nat) : (d.answer x r tag st).legs = d.legs := by unfold Dev.answer Dev.answerV; split <;> first | rfl | exact Dev.post_legs _ _
@[simp] theorem Dev.answer_routes (d : Dev) (x : Ctx) (r tag st : Nat) : (d.answer x r tag st).routes = d.routes := by unfold Dev.answer Dev.answerV; split <;> first | rfl | exact Dev.post_routes _ _
@[simp] theorem Dev.answer_passRecs (d : Dev) (x : Ctx) (r tag st : Nat) : (d.answer x r tag st).passRecs = d.passRecs := by unfold Dev.answer Dev.answerV; split <;> first | rfl | exact Dev.post_passRecs _ _
@[simp] theorem Dev.answer_gwCredits (d : Dev) (x : Ctx) (r tag st : Nat) : (d.answer x r tag st).gwCredits = d.gwCredits := by unfold Dev.answer Dev.answerV; split <;> first | rfl | exact Dev.post_gwCredits _ _
@[simp] theorem Dev.answer_groups (d : Dev) (x : Ctx) (r tag st : Nat) : (d.answer x r tag st).groups = d.groups := by unfold Dev.answer Dev.answerV; split <;> first | rfl | exact Dev.post_groups _ _
@[simp] theorem Dev.answer_finished (d : Dev) (x : Ctx) (r tag st : Nat) : (d.answer x r tag st).finished = d.finished := by unfold Dev.answer Dev.answerV; split <;> first | rfl | exact Dev.post_finished _ _
@[simp] theorem Dev.answer_heldReplies (d : Dev) (x : Ctx) (r tag st : Nat) : (d.answer x r tag st).heldReplies = d.heldReplies := by unfold Dev.answer Dev.answerV; split <;> first | rfl | exact Dev.post_heldReplies _ _
@[simp] theorem Dev.answer_nextGroup (d : Dev) (x : Ctx) (r tag st : Nat) : (d.answer x r tag st).nextGroup = d.nextGroup := by unfold Dev.answer Dev.answerV; split <;> first | rfl | exact Dev.post_nextGroup _ _
@[simp] theorem Dev.answer_nextOrder (d : Dev) (x : Ctx) (r tag st : Nat) : (d.answer x r tag st).nextOrder = d.nextOrder := by unfold Dev.answer Dev.answerV; split <;> first | rfl | exact Dev.post_nextOrder _ _
@[simp] theorem Dev.answer_sessions (d : Dev) (x : Ctx) (r tag st : Nat) : (d.answer x r tag st).sessions = d.sessions := by unfold Dev.answer Dev.answerV; split <;> first | rfl | exact Dev.post_sessions _ _
@[simp] theorem Dev.answer_nonces (d : Dev) (x : Ctx) (r tag st : Nat) : (d.answer x r tag st).nonces = d.nonces := by unfold Dev.answer Dev.answerV; split <;> first | rfl | exact Dev.post_nonces _ _
@[simp] theorem Dev.answer_mgr (d : Dev) (x : Ctx) (r tag st : Nat) : (d.answer x r tag st).mgr = d.mgr := by unfold Dev.answer Dev.answerV; split <;> first | rfl | exact Dev.post_mgr _ _
@[simp] theorem Dev.answer_mgrRound (d : Dev) (x : Ctx) (r tag st : Nat) : (d.answer x r tag st).mgrRound = d.mgrRound := by unfold Dev.answer Dev.answerV; split <;> first | rfl | exact Dev.post_mgrRound _ _
@[simp] theorem Dev.answer_mgrBase (d : Dev) (x : Ctx) (r tag st : Nat) : (d.answer x r tag st).mgrBase = d.mgrBase := by unfold Dev.answer Dev.answerV; split <;> first | rfl | exact Dev.post_mgrBase _ _
@[simp] theorem Dev.answer_authFails (d : Dev) (x : Ctx) (r tag st : Nat) : (d.answer x r tag st).authFails = d.authFails := by unfold Dev.answer Dev.answerV; split <;> first | rfl | exact Dev.post_authFails _ _
@[simp] theorem Dev.answer_authRound (d : Dev) (x : Ctx) (r tag st : Nat) : (d.answer x r tag st).authRound = d.authRound := by unfold Dev.answer Dev.answerV; split <;> first | rfl | exact Dev.post_authRound _ _
@[simp] theorem Dev.answer_notified (d : Dev) (x : Ctx) (r tag st : Nat) : (d.answer x r tag st).notified = d.notified := by unfold Dev.answer Dev.answerV; split <;> first | rfl | exact Dev.post_notified _ _
@[simp] theorem Dev.answer_notifyDue (d : Dev) (x : Ctx) (r tag st : Nat) : (d.answer x r tag st).notifyDue = d.notifyDue := by unfold Dev.answer Dev.answerV; split <;> first | rfl | exact Dev.post_notifyDue _ _
@[simp] theorem Dev.answer_alerts (d : Dev) (x : Ctx) (r tag st : Nat) : (d.answer x r tag st).alerts = d.alerts := by unfold Dev.answer Dev.answerV; split <;> first | rfl | exact Dev.post_alerts _ _
@[simp] theorem Dev.answer_portState (d : Dev) (x : Ctx) (r tag st : Nat) : (d.answer x r tag st).portState = d.portState := by unfold Dev.answer Dev.answerV; split <;> first | rfl | exact Dev.post_portState _ _
@[simp] theorem Dev.answer_permits (d : Dev) (x : Ctx) (r tag st : Nat) : (d.answer x r tag st).permits = d.permits := by unfold Dev.answer Dev.answerV; split <;> first | rfl | exact Dev.post_permits _ _
@[simp] theorem Dev.answer_nextPermit (d : Dev) (x : Ctx) (r tag st : Nat) : (d.answer x r tag st).nextPermit = d.nextPermit := by unfold Dev.answer Dev.answerV; split <;> first | rfl | exact Dev.post_nextPermit _ _
@[simp] theorem Dev.answer_comps (d : Dev) (x : Ctx) (r tag st : Nat) : (d.answer x r tag st).comps = d.comps := by unfold Dev.answer Dev.answerV; split <;> first | rfl | exact Dev.post_comps _ _
@[simp] theorem Dev.answer_keys (d : Dev) (x : Ctx) (r tag st : Nat) : (d.answer x r tag st).keys = d.keys := by unfold Dev.answer Dev.answerV; split <;> first | rfl | exact Dev.post_keys _ _
@[simp] theorem Dev.answer_ballast (d : Dev) (x : Ctx) (r tag st : Nat) : (d.answer x r tag st).ballast = d.ballast := by unfold Dev.answer Dev.answerV; split <;> first | rfl | exact Dev.post_ballast _ _
@[simp] theorem Dev.answer_journal (d : Dev) (x : Ctx) (r tag st : Nat) : (d.answer x r tag st).journal = d.journal := by unfold Dev.answer Dev.answerV; split <;> first | rfl | exact Dev.post_journal _ _
@[simp] theorem Dev.answer_boot (d : Dev) (x : Ctx) (r tag st : Nat) : (d.answer x r tag st).boot = d.boot := by unfold Dev.answer Dev.answerV; split <;> first | rfl | exact Dev.post_boot _ _
@[simp] theorem Dev.answer_gust (d : Dev) (x : Ctx) (r tag st : Nat) : (d.answer x r tag st).gust = d.gust := by unfold Dev.answer Dev.answerV; split <;> first | rfl | exact Dev.post_gust _ _
@[simp] theorem Dev.answer_samp (d : Dev) (x : Ctx) (r tag st : Nat) : (d.answer x r tag st).samp = d.samp := by unfold Dev.answer Dev.answerV; split <;> first | rfl | exact Dev.post_samp _ _
@[simp] theorem Dev.answer_dirtySet (d : Dev) (x : Ctx) (r tag st : Nat) : (d.answer x r tag st).dirtySet = d.dirtySet := by unfold Dev.answer Dev.answerV; split <;> first | rfl | exact Dev.post_dirtySet _ _
@[simp] theorem Dev.answer_unprot (d : Dev) (x : Ctx) (r tag st : Nat) : (d.answer x r tag st).unprot = d.unprot := by unfold Dev.answer Dev.answerV; split <;> first | rfl | exact Dev.post_unprot _ _
@[simp] theorem Dev.answer_outUnits (d : Dev) (x : Ctx) (r tag st : Nat) : (d.answer x r tag st).outUnits = d.outUnits := by unfold Dev.answer Dev.answerV; split <;> first | rfl | exact Dev.post_outUnits _ _
@[simp] theorem Dev.answer_sweep (d : Dev) (x : Ctx) (r tag st : Nat) : (d.answer x r tag st).sweep = d.sweep := by unfold Dev.answer Dev.answerV; split <;> first | rfl | exact Dev.post_sweep _ _
@[simp] theorem Dev.answer_tap (d : Dev) (x : Ctx) (r tag st : Nat) : (d.answer x r tag st).tap = d.tap := by unfold Dev.answer Dev.answerV; split <;> first | rfl | exact Dev.post_tap _ _
@[simp] theorem Dev.answer_unlocked (d : Dev) (x : Ctx) (r tag st : Nat) : (d.answer x r tag st).unlocked = d.unlocked := by unfold Dev.answer Dev.answerV; split <;> first | rfl | exact Dev.post_unlocked _ _
@[simp] theorem Dev.answer_switched (d : Dev) (x : Ctx) (r tag st : Nat) : (d.answer x r tag st).switched = d.switched := by unfold Dev.answer Dev.answerV; split <;> first | rfl | exact Dev.post_switched _ _
@[simp] theorem Dev.answer_busy (d : Dev) (x : Ctx) (r tag st : Nat) : (d.answer x r tag st).busy = d.busy := by unfold Dev.answer Dev.answerV; split <;> first | rfl | exact Dev.post_busy _ _
@[simp] theorem Dev.answer_execBeats (d : Dev) (x : Ctx) (r tag st : Nat) : (d.answer x r tag st).execBeats = d.execBeats := by unfold Dev.answer Dev.answerV; split <;> first | rfl | exact Dev.post_execBeats _ _
@[simp] theorem Dev.answer_slotAt (d : Dev) (x : Ctx) (r tag st : Nat) : (d.answer x r tag st).slotAt = d.slotAt := by unfold Dev.answer Dev.answerV; split <;> first | rfl | exact Dev.post_slotAt _ _
@[simp] theorem Dev.answer_draws (d : Dev) (x : Ctx) (r tag st : Nat) : (d.answer x r tag st).draws = d.draws := by unfold Dev.answer Dev.answerV; split <;> first | rfl | exact Dev.post_draws _ _
@[simp] theorem Dev.answer_out (d : Dev) (x : Ctx) (r tag st : Nat) : (d.answer x r tag st).out = d.out := by unfold Dev.answer Dev.answerV; split <;> first | rfl | exact Dev.post_out _ _
@[simp] theorem Dev.answer_effs (d : Dev) (x : Ctx) (r tag st : Nat) : (d.answer x r tag st).effs = d.effs := by unfold Dev.answer Dev.answerV; split <;> first | rfl | exact Dev.post_effs _ _

@[simp] theorem Dev.adjCmd_state (d : Dev) (r tag : Nat) (f : Cmd → Cmd) : (d.adjCmd r tag f).state = d.state := rfl
@[simp] theorem Dev.adjCmd_objs (d : Dev) (r tag : Nat) (f : Cmd → Cmd) : (d.adjCmd r tag f).objs = d.objs := rfl
@[simp] theorem Dev.adjCmd_chg (d : Dev) (r tag : Nat) (f : Cmd → Cmd) : (d.adjCmd r tag f).chg = d.chg := rfl
@[simp] theorem Dev.adjCmd_facets (d : Dev) (r tag : Nat) (f : Cmd → Cmd) : (d.adjCmd r tag f).facets = d.facets := rfl
@[simp] theorem Dev.adjCmd_canopy (d : Dev) (r tag : Nat) (f : Cmd → Cmd) : (d.adjCmd r tag f).canopy = d.canopy := rfl
@[simp] theorem Dev.adjCmd_scans (d : Dev) (r tag : Nat) (f : Cmd → Cmd) : (d.adjCmd r tag f).scans = d.scans := rfl
@[simp] theorem Dev.adjCmd_resume (d : Dev) (r tag : Nat) (f : Cmd → Cmd) : (d.adjCmd r tag f).resume = d.resume := rfl
@[simp] theorem Dev.adjCmd_scanned (d : Dev) (r tag : Nat) (f : Cmd → Cmd) : (d.adjCmd r tag f).scanned = d.scanned := rfl
@[simp] theorem Dev.adjCmd_sync (d : Dev) (r tag : Nat) (f : Cmd → Cmd) : (d.adjCmd r tag f).sync = d.sync := rfl
@[simp] theorem Dev.adjCmd_engines (d : Dev) (r tag : Nat) (f : Cmd → Cmd) : (d.adjCmd r tag f).engines = d.engines := rfl
@[simp] theorem Dev.adjCmd_stepser (d : Dev) (r tag : Nat) (f : Cmd → Cmd) : (d.adjCmd r tag f).stepser = d.stepser := rfl
@[simp] theorem Dev.adjCmd_board (d : Dev) (r tag : Nat) (f : Cmd → Cmd) : (d.adjCmd r tag f).board = d.board := rfl
@[simp] theorem Dev.adjCmd_boardTag (d : Dev) (r tag : Nat) (f : Cmd → Cmd) : (d.adjCmd r tag f).boardTag = d.boardTag := rfl
@[simp] theorem Dev.adjCmd_spill (d : Dev) (r tag : Nat) (f : Cmd → Cmd) : (d.adjCmd r tag f).spill = d.spill := rfl
@[simp] theorem Dev.adjCmd_jobs (d : Dev) (r tag : Nat) (f : Cmd → Cmd) : (d.adjCmd r tag f).jobs = d.jobs := rfl
@[simp] theorem Dev.adjCmd_images (d : Dev) (r tag : Nat) (f : Cmd → Cmd) : (d.adjCmd r tag f).images = d.images := rfl
@[simp] theorem Dev.adjCmd_catalogs (d : Dev) (r tag : Nat) (f : Cmd → Cmd) : (d.adjCmd r tag f).catalogs = d.catalogs := rfl
@[simp] theorem Dev.adjCmd_reqs (d : Dev) (r tag : Nat) (f : Cmd → Cmd) : (d.adjCmd r tag f).reqs = d.reqs := rfl
@[simp] theorem Dev.adjCmd_digests (d : Dev) (r tag : Nat) (f : Cmd → Cmd) : (d.adjCmd r tag f).digests = d.digests := rfl
@[simp] theorem Dev.adjCmd_schanges (d : Dev) (r tag : Nat) (f : Cmd → Cmd) : (d.adjCmd r tag f).schanges = d.schanges := rfl
@[simp] theorem Dev.adjCmd_stepDue (d : Dev) (r tag : Nat) (f : Cmd → Cmd) : (d.adjCmd r tag f).stepDue = d.stepDue := rfl
@[simp] theorem Dev.adjCmd_bWaiting (d : Dev) (r tag : Nat) (f : Cmd → Cmd) : (d.adjCmd r tag f).bWaiting = d.bWaiting := rfl
@[simp] theorem Dev.adjCmd_ports (d : Dev) (r tag : Nat) (f : Cmd → Cmd) : (d.adjCmd r tag f).ports = d.ports := rfl
@[simp] theorem Dev.adjCmd_legs (d : Dev) (r tag : Nat) (f : Cmd → Cmd) : (d.adjCmd r tag f).legs = d.legs := rfl
@[simp] theorem Dev.adjCmd_routes (d : Dev) (r tag : Nat) (f : Cmd → Cmd) : (d.adjCmd r tag f).routes = d.routes := rfl
@[simp] theorem Dev.adjCmd_passRecs (d : Dev) (r tag : Nat) (f : Cmd → Cmd) : (d.adjCmd r tag f).passRecs = d.passRecs := rfl
@[simp] theorem Dev.adjCmd_gwCredits (d : Dev) (r tag : Nat) (f : Cmd → Cmd) : (d.adjCmd r tag f).gwCredits = d.gwCredits := rfl
@[simp] theorem Dev.adjCmd_groups (d : Dev) (r tag : Nat) (f : Cmd → Cmd) : (d.adjCmd r tag f).groups = d.groups := rfl
@[simp] theorem Dev.adjCmd_finished (d : Dev) (r tag : Nat) (f : Cmd → Cmd) : (d.adjCmd r tag f).finished = d.finished := rfl
@[simp] theorem Dev.adjCmd_heldReplies (d : Dev) (r tag : Nat) (f : Cmd → Cmd) : (d.adjCmd r tag f).heldReplies = d.heldReplies := rfl
@[simp] theorem Dev.adjCmd_nextGroup (d : Dev) (r tag : Nat) (f : Cmd → Cmd) : (d.adjCmd r tag f).nextGroup = d.nextGroup := rfl
@[simp] theorem Dev.adjCmd_nextOrder (d : Dev) (r tag : Nat) (f : Cmd → Cmd) : (d.adjCmd r tag f).nextOrder = d.nextOrder := rfl
@[simp] theorem Dev.adjCmd_sessions (d : Dev) (r tag : Nat) (f : Cmd → Cmd) : (d.adjCmd r tag f).sessions = d.sessions := rfl
@[simp] theorem Dev.adjCmd_nonces (d : Dev) (r tag : Nat) (f : Cmd → Cmd) : (d.adjCmd r tag f).nonces = d.nonces := rfl
@[simp] theorem Dev.adjCmd_mgr (d : Dev) (r tag : Nat) (f : Cmd → Cmd) : (d.adjCmd r tag f).mgr = d.mgr := rfl
@[simp] theorem Dev.adjCmd_mgrRound (d : Dev) (r tag : Nat) (f : Cmd → Cmd) : (d.adjCmd r tag f).mgrRound = d.mgrRound := rfl
@[simp] theorem Dev.adjCmd_mgrBase (d : Dev) (r tag : Nat) (f : Cmd → Cmd) : (d.adjCmd r tag f).mgrBase = d.mgrBase := rfl
@[simp] theorem Dev.adjCmd_authFails (d : Dev) (r tag : Nat) (f : Cmd → Cmd) : (d.adjCmd r tag f).authFails = d.authFails := rfl
@[simp] theorem Dev.adjCmd_authRound (d : Dev) (r tag : Nat) (f : Cmd → Cmd) : (d.adjCmd r tag f).authRound = d.authRound := rfl
@[simp] theorem Dev.adjCmd_notified (d : Dev) (r tag : Nat) (f : Cmd → Cmd) : (d.adjCmd r tag f).notified = d.notified := rfl
@[simp] theorem Dev.adjCmd_notifyDue (d : Dev) (r tag : Nat) (f : Cmd → Cmd) : (d.adjCmd r tag f).notifyDue = d.notifyDue := rfl
@[simp] theorem Dev.adjCmd_alerts (d : Dev) (r tag : Nat) (f : Cmd → Cmd) : (d.adjCmd r tag f).alerts = d.alerts := rfl
@[simp] theorem Dev.adjCmd_portState (d : Dev) (r tag : Nat) (f : Cmd → Cmd) : (d.adjCmd r tag f).portState = d.portState := rfl
@[simp] theorem Dev.adjCmd_permits (d : Dev) (r tag : Nat) (f : Cmd → Cmd) : (d.adjCmd r tag f).permits = d.permits := rfl
@[simp] theorem Dev.adjCmd_nextPermit (d : Dev) (r tag : Nat) (f : Cmd → Cmd) : (d.adjCmd r tag f).nextPermit = d.nextPermit := rfl
@[simp] theorem Dev.adjCmd_comps (d : Dev) (r tag : Nat) (f : Cmd → Cmd) : (d.adjCmd r tag f).comps = d.comps := rfl
@[simp] theorem Dev.adjCmd_keys (d : Dev) (r tag : Nat) (f : Cmd → Cmd) : (d.adjCmd r tag f).keys = d.keys := rfl
@[simp] theorem Dev.adjCmd_ballast (d : Dev) (r tag : Nat) (f : Cmd → Cmd) : (d.adjCmd r tag f).ballast = d.ballast := rfl
@[simp] theorem Dev.adjCmd_journal (d : Dev) (r tag : Nat) (f : Cmd → Cmd) : (d.adjCmd r tag f).journal = d.journal := rfl
@[simp] theorem Dev.adjCmd_boot (d : Dev) (r tag : Nat) (f : Cmd → Cmd) : (d.adjCmd r tag f).boot = d.boot := rfl
@[simp] theorem Dev.adjCmd_gust (d : Dev) (r tag : Nat) (f : Cmd → Cmd) : (d.adjCmd r tag f).gust = d.gust := rfl
@[simp] theorem Dev.adjCmd_samp (d : Dev) (r tag : Nat) (f : Cmd → Cmd) : (d.adjCmd r tag f).samp = d.samp := rfl
@[simp] theorem Dev.adjCmd_dirtySet (d : Dev) (r tag : Nat) (f : Cmd → Cmd) : (d.adjCmd r tag f).dirtySet = d.dirtySet := rfl
@[simp] theorem Dev.adjCmd_unprot (d : Dev) (r tag : Nat) (f : Cmd → Cmd) : (d.adjCmd r tag f).unprot = d.unprot := rfl
@[simp] theorem Dev.adjCmd_outUnits (d : Dev) (r tag : Nat) (f : Cmd → Cmd) : (d.adjCmd r tag f).outUnits = d.outUnits := rfl
@[simp] theorem Dev.adjCmd_sweep (d : Dev) (r tag : Nat) (f : Cmd → Cmd) : (d.adjCmd r tag f).sweep = d.sweep := rfl
@[simp] theorem Dev.adjCmd_tap (d : Dev) (r tag : Nat) (f : Cmd → Cmd) : (d.adjCmd r tag f).tap = d.tap := rfl
@[simp] theorem Dev.adjCmd_unlocked (d : Dev) (r tag : Nat) (f : Cmd → Cmd) : (d.adjCmd r tag f).unlocked = d.unlocked := rfl
@[simp] theorem Dev.adjCmd_switched (d : Dev) (r tag : Nat) (f : Cmd → Cmd) : (d.adjCmd r tag f).switched = d.switched := rfl
@[simp] theorem Dev.adjCmd_busy (d : Dev) (r tag : Nat) (f : Cmd → Cmd) : (d.adjCmd r tag f).busy = d.busy := rfl
@[simp] theorem Dev.adjCmd_execBeats (d : Dev) (r tag : Nat) (f : Cmd → Cmd) : (d.adjCmd r tag f).execBeats = d.execBeats := rfl
@[simp] theorem Dev.adjCmd_slotAt (d : Dev) (r tag : Nat) (f : Cmd → Cmd) : (d.adjCmd r tag f).slotAt = d.slotAt := rfl
@[simp] theorem Dev.adjCmd_draws (d : Dev) (r tag : Nat) (f : Cmd → Cmd) : (d.adjCmd r tag f).draws = d.draws := rfl
@[simp] theorem Dev.adjCmd_out (d : Dev) (r tag : Nat) (f : Cmd → Cmd) : (d.adjCmd r tag f).out = d.out := rfl
@[simp] theorem Dev.adjCmd_effs (d : Dev) (r tag : Nat) (f : Cmd → Cmd) : (d.adjCmd r tag f).effs = d.effs := rfl

@[simp] theorem Dev.facet_setFacet_same (d : Dev) (n : Nat) (v : Facet) : (d.setFacet n v).facet n = v := by
  simp [Dev.facet, Dev.setFacet]

@[simp] theorem Dev.facet_setFacet_ne (d : Dev) {n k : Nat} (v : Facet) (h : k ≠ n) : (d.setFacet n v).facet k = d.facet k := by
  simp [Dev.facet, Dev.setFacet, h]

@[simp] theorem Dev.facet_eff (d : Dev) (e : Eff) (ix : Nat) : (d.eff e).facet ix = d.facet ix := rfl
@[simp] theorem Dev.facet_memOp (d : Dev) (op : MemOp) (ix : Nat) : (d.memOp op).facet ix = d.facet ix := rfl
@[simp] theorem Dev.facet_emit (d : Dev) (o : Out) (ix : Nat) : (d.emit o).facet ix = d.facet ix := rfl
@[simp] theorem Dev.facet_setObj (d : Dev) (i s : Nat) (v : Val) (ix : Nat) : (d.setObj i s v).facet ix = d.facet ix := rfl
@[simp] theorem Dev.facet_setNum (d : Dev) (i s n : Nat) (ix : Nat) : (d.setNum i s n).facet ix = d.facet ix := rfl
@[simp] theorem Dev.facet_count (d : Dev) (i s n : Nat) (ix : Nat) : (d.count i s n).facet ix = d.facet ix := rfl
@[simp] theorem Dev.facet_setCanopy (d : Dev) (c : Nat) (k : Canopy) (ix : Nat) : (d.setCanopy c k).facet ix = d.facet ix := rfl
@[simp] theorem Dev.facet_setEngine (d : Dev) (e : Nat) (g : Engine) (ix : Nat) : (d.setEngine e g).facet ix = d.facet ix := rfl
@[simp] theorem Dev.facet_setPort (d : Dev) (p : Nat) (q : Port) (ix : Nat) : (d.setPort p q).facet ix = d.facet ix := rfl
@[simp] theorem Dev.facet_setComp (d : Dev) (c : Nat) (k : Comp) (ix : Nat) : (d.setComp c k).facet ix = d.facet ix := rfl
@[simp] theorem Dev.facet_setCatalog (d : Dev) (c : Nat) (k : Catalog) (ix : Nat) : (d.setCatalog c k).facet ix = d.facet ix := rfl
@[simp] theorem Dev.facet_setJob (d : Dev) (j : Nat) (b : Job) (ix : Nat) : (d.setJob j b).facet ix = d.facet ix := rfl
@[simp] theorem Dev.facet_addSync (d : Dev) (k n : Nat) (ix : Nat) : (d.addSync k n).facet ix = d.facet ix := rfl

@[simp] theorem Dev.canopyOf_setCanopy_same (d : Dev) (n : Nat) (v : Canopy) : (d.setCanopy n v).canopyOf n = v := by
  simp [Dev.canopyOf, Dev.setCanopy]

@[simp] theorem Dev.canopyOf_setCanopy_ne (d : Dev) {n k : Nat} (v : Canopy) (h : k ≠ n) : (d.setCanopy n v).canopyOf k = d.canopyOf k := by
  simp [Dev.canopyOf, Dev.setCanopy, h]

@[simp] theorem Dev.canopyOf_eff (d : Dev) (e : Eff) (ix : Nat) : (d.eff e).canopyOf ix = d.canopyOf ix := rfl
@[simp] theorem Dev.canopyOf_memOp (d : Dev) (op : MemOp) (ix : Nat) : (d.memOp op).canopyOf ix = d.canopyOf ix := rfl
@[simp] theorem Dev.canopyOf_emit (d : Dev) (o : Out) (ix : Nat) : (d.emit o).canopyOf ix = d.canopyOf ix := rfl
@[simp] theorem Dev.canopyOf_setObj (d : Dev) (i s : Nat) (v : Val) (ix : Nat) : (d.setObj i s v).canopyOf ix = d.canopyOf ix := rfl
@[simp] theorem Dev.canopyOf_setNum (d : Dev) (i s n : Nat) (ix : Nat) : (d.setNum i s n).canopyOf ix = d.canopyOf ix := rfl
@[simp] theorem Dev.canopyOf_count (d : Dev) (i s n : Nat) (ix : Nat) : (d.count i s n).canopyOf ix = d.canopyOf ix := rfl
@[simp] theorem Dev.canopyOf_setFacet (d : Dev) (n : Nat) (f : Facet) (ix : Nat) : (d.setFacet n f).canopyOf ix = d.canopyOf ix := rfl
@[simp] theorem Dev.canopyOf_setEngine (d : Dev) (e : Nat) (g : Engine) (ix : Nat) : (d.setEngine e g).canopyOf ix = d.canopyOf ix := rfl
@[simp] theorem Dev.canopyOf_setPort (d : Dev) (p : Nat) (q : Port) (ix : Nat) : (d.setPort p q).canopyOf ix = d.canopyOf ix := rfl
@[simp] theorem Dev.canopyOf_setComp (d : Dev) (c : Nat) (k : Comp) (ix : Nat) : (d.setComp c k).canopyOf ix = d.canopyOf ix := rfl
@[simp] theorem Dev.canopyOf_setCatalog (d : Dev) (c : Nat) (k : Catalog) (ix : Nat) : (d.setCatalog c k).canopyOf ix = d.canopyOf ix := rfl
@[simp] theorem Dev.canopyOf_setJob (d : Dev) (j : Nat) (b : Job) (ix : Nat) : (d.setJob j b).canopyOf ix = d.canopyOf ix := rfl
@[simp] theorem Dev.canopyOf_addSync (d : Dev) (k n : Nat) (ix : Nat) : (d.addSync k n).canopyOf ix = d.canopyOf ix := rfl

@[simp] theorem Dev.engine_setEngine_same (d : Dev) (n : Nat) (v : Engine) : (d.setEngine n v).engine n = v := by
  simp [Dev.engine, Dev.setEngine]

@[simp] theorem Dev.engine_setEngine_ne (d : Dev) {n k : Nat} (v : Engine) (h : k ≠ n) : (d.setEngine n v).engine k = d.engine k := by
  simp [Dev.engine, Dev.setEngine, h]

@[simp] theorem Dev.engine_eff (d : Dev) (e : Eff) (ix : Nat) : (d.eff e).engine ix = d.engine ix := rfl
@[simp] theorem Dev.engine_memOp (d : Dev) (op : MemOp) (ix : Nat) : (d.memOp op).engine ix = d.engine ix := rfl
@[simp] theorem Dev.engine_emit (d : Dev) (o : Out) (ix : Nat) : (d.emit o).engine ix = d.engine ix := rfl
@[simp] theorem Dev.engine_setObj (d : Dev) (i s : Nat) (v : Val) (ix : Nat) : (d.setObj i s v).engine ix = d.engine ix := rfl
@[simp] theorem Dev.engine_setNum (d : Dev) (i s n : Nat) (ix : Nat) : (d.setNum i s n).engine ix = d.engine ix := rfl
@[simp] theorem Dev.engine_count (d : Dev) (i s n : Nat) (ix : Nat) : (d.count i s n).engine ix = d.engine ix := rfl
@[simp] theorem Dev.engine_setFacet (d : Dev) (n : Nat) (f : Facet) (ix : Nat) : (d.setFacet n f).engine ix = d.engine ix := rfl
@[simp] theorem Dev.engine_setCanopy (d : Dev) (c : Nat) (k : Canopy) (ix : Nat) : (d.setCanopy c k).engine ix = d.engine ix := rfl
@[simp] theorem Dev.engine_setPort (d : Dev) (p : Nat) (q : Port) (ix : Nat) : (d.setPort p q).engine ix = d.engine ix := rfl
@[simp] theorem Dev.engine_setComp (d : Dev) (c : Nat) (k : Comp) (ix : Nat) : (d.setComp c k).engine ix = d.engine ix := rfl
@[simp] theorem Dev.engine_setCatalog (d : Dev) (c : Nat) (k : Catalog) (ix : Nat) : (d.setCatalog c k).engine ix = d.engine ix := rfl
@[simp] theorem Dev.engine_setJob (d : Dev) (j : Nat) (b : Job) (ix : Nat) : (d.setJob j b).engine ix = d.engine ix := rfl
@[simp] theorem Dev.engine_addSync (d : Dev) (k n : Nat) (ix : Nat) : (d.addSync k n).engine ix = d.engine ix := rfl

@[simp] theorem Dev.port_setPort_same (d : Dev) (n : Nat) (v : Port) : (d.setPort n v).port n = v := by
  simp [Dev.port, Dev.setPort]

@[simp] theorem Dev.port_setPort_ne (d : Dev) {n k : Nat} (v : Port) (h : k ≠ n) : (d.setPort n v).port k = d.port k := by
  simp [Dev.port, Dev.setPort, h]

@[simp] theorem Dev.port_eff (d : Dev) (e : Eff) (ix : Nat) : (d.eff e).port ix = d.port ix := rfl
@[simp] theorem Dev.port_memOp (d : Dev) (op : MemOp) (ix : Nat) : (d.memOp op).port ix = d.port ix := rfl
@[simp] theorem Dev.port_emit (d : Dev) (o : Out) (ix : Nat) : (d.emit o).port ix = d.port ix := rfl
@[simp] theorem Dev.port_setObj (d : Dev) (i s : Nat) (v : Val) (ix : Nat) : (d.setObj i s v).port ix = d.port ix := rfl
@[simp] theorem Dev.port_setNum (d : Dev) (i s n : Nat) (ix : Nat) : (d.setNum i s n).port ix = d.port ix := rfl
@[simp] theorem Dev.port_count (d : Dev) (i s n : Nat) (ix : Nat) : (d.count i s n).port ix = d.port ix := rfl
@[simp] theorem Dev.port_setFacet (d : Dev) (n : Nat) (f : Facet) (ix : Nat) : (d.setFacet n f).port ix = d.port ix := rfl
@[simp] theorem Dev.port_setCanopy (d : Dev) (c : Nat) (k : Canopy) (ix : Nat) : (d.setCanopy c k).port ix = d.port ix := rfl
@[simp] theorem Dev.port_setEngine (d : Dev) (e : Nat) (g : Engine) (ix : Nat) : (d.setEngine e g).port ix = d.port ix := rfl
@[simp] theorem Dev.port_setComp (d : Dev) (c : Nat) (k : Comp) (ix : Nat) : (d.setComp c k).port ix = d.port ix := rfl
@[simp] theorem Dev.port_setCatalog (d : Dev) (c : Nat) (k : Catalog) (ix : Nat) : (d.setCatalog c k).port ix = d.port ix := rfl
@[simp] theorem Dev.port_setJob (d : Dev) (j : Nat) (b : Job) (ix : Nat) : (d.setJob j b).port ix = d.port ix := rfl
@[simp] theorem Dev.port_addSync (d : Dev) (k n : Nat) (ix : Nat) : (d.addSync k n).port ix = d.port ix := rfl

@[simp] theorem Dev.comp_setComp_same (d : Dev) (n : Nat) (v : Comp) : (d.setComp n v).comp n = v := by
  simp [Dev.comp, Dev.setComp]

@[simp] theorem Dev.comp_setComp_ne (d : Dev) {n k : Nat} (v : Comp) (h : k ≠ n) : (d.setComp n v).comp k = d.comp k := by
  simp [Dev.comp, Dev.setComp, h]

@[simp] theorem Dev.comp_eff (d : Dev) (e : Eff) (ix : Nat) : (d.eff e).comp ix = d.comp ix := rfl
@[simp] theorem Dev.comp_memOp (d : Dev) (op : MemOp) (ix : Nat) : (d.memOp op).comp ix = d.comp ix := rfl
@[simp] theorem Dev.comp_emit (d : Dev) (o : Out) (ix : Nat) : (d.emit o).comp ix = d.comp ix := rfl
@[simp] theorem Dev.comp_setObj (d : Dev) (i s : Nat) (v : Val) (ix : Nat) : (d.setObj i s v).comp ix = d.comp ix := rfl
@[simp] theorem Dev.comp_setNum (d : Dev) (i s n : Nat) (ix : Nat) : (d.setNum i s n).comp ix = d.comp ix := rfl
@[simp] theorem Dev.comp_count (d : Dev) (i s n : Nat) (ix : Nat) : (d.count i s n).comp ix = d.comp ix := rfl
@[simp] theorem Dev.comp_setFacet (d : Dev) (n : Nat) (f : Facet) (ix : Nat) : (d.setFacet n f).comp ix = d.comp ix := rfl
@[simp] theorem Dev.comp_setCanopy (d : Dev) (c : Nat) (k : Canopy) (ix : Nat) : (d.setCanopy c k).comp ix = d.comp ix := rfl
@[simp] theorem Dev.comp_setEngine (d : Dev) (e : Nat) (g : Engine) (ix : Nat) : (d.setEngine e g).comp ix = d.comp ix := rfl
@[simp] theorem Dev.comp_setPort (d : Dev) (p : Nat) (q : Port) (ix : Nat) : (d.setPort p q).comp ix = d.comp ix := rfl
@[simp] theorem Dev.comp_setCatalog (d : Dev) (c : Nat) (k : Catalog) (ix : Nat) : (d.setCatalog c k).comp ix = d.comp ix := rfl
@[simp] theorem Dev.comp_setJob (d : Dev) (j : Nat) (b : Job) (ix : Nat) : (d.setJob j b).comp ix = d.comp ix := rfl
@[simp] theorem Dev.comp_addSync (d : Dev) (k n : Nat) (ix : Nat) : (d.addSync k n).comp ix = d.comp ix := rfl

@[simp] theorem Dev.catalog_setCatalog_same (d : Dev) (n : Nat) (v : Catalog) : (d.setCatalog n v).catalog n = v := by
  simp [Dev.catalog, Dev.setCatalog]

@[simp] theorem Dev.catalog_setCatalog_ne (d : Dev) {n k : Nat} (v : Catalog) (h : k ≠ n) : (d.setCatalog n v).catalog k = d.catalog k := by
  simp [Dev.catalog, Dev.setCatalog, h]

@[simp] theorem Dev.catalog_eff (d : Dev) (e : Eff) (ix : Nat) : (d.eff e).catalog ix = d.catalog ix := rfl
@[simp] theorem Dev.catalog_memOp (d : Dev) (op : MemOp) (ix : Nat) : (d.memOp op).catalog ix = d.catalog ix := rfl
@[simp] theorem Dev.catalog_emit (d : Dev) (o : Out) (ix : Nat) : (d.emit o).catalog ix = d.catalog ix := rfl
@[simp] theorem Dev.catalog_setObj (d : Dev) (i s : Nat) (v : Val) (ix : Nat) : (d.setObj i s v).catalog ix = d.catalog ix := rfl
@[simp] theorem Dev.catalog_setNum (d : Dev) (i s n : Nat) (ix : Nat) : (d.setNum i s n).catalog ix = d.catalog ix := rfl
@[simp] theorem Dev.catalog_count (d : Dev) (i s n : Nat) (ix : Nat) : (d.count i s n).catalog ix = d.catalog ix := rfl
@[simp] theorem Dev.catalog_setFacet (d : Dev) (n : Nat) (f : Facet) (ix : Nat) : (d.setFacet n f).catalog ix = d.catalog ix := rfl
@[simp] theorem Dev.catalog_setCanopy (d : Dev) (c : Nat) (k : Canopy) (ix : Nat) : (d.setCanopy c k).catalog ix = d.catalog ix := rfl
@[simp] theorem Dev.catalog_setEngine (d : Dev) (e : Nat) (g : Engine) (ix : Nat) : (d.setEngine e g).catalog ix = d.catalog ix := rfl
@[simp] theorem Dev.catalog_setPort (d : Dev) (p : Nat) (q : Port) (ix : Nat) : (d.setPort p q).catalog ix = d.catalog ix := rfl
@[simp] theorem Dev.catalog_setComp (d : Dev) (c : Nat) (k : Comp) (ix : Nat) : (d.setComp c k).catalog ix = d.catalog ix := rfl
@[simp] theorem Dev.catalog_setJob (d : Dev) (j : Nat) (b : Job) (ix : Nat) : (d.setJob j b).catalog ix = d.catalog ix := rfl
@[simp] theorem Dev.catalog_addSync (d : Dev) (k n : Nat) (ix : Nat) : (d.addSync k n).catalog ix = d.catalog ix := rfl

@[simp] theorem Dev.ring_setRing_same (d : Dev) (n : Nat) (v : Ring) : (d.setRing n v).ring n = v := by
  simp [Dev.ring, Dev.setRing]

@[simp] theorem Dev.ring_setRing_ne (d : Dev) {n k : Nat} (v : Ring) (h : k ≠ n) : (d.setRing n v).ring k = d.ring k := by
  simp [Dev.ring, Dev.setRing, h]

/-- A job written reads back, and the others are as before. -/
@[simp] theorem Dev.job_setJob_same (d : Dev) (n : Nat) (v : Job) : tget (d.setJob n v).jobs n = some v := by
  simp [Dev.setJob]

@[simp] theorem Dev.job_setJob_ne (d : Dev) {n k : Nat} (v : Job) (h : k ≠ n) : tget (d.setJob n v).jobs k = tget d.jobs k := by
  simp [Dev.setJob, h]

end Sys2Proof.Machine
end

