-- ==== Sys2Proof/Laws/Fabric.lean ====
section
/-!
SUPPORT. What each shared operation of the fabric, of the winch engines and of the round plans can change: everything else is as it was.
-/

namespace Sys2Proof.Machine

/-- A fold whose every step changes the ports alone changes the ports alone. -/
theorem foldl_ports {α : Type} (f : Dev → α → Dev) (h : ∀ d a, ∃ ps, f d a = { d with ports := ps }) (l : List α) (d : Dev) :
    ∃ ps, l.foldl f d = { d with ports := ps } := by
  induction l generalizing d with
  | nil => exact ⟨d.ports, rfl⟩
  | cons a l ih =>
    obtain ⟨ps, hp⟩ := h d a
    obtain ⟨qs, hq⟩ := ih (f d a)
    exact ⟨qs, by rw [List.foldl_cons, hq, hp]⟩

/-- A control message that waits changes the ports alone (R275). -/
theorem Dev.tellTree_ports (d : Dev) (tree : List TreeEntry) (own j kind : Nat) (words : List Nat) :
    ∃ ps, d.tellTree tree own j kind words = { d with ports := ps } :=
  foldl_ports _ (fun _ _ => ⟨_, rfl⟩) _ d

/-- A member's message changes the ports alone (R275). -/
theorem Dev.tell_ports (d : Dev) (j kind : Nat) (words : List Nat) : ∃ ps, d.tell j kind words = { d with ports := ps } := by
  unfold Dev.tell
  split
  · split
    · exact ⟨d.ports, rfl⟩
    · exact d.tellTree_ports ..
  · exact ⟨d.ports, rfl⟩

/-- A message that goes on changes the ports alone (R275). -/
theorem Dev.relay_ports (d : Dev) (j origin kind : Nat) (words : List Nat) : ∃ ps, d.relay j origin kind words = { d with ports := ps } := by
  unfold Dev.relay
  split
  · split
    · exact ⟨d.ports, rfl⟩
    · exact foldl_ports _ (fun _ _ => ⟨_, rfl⟩) _ d
  · exact ⟨d.ports, rfl⟩

/-- Credits that go up change the ports and the legs alone (R268, R277). -/
theorem Dev.creditUp_frame (d : Dev) (key p from_ n : Nat) : ∃ ps ls, d.creditUp key p from_ n = { d with ports := ps, legs := ls } := by
  unfold Dev.creditUp
  split
  · exact ⟨d.ports, d.legs, rfl⟩
  · split
    · exact ⟨_, d.legs, rfl⟩
    · simp only
      split
      · exact ⟨d.ports, _, rfl⟩
      · exact ⟨_, _, rfl⟩

/-- A board-space message that is taken changes the ports and the legs alone (R268, R282). -/
theorem Dev.takeFlits_frame (d : Dev) (op : Nat) (m : BoardMsg) : ∃ ps ls, d.takeFlits op m = { d with ports := ps, legs := ls } := by
  unfold Dev.takeFlits
  simp only
  split
  · exact ⟨d.ports, d.legs, rfl⟩
  · split
    · split
      · obtain ⟨ps, ls, h⟩ := Dev.creditUp_frame _ _ _ _ _
        exact ⟨ps, ls, h⟩
      · exact ⟨d.ports, _, rfl⟩
    · exact ⟨d.ports, _, rfl⟩

/-- A board-space message that leaves changes the legs and the outputs alone (R282). -/
theorem Dev.boardOut_frame (d : Dev) (key slot op : Nat) (m : BoardMsg) :
    ∃ ls, d.boardOut key slot op m = { d with legs := ls, out := d.out ++ [.board slot op m] } := ⟨_, rfl⟩

/-- An answer to a board-space request changes the legs and the outputs alone (R282). -/
theorem Dev.boardReply_frame (d : Dev) (j : Option Nat) (op status : Nat) (m : BoardMsg) (data : List Byte) :
    ∃ ls os, d.boardReply j op status m data = { d with legs := ls, out := os } := by
  unfold Dev.boardReply
  simp only
  split
  · exact ⟨_, _, rfl⟩
  · exact ⟨d.legs, _, rfl⟩

/-- A record that changes leaves every other engine alone (R162). -/
theorem Dev.adjRec_other (d : Dev) {e i : Nat} (n : Nat) (f : Rec → Rec) (h : i ≠ e) : tget (d.adjRec e n f).engines i = tget d.engines i :=
  tget_tset_ne _ _ h

/-- Bringing plans up to date changes the jobs alone (R226). -/
theorem Dev.settlePlans_frame (d : Dev) (j : Nat) : ∃ js, d.settlePlans j = { d with jobs := js } := ⟨_, rfl⟩

/-- ROUND_PLANs that go complete change the jobs, the completions and the objects that count them alone (R230). -/
theorem Dev.answerPlans_mem (d : Dev) (x : Ctx) (j status : Nat) : (d.answerPlans x j status).effs = d.effs ∧ (d.answerPlans x j status).ports = d.ports ∧
    (d.answerPlans x j status).facets = d.facets := by
  have h : ∀ (os : List Origin) (d : Dev), (os.foldl (fun d o => d.answerO x o status) d).effs = d.effs ∧
      (os.foldl (fun d o => d.answerO x o status) d).ports = d.ports ∧ (os.foldl (fun d o => d.answerO x o status) d).facets = d.facets := by
    intro os
    induction os with
    | nil => exact fun d => ⟨rfl, rfl, rfl⟩
    | cons o os ih => intro d; simpa [Dev.answerO] using ih (d.answerO x o status)
  unfold Dev.answerPlans
  split
  · exact ⟨rfl, rfl, rfl⟩
  · exact h _ _

end Sys2Proof.Machine
end

