-- ==== Sys2Proof/Laws/Mem.lean ====
section
/-!
SUPPORT. Laws of the memory operations: every one keeps the canonical form; a byte written is read, and every other byte reads as
before.
-/

namespace Sys2Proof.Machine

/-! ## The canonical form -/

/-- The parts of the canonical form. -/
theorem MemSys.wf_iff (m : MemSys) : m.wf = true ↔
    twf m.cells = true ∧ (∀ c ∈ m.cells, c.2 ≠ m.background c.1) ∧ rising m.live = true ∧ rising m.lines = true ∧
    rising m.granules = true ∧ twf m.flips = true ∧ twf m.scrubbed = true := by
  simp [MemSys.wf, List.all_eq_true, and_assoc]

/-- What an unlisted address reads as depends on the scrubbed units alone. -/
theorem MemSys.background_congr {m m' : MemSys} (h : m'.scrubbed = m.scrubbed) (a : Nat) : m'.background a = m.background a := by
  simp [MemSys.background, h]

/-- Outside the tiers an unlisted address reads as 0. -/
theorem MemSys.background_low (m : MemSys) {a : Nat} (h : a < workBase) : m.background a = 0 := by
  have hu : unitOf a = none := by
    have hr : regionOf a = .facet (a / 0x80000) ∨ regionOf a = .secure ∨ regionOf a = .hole ∨ regionOf a = .control := by
      unfold regionOf
      rw [if_pos h]
      by_cases h1 : a < facetTop
      · exact .inl (if_pos h1)
      · rw [if_neg h1]
        by_cases h2 : a < secureBase + 0x400000
        · exact .inr (.inl (if_pos h2))
        · rw [if_neg h2]
          by_cases h3 : a < controlBase
          · exact .inr (.inr (.inl (if_pos h3)))
          · rw [if_neg h3]
            by_cases h4 : a < controlBase + 0x40000000
            · exact .inr (.inr (.inr (if_pos h4)))
            · exact .inr (.inr (.inl (if_neg h4)))
    unfold unitOf
    rcases hr with hr | hr | hr | hr <;> rw [hr]
  simp [MemSys.background, hu]

/-- Where a list of cells loses some of its members and the scrubbed units stay, the form is kept. -/
theorem MemSys.wf_keep {m : MemSys} (h : m.wf = true) (p : Host.Cell → Bool) (live lines granules : List Nat) (b : Bool)
    (flips : Tab Nat) (h1 : rising live = true) (h2 : rising lines = true) (h3 : rising granules = true) (h4 : twf flips = true) :
    (MemSys.mk (m.cells.filter p) live lines b granules flips m.scrubbed).wf = true := by
  rw [MemSys.wf_iff] at h ⊢
  refine ⟨filter_wf p h.1, ?_, h1, h2, h3, h4, h.2.2.2.2.2.2⟩
  intro c hc
  exact h.2.1 c (List.mem_filter.mp hc).1

/-- Writing a byte keeps the form. -/
theorem MemSys.setByte_wf {m : MemSys} (h : m.wf = true) (a : Nat) (b : Byte) : (m.setByte a b).wf = true := by
  rw [MemSys.wf_iff] at h ⊢
  obtain ⟨h1, h2, h3, h4, h5, h6, h7⟩ := h
  unfold MemSys.setByte
  refine ⟨?_, ?_, h3, h4, h5, h6, h7⟩
  · dsimp only
    split
    · exact terase_wf a h1
    · exact tset_wf a b h1
  · dsimp only
    intro c hc
    split at hc
    · exact h2 c (mem_terase hc)
    · rename_i hb
      obtain rfl | hm := mem_tset hc
      · exact hb
      · exact h2 c hm

/-- Writing bytes keeps the form. -/
theorem MemSys.setBytes_wf {m : MemSys} (h : m.wf = true) (a : Nat) (bs : List Byte) : (m.setBytes a bs).wf = true := by
  induction bs generalizing m a with
  | nil => exact h
  | cons b bs ih => exact ih (MemSys.setByte_wf h a b) _

theorem foldl_sinsert_rising {l : List Nat} (h : rising l = true) (xs : List Nat) : rising (xs.foldl sinsert l) = true :=
  foldl_rising sinsert (fun _ a hl => sinsert_rising a hl) xs h

theorem foldl_serase_rising {l : List Nat} (h : rising l = true) (xs : List Nat) : rising (xs.foldl serase l) = true :=
  foldl_rising serase (fun _ a hl => serase_rising a hl) xs h

theorem foldl_terase_wf {α : Type} {t : Tab α} (h : twf t = true) (xs : List Nat) : twf (xs.foldl terase t) = true := by
  induction xs generalizing t with
  | nil => exact h
  | cons x xs ih => exact ih (terase_wf x h)

/-- Lists of marks may change: only their form counts. -/
theorem MemSys.wf_marks {m : MemSys} (h : m.wf = true) (live lines granules : List Nat) (b : Bool) (flips : Tab Nat)
    (h1 : rising live = true) (h2 : rising lines = true) (h3 : rising granules = true) (h4 : twf flips = true) :
    (MemSys.mk m.cells live lines b granules flips m.scrubbed).wf = true := by
  rw [MemSys.wf_iff] at h ⊢
  exact ⟨h.1, h.2.1, h1, h2, h3, h4, h.2.2.2.2.2.2⟩

theorem MemSys.markGranule_wf {m : MemSys} (h : m.wf = true) (g : Nat) (on : Bool) : (m.markGranule g on).wf = true := by
  have h' := (MemSys.wf_iff m).mp h
  unfold MemSys.markGranule
  refine MemSys.wf_marks h _ _ _ _ _ h'.2.2.1 h'.2.2.2.1 ?_ h'.2.2.2.2.2.1
  split
  · exact serase_rising g h'.2.2.2.2.1
  · exact sinsert_rising g h'.2.2.2.2.1

theorem MemSys.foldl_markGranule_wf {α : Type} {m : MemSys} (h : m.wf = true) (f : α → Nat) (on : Bool) (xs : List α) :
    (xs.foldl (fun m g => m.markGranule (f g) on) m).wf = true := by
  induction xs generalizing m with
  | nil => exact h
  | cons x xs ih => exact ih (MemSys.markGranule_wf h _ on)

theorem MemSys.freshWords_wf {m : MemSys} (h : m.wf = true) (a n : Nat) : (m.freshWords a n).wf = true := by
  have h' := (MemSys.wf_iff m).mp h
  unfold MemSys.freshWords
  refine MemSys.wf_marks h _ _ _ _ _ ?_ h'.2.2.2.1 h'.2.2.2.2.1 (foldl_terase_wf h'.2.2.2.2.2.1 _)
  split
  · exact foldl_sinsert_rising h'.2.2.1 _
  · exact h'.2.2.1

theorem MemSys.clearCovered_wf {m : MemSys} (h : m.wf = true) (a n : Nat) : (m.clearCovered a n).wf = true := by
  have h' := (MemSys.wf_iff m).mp h
  unfold MemSys.clearCovered
  split
  · exact MemSys.wf_marks h _ _ _ _ _ h'.2.2.1 (foldl_serase_rising h'.2.2.2.1 _) h'.2.2.2.2.1 h'.2.2.2.2.2.1
  · exact MemSys.foldl_markGranule_wf h id false _
  · exact h

theorem MemSys.markTouched_wf {m : MemSys} (h : m.wf = true) (a n : Nat) : (m.markTouched a n).wf = true := by
  have h' := (MemSys.wf_iff m).mp h
  unfold MemSys.markTouched
  split
  · exact MemSys.wf_marks h _ _ _ _ _ h'.2.2.1 (foldl_sinsert_rising h'.2.2.2.1 _) h'.2.2.2.2.1 h'.2.2.2.2.2.1
  · exact MemSys.foldl_markGranule_wf h id true _
  · exact h

theorem MemSys.write_wf {m : MemSys} (h : m.wf = true) (a : Nat) (bs : List Byte) : (m.write a bs).wf = true :=
  MemSys.clearCovered_wf (MemSys.freshWords_wf (MemSys.setBytes_wf h a bs) a _) a _

theorem MemSys.writeMarked_wf {m : MemSys} (h : m.wf = true) (a : Nat) (bs : List Byte) : (m.writeMarked a bs).wf = true :=
  MemSys.markTouched_wf (MemSys.freshWords_wf (MemSys.setBytes_wf h a bs) a _) a _

theorem MemSys.poisonFacet_wf {m : MemSys} (h : m.wf = true) (n : Nat) : (m.poisonFacet n).wf = true := by
  have h' := (MemSys.wf_iff m).mp h
  exact MemSys.wf_keep h _ _ _ _ _ _ (filter_rising _ h'.2.2.1) (filter_rising _ h'.2.2.2.1) h'.2.2.2.2.1
    (filter_wf _ h'.2.2.2.2.2.1)

theorem MemSys.poisonAll_wf {m : MemSys} (h : m.wf = true) : m.poisonAll.wf = true := by
  have h' := (MemSys.wf_iff m).mp h
  exact MemSys.wf_keep h _ _ _ _ _ _ rfl rfl h'.2.2.2.2.1 (filter_wf _ h'.2.2.2.2.2.1)

theorem MemSys.wipeSecure_wf {m : MemSys} (h : m.wf = true) : m.wipeSecure.wf = true := by
  have h' := (MemSys.wf_iff m).mp h
  exact MemSys.wf_keep h _ _ _ _ _ _ h'.2.2.1 h'.2.2.2.1 h'.2.2.2.2.1 h'.2.2.2.2.2.1

theorem MemSys.loseTiers_wf {m : MemSys} (h : m.wf = true) : m.loseTiers.wf = true := by
  have h' := (MemSys.wf_iff m).mp h
  rw [MemSys.wf_iff]
  refine ⟨filter_wf _ h'.1, ?_, h'.2.2.1, h'.2.2.2.1, rfl, filter_wf _ h'.2.2.2.2.2.1, rfl⟩
  intro c hc
  have hm := List.mem_filter.mp hc
  have hlt : c.1 < workBase := by simpa using hm.2
  rw [MemSys.background_low _ hlt]
  have := h'.2.1 c hm.1
  rwa [MemSys.background_low _ hlt] at this

theorem MemSys.markAllGranules_wf {m : MemSys} (h : m.wf = true) : m.markAllGranules.wf = true := by
  have h' := (MemSys.wf_iff m).mp h
  exact MemSys.wf_marks h _ _ _ _ _ h'.2.2.1 h'.2.2.2.1 rfl h'.2.2.2.2.2.1

/-- A scrub changes what unlisted addresses of its own unit read as, and no other. -/
theorem MemSys.background_scrubbed {m m' : MemSys} {u n : Nat} (hs : m'.scrubbed = tset m.scrubbed u n) {a : Nat}
    (h : unitOf a ≠ some u) : m'.background a = m.background a := by
  unfold MemSys.background
  cases hu : unitOf a with
  | none => rfl
  | some v =>
    have hv : v ≠ u := fun e => h (by rw [hu, e])
    simp only [hs]
    rw [tget_tset_ne _ _ hv]

theorem MemSys.scrub_wf {m : MemSys} (h : m.wf = true) (u n : Nat) : (m.scrub u n).wf = true := by
  have h' := (MemSys.wf_iff m).mp h
  have key : (MemSys.mk (m.cells.filter fun c => decide (unitOf c.1 ≠ some u)) m.live m.lines m.granBase m.granules
      (m.flips.filter fun f => decide (unitOf (8 * f.1) ≠ some u)) (tset m.scrubbed u n)).wf = true := by
    rw [MemSys.wf_iff]
    refine ⟨filter_wf _ h'.1, ?_, h'.2.2.1, h'.2.2.2.1, h'.2.2.2.2.1, filter_wf _ h'.2.2.2.2.2.1, tset_wf _ _ h'.2.2.2.2.2.2⟩
    intro c hc
    have hm := List.mem_filter.mp hc
    have hu : unitOf c.1 ≠ some u := by simpa using hm.2
    rw [MemSys.background_scrubbed (m := m) rfl hu]
    exact h'.2.1 c hm.1
  unfold MemSys.scrub
  dsimp only
  split
  · exact MemSys.foldl_markGranule_wf key _ false _
  · exact key

theorem MemSys.flip_wf {m : MemSys} (h : m.wf = true) (a k : Nat) : (m.flip a k).wf = true := by
  have h' := (MemSys.wf_iff m).mp h
  exact MemSys.wf_marks h _ _ _ _ _ h'.2.2.1 h'.2.2.2.1 h'.2.2.2.2.1 (tset_wf _ _ h'.2.2.2.2.2.1)

theorem MemSys.correct_wf {m : MemSys} (h : m.wf = true) (a : Nat) : (m.correct a).wf = true := by
  have h' := (MemSys.wf_iff m).mp h
  exact MemSys.wf_marks h _ _ _ _ _ h'.2.2.1 h'.2.2.2.1 h'.2.2.2.2.1 (terase_wf _ h'.2.2.2.2.2.1)

theorem MemSys.poisonWord_wf {m : MemSys} (h : m.wf = true) (w : Nat) : (m.poisonWord w).wf = true := by
  have h' := (MemSys.wf_iff m).mp h
  exact MemSys.wf_marks h _ _ _ _ _ (serase_rising _ h'.2.2.1) h'.2.2.2.1 h'.2.2.2.2.1 h'.2.2.2.2.2.1

/-- Every memory operation keeps the canonical form. -/
theorem MemSys.run_wf {m : MemSys} (h : m.wf = true) (op : MemOp) : (m.run op).wf = true := by
  cases op with
  | write a bs => exact MemSys.write_wf h a bs
  | writeMarked a bs => exact MemSys.writeMarked_wf h a bs
  | unmark a n => exact MemSys.clearCovered_wf h a n
  | poisonFacet n => exact MemSys.poisonFacet_wf h n
  | poisonAll => exact MemSys.poisonAll_wf h
  | poisonWord w => exact MemSys.poisonWord_wf h w
  | wipeSecure => exact MemSys.wipeSecure_wf h
  | loseTiers => exact MemSys.loseTiers_wf h
  | markAllGranules => exact MemSys.markAllGranules_wf h
  | scrub u n => exact MemSys.scrub_wf h u n
  | flip a k => exact MemSys.flip_wf h a k
  | correct a => exact MemSys.correct_wf h a

/-- The memory right after reset has the form. -/
theorem MemSys.reset_wf : MemSys.reset.wf = true := by decide

/-! ## Reading what was written -/

@[simp] theorem MemSys.setByte_background (m : MemSys) (a c : Nat) (b : Byte) : (m.setByte a b).background c = m.background c :=
  MemSys.background_congr rfl c

/-- A byte written is read. -/
theorem MemSys.byte_setByte_same {m : MemSys} (h : m.wf = true) (a : Nat) (b : Byte) : (m.setByte a b).byte a = b := by
  have h1 := ((MemSys.wf_iff m).mp h).1
  unfold MemSys.byte
  rw [MemSys.setByte_background]
  unfold MemSys.setByte
  dsimp only
  split
  · rename_i hb
    rw [tget_terase_same]
    exact hb.symm
  · rw [tget_tset_same]
    rfl

/-- A byte written leaves every other byte alone. -/
theorem MemSys.byte_setByte_ne {m : MemSys} (h : m.wf = true) {a c : Nat} (b : Byte) (hc : c ≠ a) :
    (m.setByte a b).byte c = m.byte c := by
  have h1 := ((MemSys.wf_iff m).mp h).1
  unfold MemSys.byte
  rw [MemSys.setByte_background]
  unfold MemSys.setByte
  dsimp only
  split
  · rw [tget_terase_ne _ hc]
  · rw [tget_tset_ne _ _ hc]

/-- Bytes written leave every byte outside them alone. -/
theorem MemSys.byte_setBytes_out {m : MemSys} (h : m.wf = true) (a : Nat) (bs : List Byte) {c : Nat}
    (hc : c < a ∨ a + bs.length ≤ c) : (m.setBytes a bs).byte c = m.byte c := by
  induction bs generalizing m a with
  | nil => rfl
  | cons b bs ih =>
    simp only [List.length_cons] at hc
    show ((m.setByte a b).setBytes (a + 1) bs).byte c = m.byte c
    rw [ih (MemSys.setByte_wf h a b) (a + 1) (by omega), MemSys.byte_setByte_ne h b (by omega)]

/-- Bytes written are read. -/
theorem MemSys.byte_setBytes_in {m : MemSys} (h : m.wf = true) (a : Nat) (bs : List Byte) {i : Nat} (hi : i < bs.length) :
    (m.setBytes a bs).byte (a + i) = bs[i] := by
  induction bs generalizing m a i with
  | nil => simp at hi
  | cons b bs ih =>
    show ((m.setByte a b).setBytes (a + 1) bs).byte (a + i) = _
    cases i with
    | zero =>
      rw [MemSys.byte_setBytes_out (MemSys.setByte_wf h a b) (a + 1) bs (by omega)]
      exact MemSys.byte_setByte_same h a b
    | succ j =>
      have := ih (MemSys.setByte_wf h a b) (a + 1) (i := j) (by simpa using hi)
      rw [show a + (j + 1) = a + 1 + j by omega, this]
      rfl

/-- Marks and fresh words do not change what a byte reads as. -/
theorem MemSys.byte_congr {m m' : MemSys} (h : m'.cells = m.cells) (hs : m'.scrubbed = m.scrubbed) (a : Nat) :
    m'.byte a = m.byte a := by
  simp [MemSys.byte, h, MemSys.background_congr hs]

theorem MemSys.foldl_markGranule_cells {α : Type} (m : MemSys) (f : α → Nat) (on : Bool) (xs : List α) :
    (xs.foldl (fun m g => m.markGranule (f g) on) m).cells = m.cells ∧
    (xs.foldl (fun m g => m.markGranule (f g) on) m).scrubbed = m.scrubbed := by
  induction xs generalizing m with
  | nil => exact ⟨rfl, rfl⟩
  | cons x xs ih => exact ih (m.markGranule (f x) on)

theorem MemSys.byte_clearCovered (m : MemSys) (a n c : Nat) : (m.clearCovered a n).byte c = m.byte c := by
  unfold MemSys.clearCovered
  split
  · rfl
  · exact MemSys.byte_congr (MemSys.foldl_markGranule_cells m id false _).1 (MemSys.foldl_markGranule_cells m id false _).2 c
  · rfl

theorem MemSys.byte_markTouched (m : MemSys) (a n c : Nat) : (m.markTouched a n).byte c = m.byte c := by
  unfold MemSys.markTouched
  split
  · rfl
  · exact MemSys.byte_congr (MemSys.foldl_markGranule_cells m id true _).1 (MemSys.foldl_markGranule_cells m id true _).2 c
  · rfl

theorem MemSys.byte_freshWords (m : MemSys) (a n c : Nat) : (m.freshWords a n).byte c = m.byte c := rfl

/-- A write stores its bytes at their addresses. -/
theorem MemSys.byte_write_in {m : MemSys} (h : m.wf = true) (a : Nat) (bs : List Byte) {i : Nat} (hi : i < bs.length) :
    (m.write a bs).byte (a + i) = bs[i] := by
  unfold MemSys.write
  rw [MemSys.byte_clearCovered, MemSys.byte_freshWords, MemSys.byte_setBytes_in h a bs hi]

/-- A write leaves every byte outside it alone. -/
theorem MemSys.byte_write_out {m : MemSys} (h : m.wf = true) (a : Nat) (bs : List Byte) {c : Nat}
    (hc : c < a ∨ a + bs.length ≤ c) : (m.write a bs).byte c = m.byte c := by
  unfold MemSys.write
  rw [MemSys.byte_clearCovered, MemSys.byte_freshWords, MemSys.byte_setBytes_out h a bs hc]

/-- A marked write stores its bytes at their addresses. -/
theorem MemSys.byte_writeMarked_in {m : MemSys} (h : m.wf = true) (a : Nat) (bs : List Byte) {i : Nat} (hi : i < bs.length) :
    (m.writeMarked a bs).byte (a + i) = bs[i] := by
  unfold MemSys.writeMarked
  rw [MemSys.byte_markTouched, MemSys.byte_freshWords, MemSys.byte_setBytes_in h a bs hi]

/-- A marked write leaves every byte outside it alone. -/
theorem MemSys.byte_writeMarked_out {m : MemSys} (h : m.wf = true) (a : Nat) (bs : List Byte) {c : Nat}
    (hc : c < a ∨ a + bs.length ≤ c) : (m.writeMarked a bs).byte c = m.byte c := by
  unfold MemSys.writeMarked
  rw [MemSys.byte_markTouched, MemSys.byte_freshWords, MemSys.byte_setBytes_out h a bs hc]

end Sys2Proof.Machine
end

