-- ==== Sys2Proof/Laws/Ops.lean ====
section
/-!
SUPPORT. Laws of the shared operations: what a command's end does to the four parts of the state, what fuses and the time base can do,
and what each effect keeps.
-/

namespace Sys2Proof.Machine

/-! ## How a command acts -/

/-- A command of the block always answers a next state. -/
theorem onDev_next (s : State) (f : Ctx → Dev → Dev) :
    onDev s f = .next (settle { s with dev := f ⟨s.fuse, s.time, s.mem⟩ s.dev }) := rfl

/-- With nothing asked of memories, fuses or time base, settling changes nothing. -/
theorem settle_none {s : State} (h : s.dev.effs = []) : settle s = s := by
  obtain ⟨p, f, t, m, d⟩ := s
  unfold settle
  dsimp only at h ⊢
  rw [h]
  show State.mk p f t m { d with effs := [] } = _
  rw [← h]

/-- A command that asks for no effect changes the device alone. -/
theorem onDev_pure {s : State} {f : Ctx → Dev → Dev} {d : Dev} (h : f ⟨s.fuse, s.time, s.mem⟩ s.dev = d) (he : d.effs = []) :
    onDev s f = .next { s with dev := d } := by
  rw [onDev_next, h, settle_none he]

/-- Effects act on memories, fuses and time base, never on the device or the queue. -/
theorem foldl_applyEff (es : List Eff) (s : State) :
    (es.foldl applyEff s).dev = s.dev ∧ (es.foldl applyEff s).pending = s.pending := by
  induction es generalizing s with
  | nil => exact ⟨rfl, rfl⟩
  | cons e es ih =>
    have := ih (applyEff s e)
    refine ⟨this.1.trans ?_, this.2.trans ?_⟩ <;> cases e <;> rfl

/-- After a command the device is as the command left it, with nothing left to settle. -/
@[simp] theorem settle_dev (s : State) : (settle s).dev = { s.dev with effs := [] } := (foldl_applyEff _ _).1

/-- A command's effects leave the queue alone. -/
@[simp] theorem settle_pending (s : State) : (settle s).pending = s.pending := (foldl_applyEff _ _).2

/-- A property of the memories, fuses and time base that every effect keeps holds after any list of effects. -/
theorem foldl_applyEff_keeps {P : State → Prop} (hP : ∀ s e, P s → P (applyEff s e)) (es : List Eff) {s : State} (h : P s) :
    P (es.foldl applyEff s) := by
  induction es generalizing s with
  | nil => exact h
  | cons e es ih => exact ih (hP s e h)

/-! ## Fuses -/

/-- Replacing an element keeps the length. -/
theorem length_lset {α : Type} (l : List α) (i : Nat) (a : α) : (lset l i a).length = l.length := by
  induction l generalizing i with
  | nil => rfl
  | cons b t ih => cases i with
    | zero => rfl
    | succ i => simp [lset, ih]

/-- What a list with one element replaced holds. -/
theorem getElem?_lset {α : Type} (l : List α) (i j : Nat) (a : α) :
    (lset l i a)[j]? = if j = i ∧ i < l.length then some a else l[j]? := by
  induction l generalizing i j with
  | nil => simp [lset]
  | cons b t ih =>
    cases i with
    | zero => cases j <;> simp [lset]
    | succ i =>
      cases j with
      | zero => simp [lset]
      | succ j => simp [lset, ih]

/-- A fuse write keeps the fuses within what the chip has. -/
theorem Fuses.run_wf {f : Fuses} (h : f.wf = true) (op : FuseOp) : (f.run op).wf = true := by
  obtain ⟨lc, tr, ta, uds, num, mk, sg⟩ := f
  simp only [Fuses.wf, Bool.and_eq_true, decide_eq_true_eq] at h ⊢
  cases op <;> simp only [Fuses.run]
  · split
    · exact h
    · split
      · exact ⟨⟨⟨Nat.le_refl 4, h.1.1.2⟩, h.1.2⟩, h.2⟩
      · split
        · rename_i hc
          exact ⟨⟨⟨Nat.le_of_lt hc.2, hc.1⟩, h.1.2⟩, h.2⟩
        · exact h
  · split
    · rename_i hc; exact ⟨⟨h.1.1, hc⟩, h.2⟩
    · exact h
  · split <;> exact h
  · split
    · exact ⟨h.1, by simpa [length_lset] using h.2⟩
    · exact h
  · split
    · exact ⟨h.1, by simpa [length_lset] using h.2⟩
    · exact h

theorem Fuses.grown_refl (f : Fuses) : f.grown f :=
  ⟨Nat.le_refl _, Nat.le_refl _, id, fun _ h => ⟨h, rfl⟩, rfl, fun _ _ st h _ => ⟨st, h, Nat.le_refl _⟩⟩

theorem Fuses.grown_trans {f g k : Fuses} (h : f.grown g) (h' : g.grown k) : f.grown k := by
  obtain ⟨a1, a2, a3, a4, a5, a6⟩ := h
  obtain ⟨b1, b2, b3, b4, b5, b6⟩ := h'
  refine ⟨Nat.le_trans a1 b1, Nat.le_trans a2 b2, fun e => b3 (a3 e), fun n e => ?_, b5.trans a5, ?_⟩
  · obtain ⟨u, v⟩ := a4 n e
    obtain ⟨u', v'⟩ := b4 n u
    exact ⟨u', v'.trans v⟩
  · intro i dig st e hst
    obtain ⟨st', e', hle⟩ := a6 i dig st e hst
    obtain ⟨st'', e'', hle'⟩ := b6 i dig st' e' (by omega)
    exact ⟨st'', e'', Nat.le_trans hle hle'⟩

/-- A fuse write only sets fuses. -/
theorem Fuses.run_grown (f : Fuses) (op : FuseOp) : f.grown (f.run op) := by
  cases op with
  | lifecycle c =>
    simp only [Fuses.run]
    split
    · exact Fuses.grown_refl f
    · rename_i h4
      split
      · exact ⟨Nat.le_refl _, Nat.le_refl _, fun _ => rfl, fun _ h => ⟨h, rfl⟩, rfl, fun _ _ st h _ => ⟨st, h, Nat.le_refl _⟩⟩
      · split
        · exact ⟨Nat.le_succ _, Nat.le_refl _, fun e => absurd e h4, fun _ h => ⟨h, rfl⟩, rfl, fun _ _ st h _ => ⟨st, h, Nat.le_refl _⟩⟩
        · exact Fuses.grown_refl f
  | tamper =>
    simp only [Fuses.run]
    split
    · exact ⟨Nat.le_refl _, Nat.le_succ _, id, fun _ h => ⟨h, rfl⟩, rfl, fun _ _ st h _ => ⟨st, h, Nat.le_refl _⟩⟩
    · exact Fuses.grown_refl f
  | uds n =>
    simp only [Fuses.run]
    split
    · rename_i hu
      exact ⟨Nat.le_refl _, Nat.le_refl _, id, fun _ h => absurd h (by rw [hu]; simp), rfl, fun _ _ st h _ => ⟨st, h, Nat.le_refl _⟩⟩
    · exact Fuses.grown_refl f
  | signer g =>
    simp only [Fuses.run]
    split
    · rename_i i hi
      refine ⟨Nat.le_refl _, Nat.le_refl _, id, fun _ h => ⟨h, rfl⟩, rfl, ?_⟩
      intro j dig st hj hst
      have hz := List.findIdx?_eq_some_iff_getElem.mp hi
      obtain ⟨hlt, hp, -⟩ := hz
      have hne : j ≠ i := by
        rintro rfl
        rw [List.getElem?_eq_getElem hlt] at hj
        have : f.signers[j] = (dig, st) := Option.some.inj hj
        rw [this] at hp
        exact hst (by simpa using hp)
      refine ⟨st, ?_, Nat.le_refl _⟩
      dsimp only
      rw [getElem?_lset, if_neg fun e => hne e.1]
      exact hj
    · exact Fuses.grown_refl f
  | revoke i =>
    simp only [Fuses.run]
    split
    · rename_i g hg
      refine ⟨Nat.le_refl _, Nat.le_refl _, id, fun _ h => ⟨h, rfl⟩, rfl, ?_⟩
      intro j dig st hj hst
      dsimp only
      rw [getElem?_lset]
      by_cases hji : j = i ∧ i < f.signers.length
      · rw [if_pos hji]
        obtain ⟨rfl, -⟩ := hji
        rw [hg] at hj
        obtain ⟨rfl, rfl⟩ := Prod.mk.inj (Option.some.inj hj)
        exact ⟨2, rfl, by decide⟩
      · rw [if_neg hji]
        exact ⟨st, hj, Nat.le_refl _⟩
    · exact Fuses.grown_refl f

/-! ## The time base -/

theorem satAdd_le (top a b : Nat) : satAdd top a b ≤ top := Nat.min_le_left ..

/-- A change of the time base keeps its registers within their range. -/
theorem TimeBase.run_wf {t : TimeBase} (h : t.wf = true) (op : TimeOp) : (t.run op).wf = true := by
  simp only [TimeBase.wf, Bool.and_eq_true, decide_eq_true_eq] at h ⊢
  cases op <;> simp only [TimeBase.run]
  · exact ⟨⟨⟨Nat.zero_le _, h.1.1.2⟩, h.1.2⟩, h.2⟩
  · exact ⟨h.1, by split <;> omega⟩
  · exact ⟨⟨⟨by omega, satAdd_le ..⟩, h.1.2⟩, h.2⟩
  · exact ⟨⟨⟨Nat.zero_le _, h.1.1.2⟩, h.1.2⟩, h.2⟩
  · exact ⟨h.1, by omega⟩
  · exact ⟨⟨h.1.1, satAdd_le ..⟩, h.2⟩
  · decide

/-- The beat number never falls but where the time base is cleared (R15, R17). -/
theorem TimeBase.run_beat_le (t : TimeBase) {op : TimeOp} (h : op ≠ .clear) : t.beat ≤ (t.run op).beat := by
  cases op <;> simp only [TimeBase.run]
  · exact Nat.le_refl _
  · split <;> omega
  · exact Nat.le_refl _
  · exact Nat.le_refl _
  · exact Nat.le_max_left ..
  · exact Nat.le_refl _
  · exact absurd rfl h

/-! ## Effects -/

theorem applyEff_fuse_wf (s : State) (e : Eff) (h : s.fuse.wf = true) : (applyEff s e).fuse.wf = true := by
  cases e with
  | fuse op => exact Fuses.run_wf h op
  | mem op => exact h
  | time op => exact h

theorem applyEff_time_wf (s : State) (e : Eff) (h : s.time.wf = true) : (applyEff s e).time.wf = true := by
  cases e with
  | time op => exact TimeBase.run_wf h op
  | mem op => exact h
  | fuse op => exact h

theorem applyEff_mem_wf (s : State) (e : Eff) (h : s.mem.wf = true) : (applyEff s e).mem.wf = true := by
  cases e with
  | mem op => exact MemSys.run_wf h op
  | fuse op => exact h
  | time op => exact h

theorem applyEff_grown (f : Fuses) (s : State) (e : Eff) (h : f.grown s.fuse) : f.grown (applyEff s e).fuse := by
  cases e with
  | fuse op => exact Fuses.grown_trans h (Fuses.run_grown _ op)
  | mem op => exact h
  | time op => exact h

/-! ## What the shared operations on the device change: everything else is as before -/

theorem Dev.setObj_frame (d : Dev) (i s : Nat) (v : Val) : { d.setObj i s v with objs := d.objs } = d := rfl
theorem Dev.setNum_frame (d : Dev) (i s n : Nat) : { d.setNum i s n with objs := d.objs } = d := rfl
theorem Dev.count_frame (d : Dev) (i s n : Nat) : { d.count i s n with objs := d.objs } = d := rfl

theorem Dev.peak_frame (d : Dev) (i s n : Nat) : { d.peak i s n with objs := d.objs } = d := by
  unfold Dev.peak; split <;> rfl

theorem Dev.post_frame (d : Dev) (c : Compl) : { d.post c with tether := d.tether, objs := d.objs } = d := by
  unfold Dev.post Dev.peak; split <;> rfl

theorem Dev.journal'_frame (d : Dev) (x : Ctx) (g : Nat) (p : JPay) : { d.journal' x g p with journal := d.journal } = d := rfl

theorem Dev.audit_frame (d : Dev) (x : Ctx) (a b c e f g h i j : Nat) :
    { d.audit x a b c e f g h i j with journal := d.journal } = d := by
  have key : ∀ (J : Journal) (y : Ctx) (n : Nat) (p : JPay),
      { ({ d with journal := J } : Dev).journal' y n p with journal := d.journal } = d := fun _ _ _ _ => rfl
  unfold Dev.audit
  exact key _ _ _ _

theorem Dev.bump_frame (d : Dev) (i s : Nat) (v : Val) : { d.bump i s v with chg := d.chg } = d := by
  unfold Dev.bump; split <;> rfl

theorem Dev.setJ_frame (d : Dev) (x : Ctx) (i s : Nat) (v : Val) :
    { d.setJ x i s v with chg := d.chg, objs := d.objs, journal := d.journal } = d := by
  unfold Dev.setJ Dev.bump; split <;> rfl

theorem Dev.alert_frame (d : Dev) (bit : Nat) :
    { d.alert bit with alerts := d.alerts, notifyDue := d.notifyDue, objs := d.objs, out := d.out } = d := by
  unfold Dev.alert Dev.movePin; split <;> first | rfl | (split <;> rfl)

theorem Dev.answerV_frame (d : Dev) (x : Ctx) (r tag st det ser var : Nat) :
    { d.answerV x r tag st det ser var with tether := d.tether, objs := d.objs } = d := by
  unfold Dev.answerV
  split
  · rfl
  · exact Dev.post_frame d _

theorem Dev.endReq_frame (d : Dev) (x : Ctx) (slot st : Nat) :
    { d.endReq x slot st with tether := d.tether, objs := d.objs } = d := by
  unfold Dev.endReq
  split
  · rfl
  · exact Dev.post_frame d _

/-! ## Completions -/

/-- A completion posted waits behind those that wait already (R298). -/
theorem Dev.post_pend (d : Dev) (c : Compl) : (d.post c).tether.pend = d.tether.pend ++ [c] := by
  unfold Dev.post Dev.peak; split <;> rfl

/-- A command's answer is one completion with its TAG, ring and STATUS, of this beat (R298, R305). -/
theorem Dev.answer_pend (d : Dev) (x : Ctx) {r tag : Nat} (st : Nat) {c : Cmd} (h : d.cmd r tag = some c) :
    (d.answer x r tag st).tether.pend = d.tether.pend ++
      [⟨tag, 0, x.time.beat, 0, eJob c.entry, 0, eOpcode c.entry, r, 0, st, 0,
        !(decide (eOpcode c.entry = 1) && decide (st = Config.ok))⟩] := by
  unfold Dev.answer Dev.answerV
  rw [h]
  exact Dev.post_pend d _

/-! ## Objects -/

/-- A stored value reads back. -/
theorem Dev.obj_setObj_same (d : Dev) (i s : Nat) (v : Val) : (d.setObj i s v).obj i s = v := by
  unfold Dev.obj Dev.setObj
  dsimp only
  split
  · rename_i hv
    rw [tget_terase_same, hv]; rfl
  · rw [tget_tset_same]; rfl

/-- A store leaves every other object alone. -/
theorem Dev.obj_setObj_ne (d : Dev) {i s j t : Nat} (v : Val) (hne : okey j t ≠ okey i s) :
    (d.setObj i s v).obj j t = d.obj j t := by
  unfold Dev.obj Dev.setObj
  dsimp only
  split
  · rw [tget_terase_ne _ hne]
  · rw [tget_tset_ne _ _ hne]

/-- A stored number reads back. -/
theorem Dev.num_setNum_same (d : Dev) (i s n : Nat) : (d.setNum i s n).num i s = n := by
  unfold Dev.num Dev.setNum; rw [Dev.obj_setObj_same]

/-- A stored number leaves every other object alone. -/
theorem Dev.num_setNum_ne (d : Dev) {i s j t : Nat} (n : Nat) (h : okey j t ≠ okey i s) : (d.setNum i s n).num j t = d.num j t := by
  unfold Dev.num Dev.setNum; rw [Dev.obj_setObj_ne _ _ h]

/-- A count of one object leaves every other alone. -/
theorem Dev.num_count_ne (d : Dev) {i s j t : Nat} (n : Nat) (h : okey j t ≠ okey i s) : (d.count i s n).num j t = d.num j t :=
  Dev.num_setNum_ne d _ h

/-- What a count gives depends on the object alone. -/
theorem Dev.num_count_congr {d e : Dev} {i s : Nat} (n : Nat) (h : d.num i s = e.num i s) :
    (d.count i s n).num i s = (e.count i s n).num i s := by
  unfold Dev.count; rw [Dev.num_setNum_same, Dev.num_setNum_same, h]

/-- An object's number depends on the objects alone. -/
theorem Dev.num_objs {d e : Dev} (h : d.objs = e.objs) (j t : Nat) : d.num j t = e.num j t := by
  unfold Dev.num Dev.obj; rw [h]

/-- The alert pin leaves every object alone. -/
theorem Dev.num_movePin (old d : Dev) (j t : Nat) : (old.movePin d).num j t = d.num j t := by
  unfold Dev.movePin; split <;> rfl

/-- An alert leaves every object but the alert register alone. -/
theorem Dev.num_alert (d : Dev) (b : Nat) {j t : Nat} (h : okey j t ≠ okey 0x1000 0x0C) : (d.alert b).num j t = d.num j t := by
  unfold Dev.alert
  split
  · rfl
  · exact (Dev.num_movePin ..).trans (Dev.num_setNum_ne _ _ h)

end Sys2Proof.Machine
end

