-- ==== Sys2Proof/Laws/Parts.lean ====
section
/-!
SUPPORT. One lemma per field per update of one part of the device: the facet, job, Tether, ballast, boot state or journal changes alone.
-/

namespace Sys2Proof.Machine

@[simp] theorem Dev.adjFacet_state (d : Dev) (n : Nat) (g : Facet → Facet) : (d.adjFacet n g).state = d.state := rfl
@[simp] theorem Dev.adjFacet_objs (d : Dev) (n : Nat) (g : Facet → Facet) : (d.adjFacet n g).objs = d.objs := rfl
@[simp] theorem Dev.adjFacet_chg (d : Dev) (n : Nat) (g : Facet → Facet) : (d.adjFacet n g).chg = d.chg := rfl
@[simp] theorem Dev.adjFacet_canopy (d : Dev) (n : Nat) (g : Facet → Facet) : (d.adjFacet n g).canopy = d.canopy := rfl
@[simp] theorem Dev.adjFacet_scans (d : Dev) (n : Nat) (g : Facet → Facet) : (d.adjFacet n g).scans = d.scans := rfl
@[simp] theorem Dev.adjFacet_resume (d : Dev) (n : Nat) (g : Facet → Facet) : (d.adjFacet n g).resume = d.resume := rfl
@[simp] theorem Dev.adjFacet_scanned (d : Dev) (n : Nat) (g : Facet → Facet) : (d.adjFacet n g).scanned = d.scanned := rfl
@[simp] theorem Dev.adjFacet_sync (d : Dev) (n : Nat) (g : Facet → Facet) : (d.adjFacet n g).sync = d.sync := rfl
@[simp] theorem Dev.adjFacet_engines (d : Dev) (n : Nat) (g : Facet → Facet) : (d.adjFacet n g).engines = d.engines := rfl
@[simp] theorem Dev.adjFacet_stepser (d : Dev) (n : Nat) (g : Facet → Facet) : (d.adjFacet n g).stepser = d.stepser := rfl
@[simp] theorem Dev.adjFacet_board (d : Dev) (n : Nat) (g : Facet → Facet) : (d.adjFacet n g).board = d.board := rfl
@[simp] theorem Dev.adjFacet_boardTag (d : Dev) (n : Nat) (g : Facet → Facet) : (d.adjFacet n g).boardTag = d.boardTag := rfl
@[simp] theorem Dev.adjFacet_spill (d : Dev) (n : Nat) (g : Facet → Facet) : (d.adjFacet n g).spill = d.spill := rfl
@[simp] theorem Dev.adjFacet_jobs (d : Dev) (n : Nat) (g : Facet → Facet) : (d.adjFacet n g).jobs = d.jobs := rfl
@[simp] theorem Dev.adjFacet_images (d : Dev) (n : Nat) (g : Facet → Facet) : (d.adjFacet n g).images = d.images := rfl
@[simp] theorem Dev.adjFacet_catalogs (d : Dev) (n : Nat) (g : Facet → Facet) : (d.adjFacet n g).catalogs = d.catalogs := rfl
@[simp] theorem Dev.adjFacet_reqs (d : Dev) (n : Nat) (g : Facet → Facet) : (d.adjFacet n g).reqs = d.reqs := rfl
@[simp] theorem Dev.adjFacet_digests (d : Dev) (n : Nat) (g : Facet → Facet) : (d.adjFacet n g).digests = d.digests := rfl
@[simp] theorem Dev.adjFacet_schanges (d : Dev) (n : Nat) (g : Facet → Facet) : (d.adjFacet n g).schanges = d.schanges := rfl
@[simp] theorem Dev.adjFacet_stepDue (d : Dev) (n : Nat) (g : Facet → Facet) : (d.adjFacet n g).stepDue = d.stepDue := rfl
@[simp] theorem Dev.adjFacet_bWaiting (d : Dev) (n : Nat) (g : Facet → Facet) : (d.adjFacet n g).bWaiting = d.bWaiting := rfl
@[simp] theorem Dev.adjFacet_ports (d : Dev) (n : Nat) (g : Facet → Facet) : (d.adjFacet n g).ports = d.ports := rfl
@[simp] theorem Dev.adjFacet_legs (d : Dev) (n : Nat) (g : Facet → Facet) : (d.adjFacet n g).legs = d.legs := rfl
@[simp] theorem Dev.adjFacet_routes (d : Dev) (n : Nat) (g : Facet → Facet) : (d.adjFacet n g).routes = d.routes := rfl
@[simp] theorem Dev.adjFacet_passRecs (d : Dev) (n : Nat) (g : Facet → Facet) : (d.adjFacet n g).passRecs = d.passRecs := rfl
@[simp] theorem Dev.adjFacet_gwCredits (d : Dev) (n : Nat) (g : Facet → Facet) : (d.adjFacet n g).gwCredits = d.gwCredits := rfl
@[simp] theorem Dev.adjFacet_tether (d : Dev) (n : Nat) (g : Facet → Facet) : (d.adjFacet n g).tether = d.tether := rfl
@[simp] theorem Dev.adjFacet_groups (d : Dev) (n : Nat) (g : Facet → Facet) : (d.adjFacet n g).groups = d.groups := rfl
@[simp] theorem Dev.adjFacet_finished (d : Dev) (n : Nat) (g : Facet → Facet) : (d.adjFacet n g).finished = d.finished := rfl
@[simp] theorem Dev.adjFacet_heldReplies (d : Dev) (n : Nat) (g : Facet → Facet) : (d.adjFacet n g).heldReplies = d.heldReplies := rfl
@[simp] theorem Dev.adjFacet_nextGroup (d : Dev) (n : Nat) (g : Facet → Facet) : (d.adjFacet n g).nextGroup = d.nextGroup := rfl
@[simp] theorem Dev.adjFacet_nextOrder (d : Dev) (n : Nat) (g : Facet → Facet) : (d.adjFacet n g).nextOrder = d.nextOrder := rfl
@[simp] theorem Dev.adjFacet_sessions (d : Dev) (n : Nat) (g : Facet → Facet) : (d.adjFacet n g).sessions = d.sessions := rfl
@[simp] theorem Dev.adjFacet_nonces (d : Dev) (n : Nat) (g : Facet → Facet) : (d.adjFacet n g).nonces = d.nonces := rfl
@[simp] theorem Dev.adjFacet_mgr (d : Dev) (n : Nat) (g : Facet → Facet) : (d.adjFacet n g).mgr = d.mgr := rfl
@[simp] theorem Dev.adjFacet_mgrRound (d : Dev) (n : Nat) (g : Facet → Facet) : (d.adjFacet n g).mgrRound = d.mgrRound := rfl
@[simp] theorem Dev.adjFacet_mgrBase (d : Dev) (n : Nat) (g : Facet → Facet) : (d.adjFacet n g).mgrBase = d.mgrBase := rfl
@[simp] theorem Dev.adjFacet_authFails (d : Dev) (n : Nat) (g : Facet → Facet) : (d.adjFacet n g).authFails = d.authFails := rfl
@[simp] theorem Dev.adjFacet_authRound (d : Dev) (n : Nat) (g : Facet → Facet) : (d.adjFacet n g).authRound = d.authRound := rfl
@[simp] theorem Dev.adjFacet_notified (d : Dev) (n : Nat) (g : Facet → Facet) : (d.adjFacet n g).notified = d.notified := rfl
@[simp] theorem Dev.adjFacet_notifyDue (d : Dev) (n : Nat) (g : Facet → Facet) : (d.adjFacet n g).notifyDue = d.notifyDue := rfl
@[simp] theorem Dev.adjFacet_alerts (d : Dev) (n : Nat) (g : Facet → Facet) : (d.adjFacet n g).alerts = d.alerts := rfl
@[simp] theorem Dev.adjFacet_portState (d : Dev) (n : Nat) (g : Facet → Facet) : (d.adjFacet n g).portState = d.portState := rfl
@[simp] theorem Dev.adjFacet_permits (d : Dev) (n : Nat) (g : Facet → Facet) : (d.adjFacet n g).permits = d.permits := rfl
@[simp] theorem Dev.adjFacet_nextPermit (d : Dev) (n : Nat) (g : Facet → Facet) : (d.adjFacet n g).nextPermit = d.nextPermit := rfl
@[simp] theorem Dev.adjFacet_comps (d : Dev) (n : Nat) (g : Facet → Facet) : (d.adjFacet n g).comps = d.comps := rfl
@[simp] theorem Dev.adjFacet_keys (d : Dev) (n : Nat) (g : Facet → Facet) : (d.adjFacet n g).keys = d.keys := rfl
@[simp] theorem Dev.adjFacet_ballast (d : Dev) (n : Nat) (g : Facet → Facet) : (d.adjFacet n g).ballast = d.ballast := rfl
@[simp] theorem Dev.adjFacet_journal (d : Dev) (n : Nat) (g : Facet → Facet) : (d.adjFacet n g).journal = d.journal := rfl
@[simp] theorem Dev.adjFacet_boot (d : Dev) (n : Nat) (g : Facet → Facet) : (d.adjFacet n g).boot = d.boot := rfl
@[simp] theorem Dev.adjFacet_gust (d : Dev) (n : Nat) (g : Facet → Facet) : (d.adjFacet n g).gust = d.gust := rfl
@[simp] theorem Dev.adjFacet_samp (d : Dev) (n : Nat) (g : Facet → Facet) : (d.adjFacet n g).samp = d.samp := rfl
@[simp] theorem Dev.adjFacet_dirtySet (d : Dev) (n : Nat) (g : Facet → Facet) : (d.adjFacet n g).dirtySet = d.dirtySet := rfl
@[simp] theorem Dev.adjFacet_unprot (d : Dev) (n : Nat) (g : Facet → Facet) : (d.adjFacet n g).unprot = d.unprot := rfl
@[simp] theorem Dev.adjFacet_outUnits (d : Dev) (n : Nat) (g : Facet → Facet) : (d.adjFacet n g).outUnits = d.outUnits := rfl
@[simp] theorem Dev.adjFacet_sweep (d : Dev) (n : Nat) (g : Facet → Facet) : (d.adjFacet n g).sweep = d.sweep := rfl
@[simp] theorem Dev.adjFacet_tap (d : Dev) (n : Nat) (g : Facet → Facet) : (d.adjFacet n g).tap = d.tap := rfl
@[simp] theorem Dev.adjFacet_unlocked (d : Dev) (n : Nat) (g : Facet → Facet) : (d.adjFacet n g).unlocked = d.unlocked := rfl
@[simp] theorem Dev.adjFacet_switched (d : Dev) (n : Nat) (g : Facet → Facet) : (d.adjFacet n g).switched = d.switched := rfl
@[simp] theorem Dev.adjFacet_busy (d : Dev) (n : Nat) (g : Facet → Facet) : (d.adjFacet n g).busy = d.busy := rfl
@[simp] theorem Dev.adjFacet_execBeats (d : Dev) (n : Nat) (g : Facet → Facet) : (d.adjFacet n g).execBeats = d.execBeats := rfl
@[simp] theorem Dev.adjFacet_slotAt (d : Dev) (n : Nat) (g : Facet → Facet) : (d.adjFacet n g).slotAt = d.slotAt := rfl
@[simp] theorem Dev.adjFacet_draws (d : Dev) (n : Nat) (g : Facet → Facet) : (d.adjFacet n g).draws = d.draws := rfl
@[simp] theorem Dev.adjFacet_out (d : Dev) (n : Nat) (g : Facet → Facet) : (d.adjFacet n g).out = d.out := rfl
@[simp] theorem Dev.adjFacet_effs (d : Dev) (n : Nat) (g : Facet → Facet) : (d.adjFacet n g).effs = d.effs := rfl

@[simp] theorem Dev.adjJob_state (d : Dev) (j : Nat) (f : Job → Job) : (d.adjJob j f).state = d.state := rfl
@[simp] theorem Dev.adjJob_objs (d : Dev) (j : Nat) (f : Job → Job) : (d.adjJob j f).objs = d.objs := rfl
@[simp] theorem Dev.adjJob_chg (d : Dev) (j : Nat) (f : Job → Job) : (d.adjJob j f).chg = d.chg := rfl
@[simp] theorem Dev.adjJob_facets (d : Dev) (j : Nat) (f : Job → Job) : (d.adjJob j f).facets = d.facets := rfl
@[simp] theorem Dev.adjJob_canopy (d : Dev) (j : Nat) (f : Job → Job) : (d.adjJob j f).canopy = d.canopy := rfl
@[simp] theorem Dev.adjJob_scans (d : Dev) (j : Nat) (f : Job → Job) : (d.adjJob j f).scans = d.scans := rfl
@[simp] theorem Dev.adjJob_resume (d : Dev) (j : Nat) (f : Job → Job) : (d.adjJob j f).resume = d.resume := rfl
@[simp] theorem Dev.adjJob_scanned (d : Dev) (j : Nat) (f : Job → Job) : (d.adjJob j f).scanned = d.scanned := rfl
@[simp] theorem Dev.adjJob_sync (d : Dev) (j : Nat) (f : Job → Job) : (d.adjJob j f).sync = d.sync := rfl
@[simp] theorem Dev.adjJob_engines (d : Dev) (j : Nat) (f : Job → Job) : (d.adjJob j f).engines = d.engines := rfl
@[simp] theorem Dev.adjJob_stepser (d : Dev) (j : Nat) (f : Job → Job) : (d.adjJob j f).stepser = d.stepser := rfl
@[simp] theorem Dev.adjJob_board (d : Dev) (j : Nat) (f : Job → Job) : (d.adjJob j f).board = d.board := rfl
@[simp] theorem Dev.adjJob_boardTag (d : Dev) (j : Nat) (f : Job → Job) : (d.adjJob j f).boardTag = d.boardTag := rfl
@[simp] theorem Dev.adjJob_spill (d : Dev) (j : Nat) (f : Job → Job) : (d.adjJob j f).spill = d.spill := rfl
@[simp] theorem Dev.adjJob_images (d : Dev) (j : Nat) (f : Job → Job) : (d.adjJob j f).images = d.images := rfl
@[simp] theorem Dev.adjJob_catalogs (d : Dev) (j : Nat) (f : Job → Job) : (d.adjJob j f).catalogs = d.catalogs := rfl
@[simp] theorem Dev.adjJob_reqs (d : Dev) (j : Nat) (f : Job → Job) : (d.adjJob j f).reqs = d.reqs := rfl
@[simp] theorem Dev.adjJob_digests (d : Dev) (j : Nat) (f : Job → Job) : (d.adjJob j f).digests = d.digests := rfl
@[simp] theorem Dev.adjJob_schanges (d : Dev) (j : Nat) (f : Job → Job) : (d.adjJob j f).schanges = d.schanges := rfl
@[simp] theorem Dev.adjJob_stepDue (d : Dev) (j : Nat) (f : Job → Job) : (d.adjJob j f).stepDue = d.stepDue := rfl
@[simp] theorem Dev.adjJob_bWaiting (d : Dev) (j : Nat) (f : Job → Job) : (d.adjJob j f).bWaiting = d.bWaiting := rfl
@[simp] theorem Dev.adjJob_ports (d : Dev) (j : Nat) (f : Job → Job) : (d.adjJob j f).ports = d.ports := rfl
@[simp] theorem Dev.adjJob_legs (d : Dev) (j : Nat) (f : Job → Job) : (d.adjJob j f).legs = d.legs := rfl
@[simp] theorem Dev.adjJob_routes (d : Dev) (j : Nat) (f : Job → Job) : (d.adjJob j f).routes = d.routes := rfl
@[simp] theorem Dev.adjJob_passRecs (d : Dev) (j : Nat) (f : Job → Job) : (d.adjJob j f).passRecs = d.passRecs := rfl
@[simp] theorem Dev.adjJob_gwCredits (d : Dev) (j : Nat) (f : Job → Job) : (d.adjJob j f).gwCredits = d.gwCredits := rfl
@[simp] theorem Dev.adjJob_tether (d : Dev) (j : Nat) (f : Job → Job) : (d.adjJob j f).tether = d.tether := rfl
@[simp] theorem Dev.adjJob_groups (d : Dev) (j : Nat) (f : Job → Job) : (d.adjJob j f).groups = d.groups := rfl
@[simp] theorem Dev.adjJob_finished (d : Dev) (j : Nat) (f : Job → Job) : (d.adjJob j f).finished = d.finished := rfl
@[simp] theorem Dev.adjJob_heldReplies (d : Dev) (j : Nat) (f : Job → Job) : (d.adjJob j f).heldReplies = d.heldReplies := rfl
@[simp] theorem Dev.adjJob_nextGroup (d : Dev) (j : Nat) (f : Job → Job) : (d.adjJob j f).nextGroup = d.nextGroup := rfl
@[simp] theorem Dev.adjJob_nextOrder (d : Dev) (j : Nat) (f : Job → Job) : (d.adjJob j f).nextOrder = d.nextOrder := rfl
@[simp] theorem Dev.adjJob_sessions (d : Dev) (j : Nat) (f : Job → Job) : (d.adjJob j f).sessions = d.sessions := rfl
@[simp] theorem Dev.adjJob_nonces (d : Dev) (j : Nat) (f : Job → Job) : (d.adjJob j f).nonces = d.nonces := rfl
@[simp] theorem Dev.adjJob_mgr (d : Dev) (j : Nat) (f : Job → Job) : (d.adjJob j f).mgr = d.mgr := rfl
@[simp] theorem Dev.adjJob_mgrRound (d : Dev) (j : Nat) (f : Job → Job) : (d.adjJob j f).mgrRound = d.mgrRound := rfl
@[simp] theorem Dev.adjJob_mgrBase (d : Dev) (j : Nat) (f : Job → Job) : (d.adjJob j f).mgrBase = d.mgrBase := rfl
@[simp] theorem Dev.adjJob_authFails (d : Dev) (j : Nat) (f : Job → Job) : (d.adjJob j f).authFails = d.authFails := rfl
@[simp] theorem Dev.adjJob_authRound (d : Dev) (j : Nat) (f : Job → Job) : (d.adjJob j f).authRound = d.authRound := rfl
@[simp] theorem Dev.adjJob_notified (d : Dev) (j : Nat) (f : Job → Job) : (d.adjJob j f).notified = d.notified := rfl
@[simp] theorem Dev.adjJob_notifyDue (d : Dev) (j : Nat) (f : Job → Job) : (d.adjJob j f).notifyDue = d.notifyDue := rfl
@[simp] theorem Dev.adjJob_alerts (d : Dev) (j : Nat) (f : Job → Job) : (d.adjJob j f).alerts = d.alerts := rfl
@[simp] theorem Dev.adjJob_portState (d : Dev) (j : Nat) (f : Job → Job) : (d.adjJob j f).portState = d.portState := rfl
@[simp] theorem Dev.adjJob_permits (d : Dev) (j : Nat) (f : Job → Job) : (d.adjJob j f).permits = d.permits := rfl
@[simp] theorem Dev.adjJob_nextPermit (d : Dev) (j : Nat) (f : Job → Job) : (d.adjJob j f).nextPermit = d.nextPermit := rfl
@[simp] theorem Dev.adjJob_comps (d : Dev) (j : Nat) (f : Job → Job) : (d.adjJob j f).comps = d.comps := rfl
@[simp] theorem Dev.adjJob_keys (d : Dev) (j : Nat) (f : Job → Job) : (d.adjJob j f).keys = d.keys := rfl
@[simp] theorem Dev.adjJob_ballast (d : Dev) (j : Nat) (f : Job → Job) : (d.adjJob j f).ballast = d.ballast := rfl
@[simp] theorem Dev.adjJob_journal (d : Dev) (j : Nat) (f : Job → Job) : (d.adjJob j f).journal = d.journal := rfl
@[simp] theorem Dev.adjJob_boot (d : Dev) (j : Nat) (f : Job → Job) : (d.adjJob j f).boot = d.boot := rfl
@[simp] theorem Dev.adjJob_gust (d : Dev) (j : Nat) (f : Job → Job) : (d.adjJob j f).gust = d.gust := rfl
@[simp] theorem Dev.adjJob_samp (d : Dev) (j : Nat) (f : Job → Job) : (d.adjJob j f).samp = d.samp := rfl
@[simp] theorem Dev.adjJob_dirtySet (d : Dev) (j : Nat) (f : Job → Job) : (d.adjJob j f).dirtySet = d.dirtySet := rfl
@[simp] theorem Dev.adjJob_unprot (d : Dev) (j : Nat) (f : Job → Job) : (d.adjJob j f).unprot = d.unprot := rfl
@[simp] theorem Dev.adjJob_outUnits (d : Dev) (j : Nat) (f : Job → Job) : (d.adjJob j f).outUnits = d.outUnits := rfl
@[simp] theorem Dev.adjJob_sweep (d : Dev) (j : Nat) (f : Job → Job) : (d.adjJob j f).sweep = d.sweep := rfl
@[simp] theorem Dev.adjJob_tap (d : Dev) (j : Nat) (f : Job → Job) : (d.adjJob j f).tap = d.tap := rfl
@[simp] theorem Dev.adjJob_unlocked (d : Dev) (j : Nat) (f : Job → Job) : (d.adjJob j f).unlocked = d.unlocked := rfl
@[simp] theorem Dev.adjJob_switched (d : Dev) (j : Nat) (f : Job → Job) : (d.adjJob j f).switched = d.switched := rfl
@[simp] theorem Dev.adjJob_busy (d : Dev) (j : Nat) (f : Job → Job) : (d.adjJob j f).busy = d.busy := rfl
@[simp] theorem Dev.adjJob_execBeats (d : Dev) (j : Nat) (f : Job → Job) : (d.adjJob j f).execBeats = d.execBeats := rfl
@[simp] theorem Dev.adjJob_slotAt (d : Dev) (j : Nat) (f : Job → Job) : (d.adjJob j f).slotAt = d.slotAt := rfl
@[simp] theorem Dev.adjJob_draws (d : Dev) (j : Nat) (f : Job → Job) : (d.adjJob j f).draws = d.draws := rfl
@[simp] theorem Dev.adjJob_out (d : Dev) (j : Nat) (f : Job → Job) : (d.adjJob j f).out = d.out := rfl
@[simp] theorem Dev.adjJob_effs (d : Dev) (j : Nat) (f : Job → Job) : (d.adjJob j f).effs = d.effs := rfl

@[simp] theorem Dev.adjTether_state (d : Dev) (f : Tether → Tether) : (d.adjTether f).state = d.state := rfl
@[simp] theorem Dev.adjTether_objs (d : Dev) (f : Tether → Tether) : (d.adjTether f).objs = d.objs := rfl
@[simp] theorem Dev.adjTether_chg (d : Dev) (f : Tether → Tether) : (d.adjTether f).chg = d.chg := rfl
@[simp] theorem Dev.adjTether_facets (d : Dev) (f : Tether → Tether) : (d.adjTether f).facets = d.facets := rfl
@[simp] theorem Dev.adjTether_canopy (d : Dev) (f : Tether → Tether) : (d.adjTether f).canopy = d.canopy := rfl
@[simp] theorem Dev.adjTether_scans (d : Dev) (f : Tether → Tether) : (d.adjTether f).scans = d.scans := rfl
@[simp] theorem Dev.adjTether_resume (d : Dev) (f : Tether → Tether) : (d.adjTether f).resume = d.resume := rfl
@[simp] theorem Dev.adjTether_scanned (d : Dev) (f : Tether → Tether) : (d.adjTether f).scanned = d.scanned := rfl
@[simp] theorem Dev.adjTether_sync (d : Dev) (f : Tether → Tether) : (d.adjTether f).sync = d.sync := rfl
@[simp] theorem Dev.adjTether_engines (d : Dev) (f : Tether → Tether) : (d.adjTether f).engines = d.engines := rfl
@[simp] theorem Dev.adjTether_stepser (d : Dev) (f : Tether → Tether) : (d.adjTether f).stepser = d.stepser := rfl
@[simp] theorem Dev.adjTether_board (d : Dev) (f : Tether → Tether) : (d.adjTether f).board = d.board := rfl
@[simp] theorem Dev.adjTether_boardTag (d : Dev) (f : Tether → Tether) : (d.adjTether f).boardTag = d.boardTag := rfl
@[simp] theorem Dev.adjTether_spill (d : Dev) (f : Tether → Tether) : (d.adjTether f).spill = d.spill := rfl
@[simp] theorem Dev.adjTether_jobs (d : Dev) (f : Tether → Tether) : (d.adjTether f).jobs = d.jobs := rfl
@[simp] theorem Dev.adjTether_images (d : Dev) (f : Tether → Tether) : (d.adjTether f).images = d.images := rfl
@[simp] theorem Dev.adjTether_catalogs (d : Dev) (f : Tether → Tether) : (d.adjTether f).catalogs = d.catalogs := rfl
@[simp] theorem Dev.adjTether_reqs (d : Dev) (f : Tether → Tether) : (d.adjTether f).reqs = d.reqs := rfl
@[simp] theorem Dev.adjTether_digests (d : Dev) (f : Tether → Tether) : (d.adjTether f).digests = d.digests := rfl
@[simp] theorem Dev.adjTether_schanges (d : Dev) (f : Tether → Tether) : (d.adjTether f).schanges = d.schanges := rfl
@[simp] theorem Dev.adjTether_stepDue (d : Dev) (f : Tether → Tether) : (d.adjTether f).stepDue = d.stepDue := rfl
@[simp] theorem Dev.adjTether_bWaiting (d : Dev) (f : Tether → Tether) : (d.adjTether f).bWaiting = d.bWaiting := rfl
@[simp] theorem Dev.adjTether_ports (d : Dev) (f : Tether → Tether) : (d.adjTether f).ports = d.ports := rfl
@[simp] theorem Dev.adjTether_legs (d : Dev) (f : Tether → Tether) : (d.adjTether f).legs = d.legs := rfl
@[simp] theorem Dev.adjTether_routes (d : Dev) (f : Tether → Tether) : (d.adjTether f).routes = d.routes := rfl
@[simp] theorem Dev.adjTether_passRecs (d : Dev) (f : Tether → Tether) : (d.adjTether f).passRecs = d.passRecs := rfl
@[simp] theorem Dev.adjTether_gwCredits (d : Dev) (f : Tether → Tether) : (d.adjTether f).gwCredits = d.gwCredits := rfl
@[simp] theorem Dev.adjTether_tether (d : Dev) (f : Tether → Tether) : (d.adjTether f).tether = f d.tether := rfl
@[simp] theorem Dev.adjTether_groups (d : Dev) (f : Tether → Tether) : (d.adjTether f).groups = d.groups := rfl
@[simp] theorem Dev.adjTether_finished (d : Dev) (f : Tether → Tether) : (d.adjTether f).finished = d.finished := rfl
@[simp] theorem Dev.adjTether_heldReplies (d : Dev) (f : Tether → Tether) : (d.adjTether f).heldReplies = d.heldReplies := rfl
@[simp] theorem Dev.adjTether_nextGroup (d : Dev) (f : Tether → Tether) : (d.adjTether f).nextGroup = d.nextGroup := rfl
@[simp] theorem Dev.adjTether_nextOrder (d : Dev) (f : Tether → Tether) : (d.adjTether f).nextOrder = d.nextOrder := rfl
@[simp] theorem Dev.adjTether_sessions (d : Dev) (f : Tether → Tether) : (d.adjTether f).sessions = d.sessions := rfl
@[simp] theorem Dev.adjTether_nonces (d : Dev) (f : Tether → Tether) : (d.adjTether f).nonces = d.nonces := rfl
@[simp] theorem Dev.adjTether_mgr (d : Dev) (f : Tether → Tether) : (d.adjTether f).mgr = d.mgr := rfl
@[simp] theorem Dev.adjTether_mgrRound (d : Dev) (f : Tether → Tether) : (d.adjTether f).mgrRound = d.mgrRound := rfl
@[simp] theorem Dev.adjTether_mgrBase (d : Dev) (f : Tether → Tether) : (d.adjTether f).mgrBase = d.mgrBase := rfl
@[simp] theorem Dev.adjTether_authFails (d : Dev) (f : Tether → Tether) : (d.adjTether f).authFails = d.authFails := rfl
@[simp] theorem Dev.adjTether_authRound (d : Dev) (f : Tether → Tether) : (d.adjTether f).authRound = d.authRound := rfl
@[simp] theorem Dev.adjTether_notified (d : Dev) (f : Tether → Tether) : (d.adjTether f).notified = d.notified := rfl
@[simp] theorem Dev.adjTether_notifyDue (d : Dev) (f : Tether → Tether) : (d.adjTether f).notifyDue = d.notifyDue := rfl
@[simp] theorem Dev.adjTether_alerts (d : Dev) (f : Tether → Tether) : (d.adjTether f).alerts = d.alerts := rfl
@[simp] theorem Dev.adjTether_portState (d : Dev) (f : Tether → Tether) : (d.adjTether f).portState = d.portState := rfl
@[simp] theorem Dev.adjTether_permits (d : Dev) (f : Tether → Tether) : (d.adjTether f).permits = d.permits := rfl
@[simp] theorem Dev.adjTether_nextPermit (d : Dev) (f : Tether → Tether) : (d.adjTether f).nextPermit = d.nextPermit := rfl
@[simp] theorem Dev.adjTether_comps (d : Dev) (f : Tether → Tether) : (d.adjTether f).comps = d.comps := rfl
@[simp] theorem Dev.adjTether_keys (d : Dev) (f : Tether → Tether) : (d.adjTether f).keys = d.keys := rfl
@[simp] theorem Dev.adjTether_ballast (d : Dev) (f : Tether → Tether) : (d.adjTether f).ballast = d.ballast := rfl
@[simp] theorem Dev.adjTether_journal (d : Dev) (f : Tether → Tether) : (d.adjTether f).journal = d.journal := rfl
@[simp] theorem Dev.adjTether_boot (d : Dev) (f : Tether → Tether) : (d.adjTether f).boot = d.boot := rfl
@[simp] theorem Dev.adjTether_gust (d : Dev) (f : Tether → Tether) : (d.adjTether f).gust = d.gust := rfl
@[simp] theorem Dev.adjTether_samp (d : Dev) (f : Tether → Tether) : (d.adjTether f).samp = d.samp := rfl
@[simp] theorem Dev.adjTether_dirtySet (d : Dev) (f : Tether → Tether) : (d.adjTether f).dirtySet = d.dirtySet := rfl
@[simp] theorem Dev.adjTether_unprot (d : Dev) (f : Tether → Tether) : (d.adjTether f).unprot = d.unprot := rfl
@[simp] theorem Dev.adjTether_outUnits (d : Dev) (f : Tether → Tether) : (d.adjTether f).outUnits = d.outUnits := rfl
@[simp] theorem Dev.adjTether_sweep (d : Dev) (f : Tether → Tether) : (d.adjTether f).sweep = d.sweep := rfl
@[simp] theorem Dev.adjTether_tap (d : Dev) (f : Tether → Tether) : (d.adjTether f).tap = d.tap := rfl
@[simp] theorem Dev.adjTether_unlocked (d : Dev) (f : Tether → Tether) : (d.adjTether f).unlocked = d.unlocked := rfl
@[simp] theorem Dev.adjTether_switched (d : Dev) (f : Tether → Tether) : (d.adjTether f).switched = d.switched := rfl
@[simp] theorem Dev.adjTether_busy (d : Dev) (f : Tether → Tether) : (d.adjTether f).busy = d.busy := rfl
@[simp] theorem Dev.adjTether_execBeats (d : Dev) (f : Tether → Tether) : (d.adjTether f).execBeats = d.execBeats := rfl
@[simp] theorem Dev.adjTether_slotAt (d : Dev) (f : Tether → Tether) : (d.adjTether f).slotAt = d.slotAt := rfl
@[simp] theorem Dev.adjTether_draws (d : Dev) (f : Tether → Tether) : (d.adjTether f).draws = d.draws := rfl
@[simp] theorem Dev.adjTether_out (d : Dev) (f : Tether → Tether) : (d.adjTether f).out = d.out := rfl
@[simp] theorem Dev.adjTether_effs (d : Dev) (f : Tether → Tether) : (d.adjTether f).effs = d.effs := rfl

@[simp] theorem Dev.adjBallast_state (d : Dev) (f : Ballast → Ballast) : (d.adjBallast f).state = d.state := rfl
@[simp] theorem Dev.adjBallast_objs (d : Dev) (f : Ballast → Ballast) : (d.adjBallast f).objs = d.objs := rfl
@[simp] theorem Dev.adjBallast_chg (d : Dev) (f : Ballast → Ballast) : (d.adjBallast f).chg = d.chg := rfl
@[simp] theorem Dev.adjBallast_facets (d : Dev) (f : Ballast → Ballast) : (d.adjBallast f).facets = d.facets := rfl
@[simp] theorem Dev.adjBallast_canopy (d : Dev) (f : Ballast → Ballast) : (d.adjBallast f).canopy = d.canopy := rfl
@[simp] theorem Dev.adjBallast_scans (d : Dev) (f : Ballast → Ballast) : (d.adjBallast f).scans = d.scans := rfl
@[simp] theorem Dev.adjBallast_resume (d : Dev) (f : Ballast → Ballast) : (d.adjBallast f).resume = d.resume := rfl
@[simp] theorem Dev.adjBallast_scanned (d : Dev) (f : Ballast → Ballast) : (d.adjBallast f).scanned = d.scanned := rfl
@[simp] theorem Dev.adjBallast_sync (d : Dev) (f : Ballast → Ballast) : (d.adjBallast f).sync = d.sync := rfl
@[simp] theorem Dev.adjBallast_engines (d : Dev) (f : Ballast → Ballast) : (d.adjBallast f).engines = d.engines := rfl
@[simp] theorem Dev.adjBallast_stepser (d : Dev) (f : Ballast → Ballast) : (d.adjBallast f).stepser = d.stepser := rfl
@[simp] theorem Dev.adjBallast_board (d : Dev) (f : Ballast → Ballast) : (d.adjBallast f).board = d.board := rfl
@[simp] theorem Dev.adjBallast_boardTag (d : Dev) (f : Ballast → Ballast) : (d.adjBallast f).boardTag = d.boardTag := rfl
@[simp] theorem Dev.adjBallast_spill (d : Dev) (f : Ballast → Ballast) : (d.adjBallast f).spill = d.spill := rfl
@[simp] theorem Dev.adjBallast_jobs (d : Dev) (f : Ballast → Ballast) : (d.adjBallast f).jobs = d.jobs := rfl
@[simp] theorem Dev.adjBallast_images (d : Dev) (f : Ballast → Ballast) : (d.adjBallast f).images = d.images := rfl
@[simp] theorem Dev.adjBallast_catalogs (d : Dev) (f : Ballast → Ballast) : (d.adjBallast f).catalogs = d.catalogs := rfl
@[simp] theorem Dev.adjBallast_reqs (d : Dev) (f : Ballast → Ballast) : (d.adjBallast f).reqs = d.reqs := rfl
@[simp] theorem Dev.adjBallast_digests (d : Dev) (f : Ballast → Ballast) : (d.adjBallast f).digests = d.digests := rfl
@[simp] theorem Dev.adjBallast_schanges (d : Dev) (f : Ballast → Ballast) : (d.adjBallast f).schanges = d.schanges := rfl
@[simp] theorem Dev.adjBallast_stepDue (d : Dev) (f : Ballast → Ballast) : (d.adjBallast f).stepDue = d.stepDue := rfl
@[simp] theorem Dev.adjBallast_bWaiting (d : Dev) (f : Ballast → Ballast) : (d.adjBallast f).bWaiting = d.bWaiting := rfl
@[simp] theorem Dev.adjBallast_ports (d : Dev) (f : Ballast → Ballast) : (d.adjBallast f).ports = d.ports := rfl
@[simp] theorem Dev.adjBallast_legs (d : Dev) (f : Ballast → Ballast) : (d.adjBallast f).legs = d.legs := rfl
@[simp] theorem Dev.adjBallast_routes (d : Dev) (f : Ballast → Ballast) : (d.adjBallast f).routes = d.routes := rfl
@[simp] theorem Dev.adjBallast_passRecs (d : Dev) (f : Ballast → Ballast) : (d.adjBallast f).passRecs = d.passRecs := rfl
@[simp] theorem Dev.adjBallast_gwCredits (d : Dev) (f : Ballast → Ballast) : (d.adjBallast f).gwCredits = d.gwCredits := rfl
@[simp] theorem Dev.adjBallast_tether (d : Dev) (f : Ballast → Ballast) : (d.adjBallast f).tether = d.tether := rfl
@[simp] theorem Dev.adjBallast_groups (d : Dev) (f : Ballast → Ballast) : (d.adjBallast f).groups = d.groups := rfl
@[simp] theorem Dev.adjBallast_finished (d : Dev) (f : Ballast → Ballast) : (d.adjBallast f).finished = d.finished := rfl
@[simp] theorem Dev.adjBallast_heldReplies (d : Dev) (f : Ballast → Ballast) : (d.adjBallast f).heldReplies = d.heldReplies := rfl
@[simp] theorem Dev.adjBallast_nextGroup (d : Dev) (f : Ballast → Ballast) : (d.adjBallast f).nextGroup = d.nextGroup := rfl
@[simp] theorem Dev.adjBallast_nextOrder (d : Dev) (f : Ballast → Ballast) : (d.adjBallast f).nextOrder = d.nextOrder := rfl
@[simp] theorem Dev.adjBallast_sessions (d : Dev) (f : Ballast → Ballast) : (d.adjBallast f).sessions = d.sessions := rfl
@[simp] theorem Dev.adjBallast_nonces (d : Dev) (f : Ballast → Ballast) : (d.adjBallast f).nonces = d.nonces := rfl
@[simp] theorem Dev.adjBallast_mgr (d : Dev) (f : Ballast → Ballast) : (d.adjBallast f).mgr = d.mgr := rfl
@[simp] theorem Dev.adjBallast_mgrRound (d : Dev) (f : Ballast → Ballast) : (d.adjBallast f).mgrRound = d.mgrRound := rfl
@[simp] theorem Dev.adjBallast_mgrBase (d : Dev) (f : Ballast → Ballast) : (d.adjBallast f).mgrBase = d.mgrBase := rfl
@[simp] theorem Dev.adjBallast_authFails (d : Dev) (f : Ballast → Ballast) : (d.adjBallast f).authFails = d.authFails := rfl
@[simp] theorem Dev.adjBallast_authRound (d : Dev) (f : Ballast → Ballast) : (d.adjBallast f).authRound = d.authRound := rfl
@[simp] theorem Dev.adjBallast_notified (d : Dev) (f : Ballast → Ballast) : (d.adjBallast f).notified = d.notified := rfl
@[simp] theorem Dev.adjBallast_notifyDue (d : Dev) (f : Ballast → Ballast) : (d.adjBallast f).notifyDue = d.notifyDue := rfl
@[simp] theorem Dev.adjBallast_alerts (d : Dev) (f : Ballast → Ballast) : (d.adjBallast f).alerts = d.alerts := rfl
@[simp] theorem Dev.adjBallast_portState (d : Dev) (f : Ballast → Ballast) : (d.adjBallast f).portState = d.portState := rfl
@[simp] theorem Dev.adjBallast_permits (d : Dev) (f : Ballast → Ballast) : (d.adjBallast f).permits = d.permits := rfl
@[simp] theorem Dev.adjBallast_nextPermit (d : Dev) (f : Ballast → Ballast) : (d.adjBallast f).nextPermit = d.nextPermit := rfl
@[simp] theorem Dev.adjBallast_comps (d : Dev) (f : Ballast → Ballast) : (d.adjBallast f).comps = d.comps := rfl
@[simp] theorem Dev.adjBallast_keys (d : Dev) (f : Ballast → Ballast) : (d.adjBallast f).keys = d.keys := rfl
@[simp] theorem Dev.adjBallast_ballast (d : Dev) (f : Ballast → Ballast) : (d.adjBallast f).ballast = f d.ballast := rfl
@[simp] theorem Dev.adjBallast_journal (d : Dev) (f : Ballast → Ballast) : (d.adjBallast f).journal = d.journal := rfl
@[simp] theorem Dev.adjBallast_boot (d : Dev) (f : Ballast → Ballast) : (d.adjBallast f).boot = d.boot := rfl
@[simp] theorem Dev.adjBallast_gust (d : Dev) (f : Ballast → Ballast) : (d.adjBallast f).gust = d.gust := rfl
@[simp] theorem Dev.adjBallast_samp (d : Dev) (f : Ballast → Ballast) : (d.adjBallast f).samp = d.samp := rfl
@[simp] theorem Dev.adjBallast_dirtySet (d : Dev) (f : Ballast → Ballast) : (d.adjBallast f).dirtySet = d.dirtySet := rfl
@[simp] theorem Dev.adjBallast_unprot (d : Dev) (f : Ballast → Ballast) : (d.adjBallast f).unprot = d.unprot := rfl
@[simp] theorem Dev.adjBallast_outUnits (d : Dev) (f : Ballast → Ballast) : (d.adjBallast f).outUnits = d.outUnits := rfl
@[simp] theorem Dev.adjBallast_sweep (d : Dev) (f : Ballast → Ballast) : (d.adjBallast f).sweep = d.sweep := rfl
@[simp] theorem Dev.adjBallast_tap (d : Dev) (f : Ballast → Ballast) : (d.adjBallast f).tap = d.tap := rfl
@[simp] theorem Dev.adjBallast_unlocked (d : Dev) (f : Ballast → Ballast) : (d.adjBallast f).unlocked = d.unlocked := rfl
@[simp] theorem Dev.adjBallast_switched (d : Dev) (f : Ballast → Ballast) : (d.adjBallast f).switched = d.switched := rfl
@[simp] theorem Dev.adjBallast_busy (d : Dev) (f : Ballast → Ballast) : (d.adjBallast f).busy = d.busy := rfl
@[simp] theorem Dev.adjBallast_execBeats (d : Dev) (f : Ballast → Ballast) : (d.adjBallast f).execBeats = d.execBeats := rfl
@[simp] theorem Dev.adjBallast_slotAt (d : Dev) (f : Ballast → Ballast) : (d.adjBallast f).slotAt = d.slotAt := rfl
@[simp] theorem Dev.adjBallast_draws (d : Dev) (f : Ballast → Ballast) : (d.adjBallast f).draws = d.draws := rfl
@[simp] theorem Dev.adjBallast_out (d : Dev) (f : Ballast → Ballast) : (d.adjBallast f).out = d.out := rfl
@[simp] theorem Dev.adjBallast_effs (d : Dev) (f : Ballast → Ballast) : (d.adjBallast f).effs = d.effs := rfl

@[simp] theorem Dev.adjBoot_state (d : Dev) (f : Boot → Boot) : (d.adjBoot f).state = d.state := rfl
@[simp] theorem Dev.adjBoot_objs (d : Dev) (f : Boot → Boot) : (d.adjBoot f).objs = d.objs := rfl
@[simp] theorem Dev.adjBoot_chg (d : Dev) (f : Boot → Boot) : (d.adjBoot f).chg = d.chg := rfl
@[simp] theorem Dev.adjBoot_facets (d : Dev) (f : Boot → Boot) : (d.adjBoot f).facets = d.facets := rfl
@[simp] theorem Dev.adjBoot_canopy (d : Dev) (f : Boot → Boot) : (d.adjBoot f).canopy = d.canopy := rfl
@[simp] theorem Dev.adjBoot_scans (d : Dev) (f : Boot → Boot) : (d.adjBoot f).scans = d.scans := rfl
@[simp] theorem Dev.adjBoot_resume (d : Dev) (f : Boot → Boot) : (d.adjBoot f).resume = d.resume := rfl
@[simp] theorem Dev.adjBoot_scanned (d : Dev) (f : Boot → Boot) : (d.adjBoot f).scanned = d.scanned := rfl
@[simp] theorem Dev.adjBoot_sync (d : Dev) (f : Boot → Boot) : (d.adjBoot f).sync = d.sync := rfl
@[simp] theorem Dev.adjBoot_engines (d : Dev) (f : Boot → Boot) : (d.adjBoot f).engines = d.engines := rfl
@[simp] theorem Dev.adjBoot_stepser (d : Dev) (f : Boot → Boot) : (d.adjBoot f).stepser = d.stepser := rfl
@[simp] theorem Dev.adjBoot_board (d : Dev) (f : Boot → Boot) : (d.adjBoot f).board = d.board := rfl
@[simp] theorem Dev.adjBoot_boardTag (d : Dev) (f : Boot → Boot) : (d.adjBoot f).boardTag = d.boardTag := rfl
@[simp] theorem Dev.adjBoot_spill (d : Dev) (f : Boot → Boot) : (d.adjBoot f).spill = d.spill := rfl
@[simp] theorem Dev.adjBoot_jobs (d : Dev) (f : Boot → Boot) : (d.adjBoot f).jobs = d.jobs := rfl
@[simp] theorem Dev.adjBoot_images (d : Dev) (f : Boot → Boot) : (d.adjBoot f).images = d.images := rfl
@[simp] theorem Dev.adjBoot_catalogs (d : Dev) (f : Boot → Boot) : (d.adjBoot f).catalogs = d.catalogs := rfl
@[simp] theorem Dev.adjBoot_reqs (d : Dev) (f : Boot → Boot) : (d.adjBoot f).reqs = d.reqs := rfl
@[simp] theorem Dev.adjBoot_digests (d : Dev) (f : Boot → Boot) : (d.adjBoot f).digests = d.digests := rfl
@[simp] theorem Dev.adjBoot_schanges (d : Dev) (f : Boot → Boot) : (d.adjBoot f).schanges = d.schanges := rfl
@[simp] theorem Dev.adjBoot_stepDue (d : Dev) (f : Boot → Boot) : (d.adjBoot f).stepDue = d.stepDue := rfl
@[simp] theorem Dev.adjBoot_bWaiting (d : Dev) (f : Boot → Boot) : (d.adjBoot f).bWaiting = d.bWaiting := rfl
@[simp] theorem Dev.adjBoot_ports (d : Dev) (f : Boot → Boot) : (d.adjBoot f).ports = d.ports := rfl
@[simp] theorem Dev.adjBoot_legs (d : Dev) (f : Boot → Boot) : (d.adjBoot f).legs = d.legs := rfl
@[simp] theorem Dev.adjBoot_routes (d : Dev) (f : Boot → Boot) : (d.adjBoot f).routes = d.routes := rfl
@[simp] theorem Dev.adjBoot_passRecs (d : Dev) (f : Boot → Boot) : (d.adjBoot f).passRecs = d.passRecs := rfl
@[simp] theorem Dev.adjBoot_gwCredits (d : Dev) (f : Boot → Boot) : (d.adjBoot f).gwCredits = d.gwCredits := rfl
@[simp] theorem Dev.adjBoot_tether (d : Dev) (f : Boot → Boot) : (d.adjBoot f).tether = d.tether := rfl
@[simp] theorem Dev.adjBoot_groups (d : Dev) (f : Boot → Boot) : (d.adjBoot f).groups = d.groups := rfl
@[simp] theorem Dev.adjBoot_finished (d : Dev) (f : Boot → Boot) : (d.adjBoot f).finished = d.finished := rfl
@[simp] theorem Dev.adjBoot_heldReplies (d : Dev) (f : Boot → Boot) : (d.adjBoot f).heldReplies = d.heldReplies := rfl
@[simp] theorem Dev.adjBoot_nextGroup (d : Dev) (f : Boot → Boot) : (d.adjBoot f).nextGroup = d.nextGroup := rfl
@[simp] theorem Dev.adjBoot_nextOrder (d : Dev) (f : Boot → Boot) : (d.adjBoot f).nextOrder = d.nextOrder := rfl
@[simp] theorem Dev.adjBoot_sessions (d : Dev) (f : Boot → Boot) : (d.adjBoot f).sessions = d.sessions := rfl
@[simp] theorem Dev.adjBoot_nonces (d : Dev) (f : Boot → Boot) : (d.adjBoot f).nonces = d.nonces := rfl
@[simp] theorem Dev.adjBoot_mgr (d : Dev) (f : Boot → Boot) : (d.adjBoot f).mgr = d.mgr := rfl
@[simp] theorem Dev.adjBoot_mgrRound (d : Dev) (f : Boot → Boot) : (d.adjBoot f).mgrRound = d.mgrRound := rfl
@[simp] theorem Dev.adjBoot_mgrBase (d : Dev) (f : Boot → Boot) : (d.adjBoot f).mgrBase = d.mgrBase := rfl
@[simp] theorem Dev.adjBoot_authFails (d : Dev) (f : Boot → Boot) : (d.adjBoot f).authFails = d.authFails := rfl
@[simp] theorem Dev.adjBoot_authRound (d : Dev) (f : Boot → Boot) : (d.adjBoot f).authRound = d.authRound := rfl
@[simp] theorem Dev.adjBoot_notified (d : Dev) (f : Boot → Boot) : (d.adjBoot f).notified = d.notified := rfl
@[simp] theorem Dev.adjBoot_notifyDue (d : Dev) (f : Boot → Boot) : (d.adjBoot f).notifyDue = d.notifyDue := rfl
@[simp] theorem Dev.adjBoot_alerts (d : Dev) (f : Boot → Boot) : (d.adjBoot f).alerts = d.alerts := rfl
@[simp] theorem Dev.adjBoot_portState (d : Dev) (f : Boot → Boot) : (d.adjBoot f).portState = d.portState := rfl
@[simp] theorem Dev.adjBoot_permits (d : Dev) (f : Boot → Boot) : (d.adjBoot f).permits = d.permits := rfl
@[simp] theorem Dev.adjBoot_nextPermit (d : Dev) (f : Boot → Boot) : (d.adjBoot f).nextPermit = d.nextPermit := rfl
@[simp] theorem Dev.adjBoot_comps (d : Dev) (f : Boot → Boot) : (d.adjBoot f).comps = d.comps := rfl
@[simp] theorem Dev.adjBoot_keys (d : Dev) (f : Boot → Boot) : (d.adjBoot f).keys = d.keys := rfl
@[simp] theorem Dev.adjBoot_ballast (d : Dev) (f : Boot → Boot) : (d.adjBoot f).ballast = d.ballast := rfl
@[simp] theorem Dev.adjBoot_journal (d : Dev) (f : Boot → Boot) : (d.adjBoot f).journal = d.journal := rfl
@[simp] theorem Dev.adjBoot_boot (d : Dev) (f : Boot → Boot) : (d.adjBoot f).boot = f d.boot := rfl
@[simp] theorem Dev.adjBoot_gust (d : Dev) (f : Boot → Boot) : (d.adjBoot f).gust = d.gust := rfl
@[simp] theorem Dev.adjBoot_samp (d : Dev) (f : Boot → Boot) : (d.adjBoot f).samp = d.samp := rfl
@[simp] theorem Dev.adjBoot_dirtySet (d : Dev) (f : Boot → Boot) : (d.adjBoot f).dirtySet = d.dirtySet := rfl
@[simp] theorem Dev.adjBoot_unprot (d : Dev) (f : Boot → Boot) : (d.adjBoot f).unprot = d.unprot := rfl
@[simp] theorem Dev.adjBoot_outUnits (d : Dev) (f : Boot → Boot) : (d.adjBoot f).outUnits = d.outUnits := rfl
@[simp] theorem Dev.adjBoot_sweep (d : Dev) (f : Boot → Boot) : (d.adjBoot f).sweep = d.sweep := rfl
@[simp] theorem Dev.adjBoot_tap (d : Dev) (f : Boot → Boot) : (d.adjBoot f).tap = d.tap := rfl
@[simp] theorem Dev.adjBoot_unlocked (d : Dev) (f : Boot → Boot) : (d.adjBoot f).unlocked = d.unlocked := rfl
@[simp] theorem Dev.adjBoot_switched (d : Dev) (f : Boot → Boot) : (d.adjBoot f).switched = d.switched := rfl
@[simp] theorem Dev.adjBoot_busy (d : Dev) (f : Boot → Boot) : (d.adjBoot f).busy = d.busy := rfl
@[simp] theorem Dev.adjBoot_execBeats (d : Dev) (f : Boot → Boot) : (d.adjBoot f).execBeats = d.execBeats := rfl
@[simp] theorem Dev.adjBoot_slotAt (d : Dev) (f : Boot → Boot) : (d.adjBoot f).slotAt = d.slotAt := rfl
@[simp] theorem Dev.adjBoot_draws (d : Dev) (f : Boot → Boot) : (d.adjBoot f).draws = d.draws := rfl
@[simp] theorem Dev.adjBoot_out (d : Dev) (f : Boot → Boot) : (d.adjBoot f).out = d.out := rfl
@[simp] theorem Dev.adjBoot_effs (d : Dev) (f : Boot → Boot) : (d.adjBoot f).effs = d.effs := rfl

@[simp] theorem Dev.adjJournal_state (d : Dev) (f : Journal → Journal) : (d.adjJournal f).state = d.state := rfl
@[simp] theorem Dev.adjJournal_objs (d : Dev) (f : Journal → Journal) : (d.adjJournal f).objs = d.objs := rfl
@[simp] theorem Dev.adjJournal_chg (d : Dev) (f : Journal → Journal) : (d.adjJournal f).chg = d.chg := rfl
@[simp] theorem Dev.adjJournal_facets (d : Dev) (f : Journal → Journal) : (d.adjJournal f).facets = d.facets := rfl
@[simp] theorem Dev.adjJournal_canopy (d : Dev) (f : Journal → Journal) : (d.adjJournal f).canopy = d.canopy := rfl
@[simp] theorem Dev.adjJournal_scans (d : Dev) (f : Journal → Journal) : (d.adjJournal f).scans = d.scans := rfl
@[simp] theorem Dev.adjJournal_resume (d : Dev) (f : Journal → Journal) : (d.adjJournal f).resume = d.resume := rfl
@[simp] theorem Dev.adjJournal_scanned (d : Dev) (f : Journal → Journal) : (d.adjJournal f).scanned = d.scanned := rfl
@[simp] theorem Dev.adjJournal_sync (d : Dev) (f : Journal → Journal) : (d.adjJournal f).sync = d.sync := rfl
@[simp] theorem Dev.adjJournal_engines (d : Dev) (f : Journal → Journal) : (d.adjJournal f).engines = d.engines := rfl
@[simp] theorem Dev.adjJournal_stepser (d : Dev) (f : Journal → Journal) : (d.adjJournal f).stepser = d.stepser := rfl
@[simp] theorem Dev.adjJournal_board (d : Dev) (f : Journal → Journal) : (d.adjJournal f).board = d.board := rfl
@[simp] theorem Dev.adjJournal_boardTag (d : Dev) (f : Journal → Journal) : (d.adjJournal f).boardTag = d.boardTag := rfl
@[simp] theorem Dev.adjJournal_spill (d : Dev) (f : Journal → Journal) : (d.adjJournal f).spill = d.spill := rfl
@[simp] theorem Dev.adjJournal_jobs (d : Dev) (f : Journal → Journal) : (d.adjJournal f).jobs = d.jobs := rfl
@[simp] theorem Dev.adjJournal_images (d : Dev) (f : Journal → Journal) : (d.adjJournal f).images = d.images := rfl
@[simp] theorem Dev.adjJournal_catalogs (d : Dev) (f : Journal → Journal) : (d.adjJournal f).catalogs = d.catalogs := rfl
@[simp] theorem Dev.adjJournal_reqs (d : Dev) (f : Journal → Journal) : (d.adjJournal f).reqs = d.reqs := rfl
@[simp] theorem Dev.adjJournal_digests (d : Dev) (f : Journal → Journal) : (d.adjJournal f).digests = d.digests := rfl
@[simp] theorem Dev.adjJournal_schanges (d : Dev) (f : Journal → Journal) : (d.adjJournal f).schanges = d.schanges := rfl
@[simp] theorem Dev.adjJournal_stepDue (d : Dev) (f : Journal → Journal) : (d.adjJournal f).stepDue = d.stepDue := rfl
@[simp] theorem Dev.adjJournal_bWaiting (d : Dev) (f : Journal → Journal) : (d.adjJournal f).bWaiting = d.bWaiting := rfl
@[simp] theorem Dev.adjJournal_ports (d : Dev) (f : Journal → Journal) : (d.adjJournal f).ports = d.ports := rfl
@[simp] theorem Dev.adjJournal_legs (d : Dev) (f : Journal → Journal) : (d.adjJournal f).legs = d.legs := rfl
@[simp] theorem Dev.adjJournal_routes (d : Dev) (f : Journal → Journal) : (d.adjJournal f).routes = d.routes := rfl
@[simp] theorem Dev.adjJournal_passRecs (d : Dev) (f : Journal → Journal) : (d.adjJournal f).passRecs = d.passRecs := rfl
@[simp] theorem Dev.adjJournal_gwCredits (d : Dev) (f : Journal → Journal) : (d.adjJournal f).gwCredits = d.gwCredits := rfl
@[simp] theorem Dev.adjJournal_tether (d : Dev) (f : Journal → Journal) : (d.adjJournal f).tether = d.tether := rfl
@[simp] theorem Dev.adjJournal_groups (d : Dev) (f : Journal → Journal) : (d.adjJournal f).groups = d.groups := rfl
@[simp] theorem Dev.adjJournal_finished (d : Dev) (f : Journal → Journal) : (d.adjJournal f).finished = d.finished := rfl
@[simp] theorem Dev.adjJournal_heldReplies (d : Dev) (f : Journal → Journal) : (d.adjJournal f).heldReplies = d.heldReplies := rfl
@[simp] theorem Dev.adjJournal_nextGroup (d : Dev) (f : Journal → Journal) : (d.adjJournal f).nextGroup = d.nextGroup := rfl
@[simp] theorem Dev.adjJournal_nextOrder (d : Dev) (f : Journal → Journal) : (d.adjJournal f).nextOrder = d.nextOrder := rfl
@[simp] theorem Dev.adjJournal_sessions (d : Dev) (f : Journal → Journal) : (d.adjJournal f).sessions = d.sessions := rfl
@[simp] theorem Dev.adjJournal_nonces (d : Dev) (f : Journal → Journal) : (d.adjJournal f).nonces = d.nonces := rfl
@[simp] theorem Dev.adjJournal_mgr (d : Dev) (f : Journal → Journal) : (d.adjJournal f).mgr = d.mgr := rfl
@[simp] theorem Dev.adjJournal_mgrRound (d : Dev) (f : Journal → Journal) : (d.adjJournal f).mgrRound = d.mgrRound := rfl
@[simp] theorem Dev.adjJournal_mgrBase (d : Dev) (f : Journal → Journal) : (d.adjJournal f).mgrBase = d.mgrBase := rfl
@[simp] theorem Dev.adjJournal_authFails (d : Dev) (f : Journal → Journal) : (d.adjJournal f).authFails = d.authFails := rfl
@[simp] theorem Dev.adjJournal_authRound (d : Dev) (f : Journal → Journal) : (d.adjJournal f).authRound = d.authRound := rfl
@[simp] theorem Dev.adjJournal_notified (d : Dev) (f : Journal → Journal) : (d.adjJournal f).notified = d.notified := rfl
@[simp] theorem Dev.adjJournal_notifyDue (d : Dev) (f : Journal → Journal) : (d.adjJournal f).notifyDue = d.notifyDue := rfl
@[simp] theorem Dev.adjJournal_alerts (d : Dev) (f : Journal → Journal) : (d.adjJournal f).alerts = d.alerts := rfl
@[simp] theorem Dev.adjJournal_portState (d : Dev) (f : Journal → Journal) : (d.adjJournal f).portState = d.portState := rfl
@[simp] theorem Dev.adjJournal_permits (d : Dev) (f : Journal → Journal) : (d.adjJournal f).permits = d.permits := rfl
@[simp] theorem Dev.adjJournal_nextPermit (d : Dev) (f : Journal → Journal) : (d.adjJournal f).nextPermit = d.nextPermit := rfl
@[simp] theorem Dev.adjJournal_comps (d : Dev) (f : Journal → Journal) : (d.adjJournal f).comps = d.comps := rfl
@[simp] theorem Dev.adjJournal_keys (d : Dev) (f : Journal → Journal) : (d.adjJournal f).keys = d.keys := rfl
@[simp] theorem Dev.adjJournal_ballast (d : Dev) (f : Journal → Journal) : (d.adjJournal f).ballast = d.ballast := rfl
@[simp] theorem Dev.adjJournal_journal (d : Dev) (f : Journal → Journal) : (d.adjJournal f).journal = f d.journal := rfl
@[simp] theorem Dev.adjJournal_boot (d : Dev) (f : Journal → Journal) : (d.adjJournal f).boot = d.boot := rfl
@[simp] theorem Dev.adjJournal_gust (d : Dev) (f : Journal → Journal) : (d.adjJournal f).gust = d.gust := rfl
@[simp] theorem Dev.adjJournal_samp (d : Dev) (f : Journal → Journal) : (d.adjJournal f).samp = d.samp := rfl
@[simp] theorem Dev.adjJournal_dirtySet (d : Dev) (f : Journal → Journal) : (d.adjJournal f).dirtySet = d.dirtySet := rfl
@[simp] theorem Dev.adjJournal_unprot (d : Dev) (f : Journal → Journal) : (d.adjJournal f).unprot = d.unprot := rfl
@[simp] theorem Dev.adjJournal_outUnits (d : Dev) (f : Journal → Journal) : (d.adjJournal f).outUnits = d.outUnits := rfl
@[simp] theorem Dev.adjJournal_sweep (d : Dev) (f : Journal → Journal) : (d.adjJournal f).sweep = d.sweep := rfl
@[simp] theorem Dev.adjJournal_tap (d : Dev) (f : Journal → Journal) : (d.adjJournal f).tap = d.tap := rfl
@[simp] theorem Dev.adjJournal_unlocked (d : Dev) (f : Journal → Journal) : (d.adjJournal f).unlocked = d.unlocked := rfl
@[simp] theorem Dev.adjJournal_switched (d : Dev) (f : Journal → Journal) : (d.adjJournal f).switched = d.switched := rfl
@[simp] theorem Dev.adjJournal_busy (d : Dev) (f : Journal → Journal) : (d.adjJournal f).busy = d.busy := rfl
@[simp] theorem Dev.adjJournal_execBeats (d : Dev) (f : Journal → Journal) : (d.adjJournal f).execBeats = d.execBeats := rfl
@[simp] theorem Dev.adjJournal_slotAt (d : Dev) (f : Journal → Journal) : (d.adjJournal f).slotAt = d.slotAt := rfl
@[simp] theorem Dev.adjJournal_draws (d : Dev) (f : Journal → Journal) : (d.adjJournal f).draws = d.draws := rfl
@[simp] theorem Dev.adjJournal_out (d : Dev) (f : Journal → Journal) : (d.adjJournal f).out = d.out := rfl
@[simp] theorem Dev.adjJournal_effs (d : Dev) (f : Journal → Journal) : (d.adjJournal f).effs = d.effs := rfl

end Sys2Proof.Machine
end

