-- ==== Sys2Proof/Laws/Step.lean ====
section
/-!
SUPPORT. What a step can do: every command acts on the device and then settles its effects; a step runs the command in front.
-/

namespace Sys2Proof.Machine

/-- Every command of the block is one action on the device, whose effects are then settled. -/
theorem exec_onDev (i : Instr) (s : State) : ∃ act, exec i s = onDev s act :=
  match i with
  | .beatBoundary env => show ∃ act, execBeatBoundary env s = onDev s act from ⟨_, rfl⟩
  | .roundBoundary env margin => show ∃ act, execRoundBoundary env margin s = onDev s act from ⟨_, rfl⟩
  | .beatrefLoss => show ∃ act, execBeatrefLoss s = onDev s act from ⟨_, rfl⟩
  | .holdoverExit => show ∃ act, execHoldoverExit s = onDev s act from ⟨_, rfl⟩
  | .iterationStart facet => show ∃ act, execIterationStart facet s = onDev s act from ⟨_, rfl⟩
  | .stallRelease facet => show ∃ act, execStallRelease facet s = onDev s act from ⟨_, rfl⟩
  | .passComplete facet bank => show ∃ act, execPassComplete facet bank s = onDev s act from ⟨_, rfl⟩
  | .flitArrival facet => show ∃ act, execFlitArrival facet s = onDev s act from ⟨_, rfl⟩
  | .creditReturn facet queue => show ∃ act, execCreditReturn facet queue s = onDev s act from ⟨_, rfl⟩
  | .exactAddGroup facet queue => show ∃ act, execExactAddGroup facet queue s = onDev s act from ⟨_, rfl⟩
  | .nop facet unit => show ∃ act, execNop facet unit s = onDev s act from ⟨_, rfl⟩
  | .issue facet => show ∃ act, execIssue facet s = onDev s act from ⟨_, rfl⟩
  | .mov facet => show ∃ act, execMov facet s = onDev s act from ⟨_, rfl⟩
  | .add facet => show ∃ act, execAdd facet s = onDev s act from ⟨_, rfl⟩
  | .sub facet => show ∃ act, execSub facet s = onDev s act from ⟨_, rfl⟩
  | .mul facet => show ∃ act, execMul facet s = onDev s act from ⟨_, rfl⟩
  | .fma facet => show ∃ act, execFma facet s = onDev s act from ⟨_, rfl⟩
  | .max facet => show ∃ act, execMax facet s = onDev s act from ⟨_, rfl⟩
  | .min facet => show ∃ act, execMin facet s = onDev s act from ⟨_, rfl⟩
  | .scale facet => show ∃ act, execScale facet s = onDev s act from ⟨_, rfl⟩
  | .bcast facet => show ∃ act, execBcast facet s = onDev s act from ⟨_, rfl⟩
  | .exp2 facet => show ∃ act, execExp2 facet s = onDev s act from ⟨_, rfl⟩
  | .rcp facet => show ∃ act, execRcp facet s = onDev s act from ⟨_, rfl⟩
  | .rsqrt facet => show ∃ act, execRsqrt facet s = onDev s act from ⟨_, rfl⟩
  | .rsum facet => show ∃ act, execRsum facet s = onDev s act from ⟨_, rfl⟩
  | .rmax facet => show ∃ act, execRmax facet s = onDev s act from ⟨_, rfl⟩
  | .rmaxi facet => show ∃ act, execRmaxi facet s = onDev s act from ⟨_, rfl⟩
  | .iadd facet => show ∃ act, execIadd facet s = onDev s act from ⟨_, rfl⟩
  | .psum facet => show ∃ act, execPsum facet s = onDev s act from ⟨_, rfl⟩
  | .top2 facet => show ∃ act, execTop2 facet s = onDev s act from ⟨_, rfl⟩
  | .cvt facet => show ∃ act, execCvt facet s = onDev s act from ⟨_, rfl⟩
  | .xadd facet => show ∃ act, execXadd facet s = onDev s act from ⟨_, rfl⟩
  | .xrd facet => show ∃ act, execXrd facet s = onDev s act from ⟨_, rfl⟩
  | .xclr facet => show ∃ act, execXclr facet s = onDev s act from ⟨_, rfl⟩
  | .ld facet => show ∃ act, execLd facet s = onDev s act from ⟨_, rfl⟩
  | .st facet => show ∃ act, execSt facet s = onDev s act from ⟨_, rfl⟩
  | .saddi facet => show ∃ act, execSaddi facet s = onDev s act from ⟨_, rfl⟩
  | .loop facet => show ∃ act, execLoop facet s = onDev s act from ⟨_, rfl⟩
  | .endIteration facet => show ∃ act, execEndIteration facet s = onDev s act from ⟨_, rfl⟩
  | .swait facet => show ∃ act, execSwait facet s = onDev s act from ⟨_, rfl⟩
  | .ssig facet => show ∃ act, execSsig facet s = onDev s act from ⟨_, rfl⟩
  | .fadd32 facet => show ∃ act, execFadd32 facet s = onDev s act from ⟨_, rfl⟩
  | .fadd64 facet => show ∃ act, execFadd64 facet s = onDev s act from ⟨_, rfl⟩
  | .waitl facet => show ∃ act, execWaitl facet s = onDev s act from ⟨_, rfl⟩
  | .waitw facet => show ∃ act, execWaitw facet s = onDev s act from ⟨_, rfl⟩
  | .gondolaLoad gondola addr len secure env => show ∃ act, execGondolaLoad gondola addr len secure env s = onDev s act from ⟨_, rfl⟩
  | .gondolaStore gondola addr data secure env => show ∃ act, execGondolaStore gondola addr data secure env s = onDev s act from ⟨_, rfl⟩
  | .fetchAdd32 gondola addr operand => show ∃ act, execFetchAdd32 gondola addr operand s = onDev s act from ⟨_, rfl⟩
  | .fetchAdd64 gondola addr operand => show ∃ act, execFetchAdd64 gondola addr operand s = onDev s act from ⟨_, rfl⟩
  | .swap gondola addr data => show ∃ act, execSwap gondola addr data s = onDev s act from ⟨_, rfl⟩
  | .wserial gondola facet window value => show ∃ act, execWserial gondola facet window value s = onDev s act from ⟨_, rfl⟩
  | .registerWrite target value => show ∃ act, execRegisterWrite target value s = onDev s act from ⟨_, rfl⟩
  | .scanOut ring tag => show ∃ act, execScanOut ring tag s = onDev s act from ⟨_, rfl⟩
  | .scanHold comp => show ∃ act, execScanHold comp s = onDev s act from ⟨_, rfl⟩
  | .scanRecordCommit comp facet => show ∃ act, execScanRecordCommit comp facet s = onDev s act from ⟨_, rfl⟩
  | .scanIn ring tag tagOk => show ∃ act, execScanIn ring tag tagOk s = onDev s act from ⟨_, rfl⟩
  | .submit gondola engine desc => show ∃ act, execSubmit gondola engine desc s = onDev s act from ⟨_, rfl⟩
  | .start gondola engine index => show ∃ act, execStart gondola engine index s = onDev s act from ⟨_, rfl⟩
  | .winchAbort gondola engine record => show ∃ act, execWinchAbort gondola engine record s = onDev s act from ⟨_, rfl⟩
  | .descriptorStart engine => show ∃ act, execDescriptorStart engine s = onDev s act from ⟨_, rfl⟩
  | .elementTransfer engine record env => show ∃ act, execElementTransfer engine record env s = onDev s act from ⟨_, rfl⟩
  | .descriptorComplete engine record => show ∃ act, execDescriptorComplete engine record s = onDev s act from ⟨_, rfl⟩
  | .descriptorFail engine record => show ∃ act, execDescriptorFail engine record s = onDev s act from ⟨_, rfl⟩
  | .boardRead msg env => show ∃ act, execBoardRead msg env s = onDev s act from ⟨_, rfl⟩
  | .boardWrite msg env => show ∃ act, execBoardWrite msg env s = onDev s act from ⟨_, rfl⟩
  | .boardFetchAdd32 msg => show ∃ act, execBoardFetchAdd32 msg s = onDev s act from ⟨_, rfl⟩
  | .boardFetchAdd64 msg => show ∃ act, execBoardFetchAdd64 msg s = onDev s act from ⟨_, rfl⟩
  | .boardSwap msg => show ∃ act, execBoardSwap msg s = onDev s act from ⟨_, rfl⟩
  | .readData msg => show ∃ act, execReadData msg s = onDev s act from ⟨_, rfl⟩
  | .writeAcknowledge msg => show ∃ act, execWriteAcknowledge msg s = onDev s act from ⟨_, rfl⟩
  | .atomicResult msg => show ∃ act, execAtomicResult msg s = onDev s act from ⟨_, rfl⟩
  | .refresh unit multiple => show ∃ act, execRefresh unit multiple s = onDev s act from ⟨_, rfl⟩
  | .periodicRetraining => show ∃ act, execPeriodicRetraining s = onDev s act from ⟨_, rfl⟩
  | .memoryTrainingDone gddrOk lpOk densityOk rate => show ∃ act, execMemoryTrainingDone gddrOk lpOk densityOk rate s = onDev s act from ⟨_, rfl⟩
  | .trainingStart => show ∃ act, execTrainingStart s = onDev s act from ⟨_, rfl⟩
  | .jobStart ring tag host => show ∃ act, execJobStart ring tag host s = onDev s act from ⟨_, rfl⟩
  | .formationConfirmation job rank confirm => show ∃ act, execFormationConfirmation job rank confirm s = onDev s act from ⟨_, rfl⟩
  | .formationTimeout job => show ∃ act, execFormationTimeout job s = onDev s act from ⟨_, rfl⟩
  | .probeCheckTimeout job => show ∃ act, execProbeCheckTimeout job s = onDev s act from ⟨_, rfl⟩
  | .imageArrival job image => show ∃ act, execImageArrival job image s = onDev s act from ⟨_, rfl⟩
  | .loaderComplete job sigOk micros => show ∃ act, execLoaderComplete job sigOk micros s = onDev s act from ⟨_, rfl⟩
  | .jobEndDrain ring tag => show ∃ act, execJobEndDrain ring tag s = onDev s act from ⟨_, rfl⟩
  | .jobEndCancel ring tag => show ∃ act, execJobEndCancel ring tag s = onDev s act from ⟨_, rfl⟩
  | .jobResourceRelease job => show ∃ act, execJobResourceRelease job s = onDev s act from ⟨_, rfl⟩
  | .weightRegionRelease job => show ∃ act, execWeightRegionRelease job s = onDev s act from ⟨_, rfl⟩
  | .admitReq ring tag tokens => show ∃ act, execAdmitReq ring tag tokens s = onDev s act from ⟨_, rfl⟩
  | .append ring tag tokens => show ∃ act, execAppend ring tag tokens s = onDev s act from ⟨_, rfl⟩
  | .cancel ring tag => show ∃ act, execCancel ring tag s = onDev s act from ⟨_, rfl⟩
  | .trim ring tag => show ∃ act, execTrim ring tag s = onDev s act from ⟨_, rfl⟩
  | .setMaskNone ring tag => show ∃ act, execSetMaskNone ring tag s = onDev s act from ⟨_, rfl⟩
  | .setMaskAllowList ring tag tokens => show ∃ act, execSetMaskAllowList ring tag tokens s = onDev s act from ⟨_, rfl⟩
  | .setMaskAutomaton ring tag => show ∃ act, execSetMaskAutomaton ring tag s = onDev s act from ⟨_, rfl⟩
  | .loadAutomaton ring tag bytes => show ∃ act, execLoadAutomaton ring tag bytes s = onDev s act from ⟨_, rfl⟩
  | .catalogLoad ring tag digest => show ∃ act, execCatalogLoad ring tag digest s = onDev s act from ⟨_, rfl⟩
  | .catalogSwap ring tag => show ∃ act, execCatalogSwap ring tag s = onDev s act from ⟨_, rfl⟩
  | .catalogEvict ring tag => show ∃ act, execCatalogEvict ring tag s = onDev s act from ⟨_, rfl⟩
  | .step ring tag record => show ∃ act, execStep ring tag record s = onDev s act from ⟨_, rfl⟩
  | .stepStart job => show ∃ act, execStepStart job s = onDev s act from ⟨_, rfl⟩
  | .roundPlan ring tag => show ∃ act, execRoundPlan ring tag s = onDev s act from ⟨_, rfl⟩
  | .roundPlanForward job member layer group serial rounds => show ∃ act, execRoundPlanForward job member layer group serial rounds s = onDev s act from ⟨_, rfl⟩
  | .planRelease job layer group => show ∃ act, execPlanRelease job layer group s = onDev s act from ⟨_, rfl⟩
  | .countCompletion job layer group => show ∃ act, execCountCompletion job layer group s = onDev s act from ⟨_, rfl⟩
  | .stagingRecord job serial start groups rows table outcomes => show ∃ act, execStagingRecord job serial start groups rows table outcomes s = onDev s act from ⟨_, rfl⟩
  | .liftStart job wset recB => show ∃ act, execLiftStart job wset recB s = onDev s act from ⟨_, rfl⟩
  | .liftComplete job wset recB member gone => show ∃ act, execLiftComplete job wset recB member gone s = onDev s act from ⟨_, rfl⟩
  | .doneBeat job results digestBeats => show ∃ act, execDoneBeat job results digestBeats s = onDev s act from ⟨_, rfl⟩
  | .doneBeatMessage job rank beat flags => show ∃ act, execDoneBeatMessage job rank beat flags s = onDev s act from ⟨_, rfl⟩
  | .stepBoundary job => show ∃ act, execStepBoundary job s = onDev s act from ⟨_, rfl⟩
  | .stuckStep job => show ∃ act, execStuckStep job s = onDev s act from ⟨_, rfl⟩
  | .drainComplete comp => show ∃ act, execDrainComplete comp s = onDev s act from ⟨_, rfl⟩
  | .drainBeatMessage comp rank beat => show ∃ act, execDrainBeatMessage comp rank beat s = onDev s act from ⟨_, rfl⟩
  | .flip comp => show ∃ act, execFlip comp s = onDev s act from ⟨_, rfl⟩
  | .forcedReconfiguration comp => show ∃ act, execForcedReconfiguration comp s = onDev s act from ⟨_, rfl⟩
  | .signalDetected port => show ∃ act, execSignalDetected port s = onDev s act from ⟨_, rfl⟩
  | .lanesLocked port lanes flight residual rtt => show ∃ act, execLanesLocked port lanes flight residual rtt s = onDev s act from ⟨_, rfl⟩
  | .trainingTimeout port => show ∃ act, execTrainingTimeout port s = onDev s act from ⟨_, rfl⟩
  | .identity port frame fec => show ∃ act, execIdentity port frame fec s = onDev s act from ⟨_, rfl⟩
  | .lossOfSignal port => show ∃ act, execLossOfSignal port s = onDev s act from ⟨_, rfl⟩
  | .markerLoss port => show ∃ act, execMarkerLoss port s = onDev s act from ⟨_, rfl⟩
  | .heartbeatLoss port => show ∃ act, execHeartbeatLoss port s = onDev s act from ⟨_, rfl⟩
  | .resendLimit port => show ∃ act, execResendLimit port s = onDev s act from ⟨_, rfl⟩
  | .skewLimit port => show ∃ act, execSkewLimit port s = onDev s act from ⟨_, rfl⟩
  | .downRetry port => show ∃ act, execDownRetry port s = onDev s act from ⟨_, rfl⟩
  | .data port frame tagOk fec => show ∃ act, execData port frame tagOk fec s = onDev s act from ⟨_, rfl⟩
  | .idle port frame fec => show ∃ act, execIdle port frame fec s = onDev s act from ⟨_, rfl⟩
  | .marker port frame flight residual fec => show ∃ act, execMarker port frame flight residual fec s = onDev s act from ⟨_, rfl⟩
  | .heartbeatFrame port frame fec => show ∃ act, execHeartbeatFrame port frame fec s = onDev s act from ⟨_, rfl⟩
  | .probe port frame fec => show ∃ act, execProbe port frame fec s = onDev s act from ⟨_, rfl⟩
  | .badFrame port raw uncorrectable fec => show ∃ act, execBadFrame port raw uncorrectable fec s = onDev s act from ⟨_, rfl⟩
  | .probeSend job leg => show ∃ act, execProbeSend job leg s = onDev s act from ⟨_, rfl⟩
  | .legBroken job leg => show ∃ act, execLegBroken job leg s = onDev s act from ⟨_, rfl⟩
  | .laneChangeDone port lanes flight residual rtt => show ∃ act, execLaneChangeDone port lanes flight residual rtt s = onDev s act from ⟨_, rfl⟩
  | .tetherLanesLocked low high => show ∃ act, execTetherLanesLocked low high s = onDev s act from ⟨_, rfl⟩
  | .tetherTrainingTimeout => show ∃ act, execTetherTrainingTimeout s = onDev s act from ⟨_, rfl⟩
  | .tetherFrameLoss => show ∃ act, execTetherFrameLoss s = onDev s act from ⟨_, rfl⟩
  | .tetherDownRetry => show ∃ act, execTetherDownRetry s = onDev s act from ⟨_, rfl⟩
  | .sqtail ring value => show ∃ act, execSqtail ring value s = onDev s act from ⟨_, rfl⟩
  | .cqhead ring value => show ∃ act, execCqhead ring value s = onDev s act from ⟨_, rfl⟩
  | .aperture comp offset data => show ∃ act, execAperture comp offset data s = onDev s act from ⟨_, rfl⟩
  | .ringFetch => show ∃ act, execRingFetch s = onDev s act from ⟨_, rfl⟩
  | .rdata tag status data => show ∃ act, execRdata tag status data s = onDev s act from ⟨_, rfl⟩
  | .tetherReadTimeout tag => show ∃ act, execTetherReadTimeout tag s = onDev s act from ⟨_, rfl⟩
  | .completionWrite ring => show ∃ act, execCompletionWrite ring s = onDev s act from ⟨_, rfl⟩
  | .abort ring tag => show ∃ act, execAbort ring tag s = onDev s act from ⟨_, rfl⟩
  | .dictRead ring tag msg => show ∃ act, execDictRead ring tag msg s = onDev s act from ⟨_, rfl⟩
  | .dictWrite ring tag msg => show ∃ act, execDictWrite ring tag msg s = onDev s act from ⟨_, rfl⟩
  | .dictCommit ring tag msg => show ∃ act, execDictCommit ring tag msg s = onDev s act from ⟨_, rfl⟩
  | .hello msg => show ∃ act, execHello msg s = onDev s act from ⟨_, rfl⟩
  | .sessionOpen msg => show ∃ act, execSessionOpen msg s = onDev s act from ⟨_, rfl⟩
  | .sessionClose msg => show ∃ act, execSessionClose msg s = onDev s act from ⟨_, rfl⟩
  | .heartbeat msg => show ∃ act, execHeartbeat msg s = onDev s act from ⟨_, rfl⟩
  | .read msg => show ∃ act, execRead msg s = onDev s act from ⟨_, rfl⟩
  | .list msg => show ∃ act, execList msg s = onDev s act from ⟨_, rfl⟩
  | .segRead msg => show ∃ act, execSegRead msg s = onDev s act from ⟨_, rfl⟩
  | .write msg => show ∃ act, execWrite msg s = onDev s act from ⟨_, rfl⟩
  | .groupOpen msg => show ∃ act, execGroupOpen msg s = onDev s act from ⟨_, rfl⟩
  | .stage msg => show ∃ act, execStage msg s = onDev s act from ⟨_, rfl⟩
  | .segWrite msg => show ∃ act, execSegWrite msg s = onDev s act from ⟨_, rfl⟩
  | .groupAbort msg => show ∃ act, execGroupAbort msg s = onDev s act from ⟨_, rfl⟩
  | .commit msg => show ∃ act, execCommit msg s = onDev s act from ⟨_, rfl⟩
  | .groupCommit group => show ∃ act, execGroupCommit group s = onDev s act from ⟨_, rfl⟩
  | .groupIdleExpiry group => show ∃ act, execGroupIdleExpiry group s = onDev s act from ⟨_, rfl⟩
  | .sessionIdleTimeout session => show ∃ act, execSessionIdleTimeout session s = onDev s act from ⟨_, rfl⟩
  | .orphanTimeout => show ∃ act, execOrphanTimeout s = onDev s act from ⟨_, rfl⟩
  | .neighborSolicitation client net => show ∃ act, execNeighborSolicitation client net s = onDev s act from ⟨_, rfl⟩
  | .echoRequest client net data => show ∃ act, execEchoRequest client net data s = onDev s act from ⟨_, rfl⟩
  | .phyLinkUp => show ∃ act, execPhyLinkUp s = onDev s act from ⟨_, rfl⟩
  | .duplicateAddressDetection duplicate => show ∃ act, execDuplicateAddressDetection duplicate s = onDev s act from ⟨_, rfl⟩
  | .permitExpiry permit => show ∃ act, execPermitExpiry permit s = onDev s act from ⟨_, rfl⟩
  | .fuseWriteDone => show ∃ act, execFuseWriteDone s = onDev s act from ⟨_, rfl⟩
  | .tamperN => show ∃ act, execTamperN s = onDev s act from ⟨_, rfl⟩
  | .glitchSensor kind => show ∃ act, execGlitchSensor kind s = onDev s act from ⟨_, rfl⟩
  | .teardownWaitEnd comp => show ∃ act, execTeardownWaitEnd comp s = onDev s act from ⟨_, rfl⟩
  | .scrubDone comp badDevices badPackages => show ∃ act, execScrubDone comp badDevices badPackages s = onDev s act from ⟨_, rfl⟩
  | .vddCoreInTolerance => show ∃ act, execVddCoreInTolerance s = onDev s act from ⟨_, rfl⟩
  | .clockRelock => show ∃ act, execClockRelock s = onDev s act from ⟨_, rfl⟩
  | .gddr7RetrainingDone => show ∃ act, execGddr7RetrainingDone s = onDev s act from ⟨_, rfl⟩
  | .pmbusPoll core sram => show ∃ act, execPmbusPoll core sram s = onDev s act from ⟨_, rfl⟩
  | .pmbAlertN coreStatus sramStatus => show ∃ act, execPmbAlertN coreStatus sramStatus s = onDev s act from ⟨_, rfl⟩
  | .regulatorTimeout rail => show ∃ act, execRegulatorTimeout rail s = onDev s act from ⟨_, rfl⟩
  | .leaseExpiry => show ∃ act, execLeaseExpiry s = onDev s act from ⟨_, rfl⟩
  | .brakeNFall => show ∃ act, execBrakeNFall s = onDev s act from ⟨_, rfl⟩
  | .brakeNRise => show ∃ act, execBrakeNRise s = onDev s act from ⟨_, rfl⟩
  | .brakeReleaseDelay => show ∃ act, execBrakeReleaseDelay s = onDev s act from ⟨_, rfl⟩
  | .brakeHoldEnd => show ∃ act, execBrakeHoldEnd s = onDev s act from ⟨_, rfl⟩
  | .thermalTrip sensor => show ∃ act, execThermalTrip sensor s = onDev s act from ⟨_, rfl⟩
  | .enginesEmpty => show ∃ act, execEnginesEmpty s = onDev s act from ⟨_, rfl⟩
  | .mooredEntryAbandon => show ∃ act, execMooredEntryAbandon s = onDev s act from ⟨_, rfl⟩
  | .mooredEntryDone => show ∃ act, execMooredEntryDone s = onDev s act from ⟨_, rfl⟩
  | .mooredExitDone => show ∃ act, execMooredExitDone s = onDev s act from ⟨_, rfl⟩
  | .failStop cause unit addr detail => show ∃ act, execFailStop cause unit addr detail s = onDev s act from ⟨_, rfl⟩
  | .watchdog pilot unit => show ∃ act, execWatchdog pilot unit s = onDev s act from ⟨_, rfl⟩
  | .sliceFreeze job => show ∃ act, execSliceFreeze job s = onDev s act from ⟨_, rfl⟩
  | .rejoinComplete job committed => show ∃ act, execRejoinComplete job committed s = onDev s act from ⟨_, rfl⟩
  | .restoreComplete job => show ∃ act, execRestoreComplete job s = onDev s act from ⟨_, rfl⟩
  | .recoveryTimeout job => show ∃ act, execRecoveryTimeout job s = onDev s act from ⟨_, rfl⟩
  | .reProtection comp remoteDirty shards => show ∃ act, execReProtection comp remoteDirty shards s = onDev s act from ⟨_, rfl⟩
  | .rebuild comp stripe unprotected shards => show ∃ act, execRebuild comp stripe unprotected shards s = onDev s act from ⟨_, rfl⟩
  | .shadowDecode job slot page pageData tagOk => show ∃ act, execShadowDecode job slot page pageData tagOk s = onDev s act from ⟨_, rfl⟩
  | .porstNAsserted => show ∃ act, execPorstNAsserted s = onDev s act from ⟨_, rfl⟩
  | .porstNReleased => show ∃ act, execPorstNReleased s = onDev s act from ⟨_, rfl⟩
  | .sysrstNAsserted => show ∃ act, execSysrstNAsserted s = onDev s act from ⟨_, rfl⟩
  | .sysrstNReleased => show ∃ act, execSysrstNReleased s = onDev s act from ⟨_, rfl⟩
  | .powerLoss => show ∃ act, execPowerLoss s = onDev s act from ⟨_, rfl⟩
  | .railExcursion aon => show ∃ act, execRailExcursion aon s = onDev s act from ⟨_, rfl⟩
  | .bootRomDone flashOk capacity => show ∃ act, execBootRomDone flashOk capacity s = onDev s act from ⟨_, rfl⟩
  | .firmwareVerify sigOk => show ∃ act, execFirmwareVerify sigOk s = onDev s act from ⟨_, rfl⟩
  | .journalReplay phyOk => show ∃ act, execJournalReplay phyOk s = onDev s act from ⟨_, rfl⟩
  | .recoveryAnnounce => show ∃ act, execRecoveryAnnounce s = onDev s act from ⟨_, rfl⟩
  | .recoveryWrite client offset total data net => show ∃ act, execRecoveryWrite client offset total data net s = onDev s act from ⟨_, rfl⟩
  | .recoveryInstall client sigOk compareOk net => show ∃ act, execRecoveryInstall client sigOk compareOk net s = onDev s act from ⟨_, rfl⟩
  | .recoveryClaimLapse => show ∃ act, execRecoveryClaimLapse s = onDev s act from ⟨_, rfl⟩
  | .eraseDone => show ∃ act, execEraseDone s = onDev s act from ⟨_, rfl⟩
  | .programDone => show ∃ act, execProgramDone s = onDev s act from ⟨_, rfl⟩
  | .readBackDone equal => show ∃ act, execReadBackDone equal s = onDev s act from ⟨_, rfl⟩
  | .recordDurable ok => show ∃ act, execRecordDurable ok s = onDev s act from ⟨_, rfl⟩
  | .compactionCut => show ∃ act, execCompactionCut s = onDev s act from ⟨_, rfl⟩
  | .compactionDone => show ∃ act, execCompactionDone s = onDev s act from ⟨_, rfl⟩
  | .gustRunEnd => show ∃ act, execGustRunEnd s = onDev s act from ⟨_, rfl⟩
  | .simulatedFailStop => show ∃ act, execSimulatedFailStop s = onDev s act from ⟨_, rfl⟩
  | .sample comp => show ∃ act, execSample comp s = onDev s act from ⟨_, rfl⟩
  | .bypass => show ∃ act, execBypass s = onDev s act from ⟨_, rfl⟩
  | .idcode => show ∃ act, execIdcode s = onDev s act from ⟨_, rfl⟩
  | .samplePreload => show ∃ act, execSamplePreload s = onDev s act from ⟨_, rfl⟩
  | .extest => show ∃ act, execExtest s = onDev s act from ⟨_, rfl⟩
  | .clamp => show ∃ act, execClamp s = onDev s act from ⟨_, rfl⟩
  | .extestPulse => show ∃ act, execExtestPulse s = onDev s act from ⟨_, rfl⟩
  | .extestTrain => show ∃ act, execExtestTrain s = onDev s act from ⟨_, rfl⟩
  | .unlockExchange sigOk => show ∃ act, execUnlockExchange sigOk s = onDev s act from ⟨_, rfl⟩
  | .slot index => show ∃ act, execSlot index s = onDev s act from ⟨_, rfl⟩
  | .phyLinkDown => show ∃ act, execPhyLinkDown s = onDev s act from ⟨_, rfl⟩
  | .plcaBeaconLoss => show ∃ act, execPlcaBeaconLoss s = onDev s act from ⟨_, rfl⟩
  | .plcaBeaconSeen => show ∃ act, execPlcaBeaconSeen s = onDev s act from ⟨_, rfl⟩
  | .tamperCounterIncrement => show ∃ act, execTamperCounterIncrement s = onDev s act from ⟨_, rfl⟩

/-- What a step answers: nothing changes on an empty queue; else the command in front acts on the state with the rest. -/
theorem step_cases {s t : State} (h : step s = .next t) :
    (s.pending = [] ∧ t = s) ∨
    ∃ (rest : List Instr) (act : Ctx → Dev → Dev), t = settle { s with pending := rest, dev := act ⟨s.fuse, s.time, s.mem⟩ s.dev } := by
  unfold step at h
  split at h
  · rename_i hp
    exact .inl ⟨hp, (Host.Outcome.next.inj h).symm⟩
  · rename_i c rest hp
    obtain ⟨act, ha⟩ := exec_onDev c { s with pending := rest }
    rw [ha, onDev_next] at h
    exact .inr ⟨rest, act, (Host.Outcome.next.inj h).symm⟩

end Sys2Proof.Machine
end

