-- ==== Sys2Proof/WellFormed.lean ====
section
/-!
DEFINITION. Which commands are well formed: every operand within the range that the manual gives the thing it names (Table 0.2, Table 2.9,
Table 4.3, Table 8.3, Table 8.9, Table 9.2 and the widths of the registers). The machine is total: what a command outside these ranges does is
the check of its own meaning.
-/

namespace Sys2Proof

/-- A flit: 64 payload bytes, 16 bits of sideband (Table 2.9). -/
def Flit.wf (f : Flit) : Bool := decide (f.pay < 2 ^ 512) && decide (f.sb < 2 ^ 16)

/-- A frame's header fields in their widths (Table 8.3), at most three flits (NFL), at most the 192 bytes 44 to 235 of control payload (R258). -/
def Frame.wf (f : Frame) : Bool :=
  decide (f.typ < 8) && decide (f.seq < 2 ^ 16) && decide (f.ack < 2 ^ 16) && decide (f.slot < 64) && decide (f.comp < 8) &&
  decide (f.tepoch < 2 ^ 8) && decide (f.crslot < 64) && decide (f.crcnt < 2 ^ 10) && decide (f.lctr < 2 ^ 64) &&
  decide (f.flits.length ≤ 3) && f.flits.all Flit.wf && decide (f.ctl.length ≤ 192) && decide (f.version < 2 ^ 8) &&
  decide (f.gtag < 2 ^ 128)

/-- The 80 temperature sensors of R392. -/
def BeatEnv.wf (e : BeatEnv) : Bool := decide (e.temps.length = 80)

/-- A board-space message (Table 8.9): fields in their widths, 1 to 4,096 lines, at most the data of 4,096 lines. -/
def BoardMsg.wf (m : BoardMsg) : Bool :=
  decide (m.addr < 2 ^ 52) && decide (1 ≤ m.lines) && decide (m.lines ≤ 4096) && decide (m.tag < 2 ^ 16) && decide (m.sslot < 8) &&
  decide (m.jobtag < 2 ^ 64) && decide (m.status < 2 ^ 16) && decide (m.dsync < 8192) && decide (m.operand < 2 ^ 64) && decide (m.data.length ≤ 64 * 4096)

/-- A register that has no command of its own. -/
def RegTarget.wf : RegTarget → Bool
  | .facet g f o => decide (g < 16) && decide (f < 1024) && decide (o < 2 ^ 12)
  | .winch g e o => decide (g < 16) && decide (e < 32) && decide (o < 2 ^ 12)
  | .window o => decide (o < 9 * 2 ^ 32)

/-- What JOB_START reads: the 128-byte descriptor (Table 9.7), at most 32,768 members (Table 0.2). -/
def JobHost.wf (h : JobHost) : Bool := decide (h.desc.length = 128) && decide (h.members.length ≤ 32768)

/-- A confirmation's status bytes, profile and Ripcord mode (R177). -/
def Confirm.wf (c : Confirm) : Bool :=
  decide (c.status < 2 ^ 16) && decide (c.detail < 2 ^ 16) && decide (c.serial < 65536) && decide (c.profile < 4) &&
  decide (c.mode < 4)

/-- A row of a batch (R192, R193). -/
def BatchRow.wf (r : BatchRow) : Bool :=
  decide (r.slot < 16384) && decide (r.serial < 2 ^ 32) && decide (r.pos < 2 ^ 32) && decide (r.tok < 2 ^ 32)

/-- A group entry of a step (R192). -/
def GroupEntry.wf (g : GroupEntry) : Bool := decide (g.wset < 8192) && decide (g.gen < 2 ^ 32) && decide (g.rbase < 2 ^ 16) && decide (g.rows < 2 ^ 16)

/-- A request as a staging record brings it (R176, R191). -/
def ReqCopy.wf (q : ReqCopy) : Bool :=
  decide (q.slot < 16384) && decide (q.serial < 2 ^ 32) && decide (q.ring < 64) && decide (q.tag < 2 ^ 32) && decide (q.wset < 8192) &&
  decide (q.kv ≤ q.history) && decide (q.history ≤ q.stream.length)

/-- A command's outcome in a staging record (R411). -/
def CmdOutcome.wf (c : CmdOutcome) : Bool := decide (c.ring < 64) && decide (c.tag < 2 ^ 32) && decide (c.opcode < 256) && decide (c.status < 2 ^ 16)

/-- Where an object message came from. -/
def Via.wf : Via → Bool
  | .port _ => true
  | .ring r t => decide (r < 64) && decide (t < 2 ^ 32)

/-- A frame of the management port: its fields in their widths. -/
def NetFrame.wf (n : NetFrame) : Bool := decide (n.etherType < 2 ^ 16) && decide (n.bytes < 2 ^ 16) && decide (n.waiting < 2 ^ 16)

/-- An object message's header fields in their widths (Table 10.5). -/
def OapMsg.wf (m : OapMsg) : Bool :=
  m.via.wf && decide (m.session < 2 ^ 32) && decide (m.seq < 2 ^ 64) && decide (m.group < 2 ^ 32) && decide (m.op < 256) &&
  decide (m.version < 256) && decide (m.body.length < 2 ^ 16) && m.net.wf

/-- A DICT command's message, if its packets have come. -/
def wfMsg : Option OapMsg → Bool
  | none => true
  | some m => m.wf

/-- A list of token numbers (Table 5.8). -/
def wfTokens : Option (List Nat) → Bool
  | none => true
  | some ts => ts.all fun t => decide (t < 2 ^ 32)

/-- The command of a ring and TAG (Table 9.2). -/
def wfTag (ring tag : Nat) : Bool := decide (ring < 64) && decide (tag < 2 ^ 32)

/-- Is a command well formed? -/
def Instr.wf : Instr → Bool
  | .beatBoundary env => env.wf
  | .roundBoundary env _ => env.wf
  | .beatrefLoss => true
  | .holdoverExit => true
  | .iterationStart facet => decide (facet < 1024)
  | .stallRelease facet => decide (facet < 1024)
  | .passComplete facet bank => decide (facet < 1024) && decide (bank < 2)
  | .flitArrival facet => decide (facet < 1024)
  | .creditReturn facet queue => decide (facet < 1024) && decide (queue < 8)
  | .exactAddGroup facet queue => decide (facet < 1024) && decide (queue < 8)
  | .nop facet _ => decide (facet < 1024)
  | .issue facet => decide (facet < 1024)
  | .mov facet => decide (facet < 1024)
  | .add facet => decide (facet < 1024)
  | .sub facet => decide (facet < 1024)
  | .mul facet => decide (facet < 1024)
  | .fma facet => decide (facet < 1024)
  | .max facet => decide (facet < 1024)
  | .min facet => decide (facet < 1024)
  | .scale facet => decide (facet < 1024)
  | .bcast facet => decide (facet < 1024)
  | .exp2 facet => decide (facet < 1024)
  | .rcp facet => decide (facet < 1024)
  | .rsqrt facet => decide (facet < 1024)
  | .rsum facet => decide (facet < 1024)
  | .rmax facet => decide (facet < 1024)
  | .rmaxi facet => decide (facet < 1024)
  | .iadd facet => decide (facet < 1024)
  | .psum facet => decide (facet < 1024)
  | .top2 facet => decide (facet < 1024)
  | .cvt facet => decide (facet < 1024)
  | .xadd facet => decide (facet < 1024)
  | .xrd facet => decide (facet < 1024)
  | .xclr facet => decide (facet < 1024)
  | .ld facet => decide (facet < 1024)
  | .st facet => decide (facet < 1024)
  | .saddi facet => decide (facet < 1024)
  | .loop facet => decide (facet < 1024)
  | .endIteration facet => decide (facet < 1024)
  | .swait facet => decide (facet < 1024)
  | .ssig facet => decide (facet < 1024)
  | .fadd32 facet => decide (facet < 1024)
  | .fadd64 facet => decide (facet < 1024)
  | .waitl facet => decide (facet < 1024)
  | .waitw facet => decide (facet < 1024)
  | .gondolaLoad gondola addr len _ _ => decide (gondola < 16) && decide (addr < 2 ^ 52) && decide (len = 64 ∨ len = 128)
  | .gondolaStore gondola addr payload _ _ => decide (gondola < 16) && decide (addr < 2 ^ 52) && decide (payload.length = 64 ∨ payload.length = 128)
  | .fetchAdd32 gondola addr operand => decide (gondola < 16) && decide (addr < 2 ^ 52) && decide (operand < 2 ^ 32)
  | .fetchAdd64 gondola addr operand => decide (gondola < 16) && decide (addr < 2 ^ 52) && decide (operand < 2 ^ 64)
  | .swap gondola addr payload => decide (gondola < 16) && decide (addr < 2 ^ 52) && decide (payload.length = 64)
  | .wserial gondola facet window value => decide (gondola < 16) && decide (facet < 1024) && decide (window < 16) && decide (value < 2 ^ 16)
  | .registerWrite target value => target.wf && decide (value < 2 ^ 64)
  | .scanOut ring tag => wfTag ring tag
  | .scanHold comp => decide (comp < 8)
  | .scanRecordCommit comp facet => decide (comp < 8) && decide (facet < 1024)
  | .scanIn ring tag _ => wfTag ring tag
  | .submit gondola engine desc => decide (gondola < 16) && decide (engine < 32) && decide (desc < 2 ^ 512)
  | .start gondola engine index => decide (gondola < 16) && decide (engine < 32) && decide (index < 65536)
  | .winchAbort gondola engine record => decide (gondola < 16) && decide (engine < 32) && decide (record < 65536)
  | .descriptorStart engine => decide (engine < 32)
  | .elementTransfer engine record _ => decide (engine < 32) && decide (record < 65536)
  | .descriptorComplete engine record => decide (engine < 32) && decide (record < 65536)
  | .descriptorFail engine record => decide (engine < 32) && decide (record < 65536)
  | .boardRead msg _ => msg.wf
  | .boardWrite msg _ => msg.wf
  | .boardFetchAdd32 msg => msg.wf
  | .boardFetchAdd64 msg => msg.wf
  | .boardSwap msg => msg.wf
  | .readData msg => msg.wf
  | .writeAcknowledge msg => msg.wf
  | .atomicResult msg => msg.wf
  | .refresh unit multiple => decide (unit < 24) && decide (multiple = 1 ∨ multiple = 2 ∨ multiple = 4)
  | .periodicRetraining => true
  | .memoryTrainingDone gddrOk lpOk densityOk rate => decide (gddrOk < 2 ^ 16) && decide (lpOk < 2 ^ 8) && decide (densityOk < 2 ^ 8) && decide (rate < 2 ^ 16)
  | .trainingStart => true
  | .jobStart ring tag host => wfTag ring tag && host.all JobHost.wf
  | .formationConfirmation job rank confirm => decide (job < 64) && decide (rank < 32768) && confirm.wf
  | .formationTimeout job => decide (job < 64)
  | .probeCheckTimeout job => decide (job < 64)
  | .imageArrival job _ => decide (job < 64)
  | .loaderComplete job _ micros => decide (job < 64) && decide (micros < 2 ^ 32)
  | .jobEndDrain ring tag => wfTag ring tag
  | .jobEndCancel ring tag => wfTag ring tag
  | .jobResourceRelease job => decide (job < 64)
  | .weightRegionRelease job => decide (job < 64)
  | .admitReq ring tag tokens => wfTag ring tag && wfTokens tokens
  | .append ring tag tokens => wfTag ring tag && wfTokens tokens
  | .cancel ring tag => wfTag ring tag
  | .trim ring tag => wfTag ring tag
  | .setMaskNone ring tag => wfTag ring tag
  | .setMaskAllowList ring tag tokens => wfTag ring tag && wfTokens tokens
  | .setMaskAutomaton ring tag => wfTag ring tag
  | .loadAutomaton ring tag _ => wfTag ring tag
  | .catalogLoad ring tag digest => wfTag ring tag && (digest.all fun b => decide (b.length = 32))
  | .catalogSwap ring tag => wfTag ring tag
  | .catalogEvict ring tag => wfTag ring tag
  | .step ring tag record => wfTag ring tag && (record.all fun b => decide (b.length ≤ 131072))
  | .stepStart job => decide (job < 64)
  | .roundPlan ring tag => wfTag ring tag
  | .roundPlanForward job member layer group serial _ => decide (job < 64) && decide (member < 32768) && decide (layer < 256) && decide (group < 256) && decide (serial < 65536)
  | .planRelease job layer group => decide (job < 64) && decide (layer < 256) && decide (group < 256)
  | .countCompletion job layer group => decide (job < 64) && decide (layer < 256) && decide (group < 256)
  | .stagingRecord job serial began groups rows table outcomes => decide (job < 64) && decide (serial < 65536) && decide (began < 2 ^ 64) && groups.all GroupEntry.wf && rows.all BatchRow.wf && table.all ReqCopy.wf && outcomes.all CmdOutcome.wf
  | .liftStart job wset _ => decide (job < 64) && decide (wset < 8192)
  | .liftComplete job wset _ member _ => decide (job < 64) && decide (wset < 8192) && decide (member < 32768)
  | .doneBeat job _ _ => decide (job < 64)
  | .doneBeatMessage job rank beat flags => decide (job < 64) && decide (rank < 32768) && decide (beat < 2 ^ 64) && decide (flags < 8)
  | .stepBoundary job => decide (job < 64)
  | .stuckStep job => decide (job < 64)
  | .drainComplete comp => decide (comp < 8)
  | .drainBeatMessage comp rank beat => decide (comp < 8) && decide (rank < 32768) && decide (beat < 2 ^ 64)
  | .flip comp => decide (comp < 8)
  | .forcedReconfiguration comp => decide (comp < 8)
  | .signalDetected port => decide (port < 16)
  | .lanesLocked port lanes flight _ rtt => decide (port < 16) && decide (lanes = 4 ∨ lanes = 8 ∨ lanes = 16) && decide (flight < 2 ^ 16) && decide (rtt < 2 ^ 32)
  | .trainingTimeout port => decide (port < 16)
  | .identity port frame fec => decide (port ≤ 16) && frame.wf && decide (fec < 2 ^ 32)
  | .lossOfSignal port => decide (port < 16)
  | .markerLoss port => decide (port < 16)
  | .heartbeatLoss port => decide (port < 16)
  | .resendLimit port => decide (port < 16)
  | .skewLimit port => decide (port < 16)
  | .downRetry port => decide (port < 16)
  | .data port frame _ fec => decide (port ≤ 16) && frame.wf && decide (fec < 2 ^ 32)
  | .idle port frame fec => decide (port ≤ 16) && frame.wf && decide (fec < 2 ^ 32)
  | .marker port frame flight _ fec => decide (port ≤ 16) && frame.wf && decide (flight < 2 ^ 16) && decide (fec < 2 ^ 32)
  | .heartbeatFrame port frame fec => decide (port ≤ 16) && frame.wf && decide (fec < 2 ^ 32)
  | .probe port frame fec => decide (port ≤ 16) && frame.wf && decide (fec < 2 ^ 32)
  | .badFrame port raw uncorrectable fec => decide (port ≤ 16) && decide (raw.length = 256) && decide (uncorrectable < 2 ^ 32) && decide (fec < 2 ^ 32)
  | .probeSend job leg => decide (job < 64) && decide (leg < 4096)
  | .legBroken job leg => decide (job < 64) && decide (leg < 4096)
  | .laneChangeDone port lanes flight _ rtt => decide (port < 16) && decide (lanes = 4 ∨ lanes = 8 ∨ lanes = 16) && decide (flight < 2 ^ 16) && decide (rtt < 2 ^ 32)
  | .tetherLanesLocked _ _ => true
  | .tetherTrainingTimeout => true
  | .tetherFrameLoss => true
  | .tetherDownRetry => true
  | .sqtail ring value => decide (ring < 64) && decide (value < 2 ^ 32)
  | .cqhead ring value => decide (ring < 64) && decide (value < 2 ^ 32)
  | .aperture comp offset payload => decide (comp < 8) && decide (offset < 2 ^ 45) && decide (payload.length ≤ 4096)
  | .ringFetch => true
  | .rdata tag status payload => decide (tag < 65536) && decide (status < 2 ^ 16) && decide (payload.length ≤ 4096)
  | .tetherReadTimeout tag => decide (tag < 65536)
  | .completionWrite ring => decide (ring < 64)
  | .abort ring tag => wfTag ring tag
  | .dictRead ring tag msg => wfTag ring tag && wfMsg msg
  | .dictWrite ring tag msg => wfTag ring tag && wfMsg msg
  | .dictCommit ring tag msg => wfTag ring tag && wfMsg msg
  | .hello msg => msg.wf
  | .sessionOpen msg => msg.wf
  | .sessionClose msg => msg.wf
  | .heartbeat msg => msg.wf
  | .read msg => msg.wf
  | .list msg => msg.wf
  | .segRead msg => msg.wf
  | .write msg => msg.wf
  | .groupOpen msg => msg.wf
  | .stage msg => msg.wf
  | .segWrite msg => msg.wf
  | .groupAbort msg => msg.wf
  | .commit msg => msg.wf
  | .groupCommit group => decide (group < 2 ^ 32)
  | .groupIdleExpiry group => decide (group < 2 ^ 32)
  | .sessionIdleTimeout session => decide (session < 4294967296)
  | .orphanTimeout => true
  | .neighborSolicitation _ net => net.wf
  | .echoRequest _ net payload => net.wf && decide (payload.length ≤ 1500)
  | .phyLinkUp => true
  | .duplicateAddressDetection _ => true
  | .permitExpiry permit => decide (permit < 4)
  | .fuseWriteDone => true
  | .tamperN => true
  | .glitchSensor kind => decide (kind < 3)
  | .teardownWaitEnd comp => decide (comp < 8)
  | .scrubDone comp badDevices badPackages => decide (comp < 8) && decide (badDevices < 2 ^ 16) && decide (badPackages < 2 ^ 8)
  | .vddCoreInTolerance => true
  | .clockRelock => true
  | .gddr7RetrainingDone => true
  | .pmbusPoll _ _ => true
  | .pmbAlertN coreStatus sramStatus => decide (coreStatus < 2 ^ 16) && decide (sramStatus < 2 ^ 16)
  | .regulatorTimeout rail => decide (rail < 2)
  | .leaseExpiry => true
  | .brakeNFall => true
  | .brakeNRise => true
  | .brakeReleaseDelay => true
  | .brakeHoldEnd => true
  | .thermalTrip sensor => decide (sensor < 80)
  | .enginesEmpty => true
  | .mooredEntryAbandon => true
  | .mooredEntryDone => true
  | .mooredExitDone => true
  | .failStop cause unit addr detail => decide (1 ≤ cause) && decide (cause ≤ 10) && decide (unit < 2 ^ 16) && decide (addr < 2 ^ 64) && decide (detail < 2 ^ 64)
  | .watchdog _ unit => decide (unit < 2 ^ 16)
  | .sliceFreeze job => decide (job < 64)
  | .rejoinComplete job _ => decide (job < 64)
  | .restoreComplete job => decide (job < 64)
  | .recoveryTimeout job => decide (job < 64)
  | .reProtection comp _ _ => decide (comp < 8)
  | .rebuild comp _ _ _ => decide (comp < 8)
  | .shadowDecode job req page _ _ => decide (job < 64) && decide (req < 16384) && decide (page < 32768)
  | .porstNAsserted => true
  | .porstNReleased => true
  | .sysrstNAsserted => true
  | .sysrstNReleased => true
  | .powerLoss => true
  | .railExcursion _ => true
  | .bootRomDone _ capacity => decide (capacity < 2 ^ 32)
  | .firmwareVerify _ => true
  | .journalReplay _ => true
  | .recoveryAnnounce => true
  | .recoveryWrite _ offset total payload net => decide (offset < 2 ^ 32) && decide (total < 2 ^ 32) && decide (payload.length ≤ 1500) && net.wf
  | .recoveryInstall _ _ _ net => net.wf
  | .recoveryClaimLapse => true
  | .eraseDone => true
  | .programDone => true
  | .readBackDone _ => true
  | .recordDurable _ => true
  | .compactionCut => true
  | .compactionDone => true
  | .gustRunEnd => true
  | .simulatedFailStop => true
  | .sample comp => decide (comp < 8)
  | .bypass => true
  | .idcode => true
  | .samplePreload => true
  | .extest => true
  | .clamp => true
  | .extestPulse => true
  | .extestTrain => true
  | .unlockExchange _ => true
  | .slot index => decide (index < 64)
  | .phyLinkDown => true
  | .plcaBeaconLoss => true
  | .plcaBeaconSeen => true
  | .tamperCounterIncrement => true

end Sys2Proof
end

