-- ==== Sys2Proof/Tests/Slice0.lean ====
section
/-!
SUPPORT. Small checks: which commands are well formed, values of the manual's own tables, and states that meet the hypotheses of the
statements.
-/

open Sys2Proof Sys2Proof.Machine

namespace Sys2Proof.Tests

set_option Elab.async false

/-! ## Well-formed and ill-formed commands -/

/-- Readings of 80 sensors at +0. -/
def okEnv : BeatEnv := ⟨0, 0, List.replicate 80 0⟩
/-- A memory access without an event. -/
def okMem : MemEnv := ⟨0, 0, 0, false, false⟩
/-- A board message of one line. -/
def okBoard : BoardMsg := ⟨0, 1, 0, 0, 0, 0, 0, false, 0, []⟩
/-- An untagged frame of a link-local source. -/
def okNet : NetFrame := ⟨false, 0x86DD, 64, true, true, 0⟩
/-- A request on the management port. -/
def okMsg : OapMsg := ⟨.port 0, 0, 0, 0, 0x10, false, 1, true, true, [], true, true, true, true, true, okNet⟩
/-- A confirmation. -/
def okConfirm : Confirm := ⟨0, 0, 0, false, false, 0, false, 0, 0, 0⟩
/-- A regulator's answer. -/
def okPmbus : PmbusRead := ⟨0, 0, 0, 0, 0⟩
/-- A request's copy. -/
def okCopy : ReqCopy := ⟨0, 0, 0, 0, 0, 0, [], 0, 0, 0, 0, [], [], 0, 0, 0, 0, none, 0, 0, none, false, false, 0, 0, none, 0, []⟩

theorem test_wf_flit : (Flit.wf ⟨2 ^ 512 - 1, 2 ^ 16 - 1⟩ && !Flit.wf ⟨2 ^ 512, 0⟩ && !Flit.wf ⟨0, 2 ^ 16⟩) = true := by decide +kernel

theorem test_wf_frame : (Frame.wf { idleFrame with typ := 7, crcnt := 2 ^ 10 - 1 } && [
    { idleFrame with typ := 8 }, { idleFrame with seq := 2 ^ 16 }, { idleFrame with ack := 2 ^ 16 }, { idleFrame with slot := 64 },
    { idleFrame with comp := 8 }, { idleFrame with tepoch := 2 ^ 8 }, { idleFrame with crslot := 64 }, { idleFrame with crcnt := 2 ^ 10 },
    { idleFrame with lctr := 2 ^ 64 }, { idleFrame with version := 2 ^ 8 }, { idleFrame with gtag := 2 ^ 128 }, { idleFrame with flits := List.replicate 4 ⟨0, 0⟩ }, { idleFrame with flits := [⟨0, 2 ^ 16⟩] },
    { idleFrame with ctl := List.replicate 193 0 }].all fun f => !f.wf) = true := by decide +kernel

theorem test_wf_board : (BoardMsg.wf { okBoard with lines := 4096, addr := 2 ^ 52 - 1 } && [
    { okBoard with addr := 2 ^ 52 }, { okBoard with lines := 0 }, { okBoard with lines := 4097 }, { okBoard with tag := 2 ^ 16 },
    { okBoard with sslot := 8 }, { okBoard with jobtag := 2 ^ 64 }, { okBoard with status := 2 ^ 16 }, { okBoard with dsync := 8192 },
    { okBoard with operand := 2 ^ 64 }].all fun m => !m.wf) = true := by decide +kernel

/-- More data than 4,096 lines. -/
theorem test_wf_board_data : BoardMsg.wf { okBoard with data := List.replicate 262145 0 } = false := by
  unfold BoardMsg.wf
  rw [show ({ okBoard with data := List.replicate 262145 0 } : BoardMsg).data.length = 262145 from List.length_replicate ..]
  simp

theorem test_wf_register : (RegTarget.wf (.facet 15 1023 4095) && RegTarget.wf (.winch 15 31 4095) && RegTarget.wf (.window (9 * 2 ^ 32 - 1)) && [
    RegTarget.facet 16 0 0, .facet 0 1024 0, .facet 0 0 4096, .winch 16 0 0, .winch 0 32 0, .winch 0 0 4096, .window (9 * 2 ^ 32)].all fun r => !r.wf) = true := by
  decide +kernel

theorem test_wf_host : (JobHost.wf ⟨List.replicate 128 0, [0], [], [], []⟩ && !JobHost.wf ⟨List.replicate 127 0, [], [], [], []⟩) = true := by decide +kernel

/-- More members than a slice has. -/
theorem test_wf_host_members : JobHost.wf ⟨List.replicate 128 0, List.replicate 32769 0, [], [], []⟩ = false := by
  unfold JobHost.wf
  rw [List.length_replicate, List.length_replicate]
  decide

theorem test_wf_confirm : (Confirm.wf { okConfirm with profile := 3, mode := 3 } && [
    { okConfirm with status := 2 ^ 16 }, { okConfirm with detail := 2 ^ 16 }, { okConfirm with serial := 65536 }, { okConfirm with profile := 4 },
    { okConfirm with mode := 4 }].all fun c => !c.wf) = true := by decide +kernel

theorem test_wf_rows : (BatchRow.wf ⟨16383, 2 ^ 32 - 1, 0, 0, 0, true, false⟩ && [
    BatchRow.mk 16384 0 0 0 0 false false, ⟨0, 2 ^ 32, 0, 0, 0, false, false⟩, ⟨0, 0, 0, 2 ^ 32, 0, false, false⟩,
    ⟨0, 0, 0, 0, 2 ^ 32, false, false⟩].all fun r => !r.wf) = true := by decide +kernel

theorem test_wf_groups : (GroupEntry.wf ⟨8191, 0, 65535, 0, false⟩ && [
    GroupEntry.mk 8192 0 0 0 false, ⟨0, 2 ^ 32, 0, 0, false⟩, ⟨0, 0, 2 ^ 16, 0, false⟩, ⟨0, 0, 0, 2 ^ 16, false⟩].all fun g => !g.wf) = true := by decide +kernel

theorem test_wf_copies : (ReqCopy.wf { okCopy with stream := [1], history := 1, kv := 1 } && [
    { okCopy with slot := 16384 }, { okCopy with serial := 2 ^ 32 }, { okCopy with ring := 64 }, { okCopy with tag := 2 ^ 32 },
    { okCopy with wset := 8192 }, { okCopy with stream := [1], kv := 1 }, { okCopy with history := 1 }].all fun q => !q.wf) = true := by decide +kernel

theorem test_wf_outcomes : (CmdOutcome.wf ⟨63, 0, 255, 0, 0, 0, 0⟩ && [
    CmdOutcome.mk 64 0 0 0 0 0 0, ⟨0, 2 ^ 32, 0, 0, 0, 0, 0⟩, ⟨0, 0, 256, 0, 0, 0, 0⟩, ⟨0, 0, 0, 0, 0, 0, 2 ^ 16⟩].all fun c => !c.wf) = true := by decide +kernel

theorem test_wf_messages : (OapMsg.wf { okMsg with via := .ring 63 0 } && [
    { okMsg with via := .ring 64 0 }, { okMsg with via := .ring 0 (2 ^ 32) }, { okMsg with session := 2 ^ 32 }, { okMsg with seq := 2 ^ 64 },
    { okMsg with group := 2 ^ 32 }, { okMsg with op := 256 }, { okMsg with version := 256 }, { okMsg with net := { okNet with bytes := 2 ^ 16 } }, { okMsg with net := { okNet with waiting := 2 ^ 16 } }].all fun m => !m.wf) = true := by decide +kernel

/-- A body of 65,536 bytes. -/
theorem test_wf_message_body : OapMsg.wf { okMsg with body := List.replicate 65536 0 } = false := by
  unfold OapMsg.wf
  rw [show ({ okMsg with body := List.replicate 65536 0 } : OapMsg).body.length = 65536 from List.length_replicate ..]
  simp

/-- A step record of more than 128 KiB. -/
theorem test_wf_step_record : Instr.wf (.step 0 0 (some (List.replicate 131073 0))) = false := by
  show (wfTag 0 0 && (some (List.replicate 131073 (0 : Byte))).all fun b => decide (b.length ≤ 131072)) = false
  rw [Option.all_some, List.length_replicate]
  decide

theorem test_wf_takes_1 : ([
    .beatBoundary okEnv, .roundBoundary okEnv 0, .iterationStart 0, .stallRelease 0, .passComplete 0 0, .flitArrival 0, .creditReturn 0 0,
    .exactAddGroup 0 0, .nop 0 .array, .issue 0, .mov 0, .add 0, .sub 0, .mul 0, .fma 0, .max 0, .min 0, .scale 0, .bcast 0, .exp2 0, .rcp 0, .rsqrt 0,
    .rsum 0, .rmax 0, .rmaxi 0, .iadd 0, .psum 0, .top2 0, .cvt 0, .xadd 0, .xrd 0, .xclr 0, .ld 0, .st 0, .saddi 0, .loop 0, .endIteration 0,
    .swait 0, .ssig 0, .fadd32 0, .fadd64 0, .waitl 0, .waitw 0, .gondolaLoad 0 0 64 false okMem, .gondolaStore 0 0 (List.replicate 64 0) false okMem,
    .fetchAdd32 0 0 0, .fetchAdd64 0 0 0, .swap 0 0 (List.replicate 64 0), .wserial 0 0 0 0, .registerWrite (.window 0) 0, .scanOut 0 0, .scanHold 0,
    .scanRecordCommit 0 0, .scanIn 0 0 false, .submit 0 0 0, .start 0 0 0, .winchAbort 0 0 0, .descriptorStart 0,
    .elementTransfer 0 0 ⟨true, okMem, okMem⟩, .descriptorComplete 0 0] : List Instr).all (fun c => c.wf) = true := by decide +kernel

theorem test_wf_takes_2 : ([
    .descriptorFail 0 0, .boardRead okBoard okMem, .boardWrite okBoard okMem, .boardFetchAdd32 okBoard, .boardFetchAdd64 okBoard, .boardSwap okBoard,
    .readData okBoard, .writeAcknowledge okBoard, .atomicResult okBoard, .refresh 0 1, .memoryTrainingDone 0 0 0 0, .jobStart 0 0 none,
    .formationConfirmation 0 0 okConfirm, .formationTimeout 0, .probeCheckTimeout 0, .imageArrival 0 [], .loaderComplete 0 false 0, .jobEndDrain 0 0,
    .jobEndCancel 0 0, .jobResourceRelease 0, .weightRegionRelease 0, .admitReq 0 0 none, .append 0 0 none, .cancel 0 0, .trim 0 0, .setMaskNone 0 0,
    .setMaskAllowList 0 0 none, .setMaskAutomaton 0 0, .loadAutomaton 0 0 none, .catalogLoad 0 0 none, .catalogSwap 0 0, .catalogEvict 0 0,
    .step 0 0 none, .stepStart 0, .roundPlan 0 0, .roundPlanForward 0 0 0 0 0 0, .planRelease 0 0 0, .countCompletion 0 0 0,
    .stagingRecord 0 0 0 [] [] [] [], .liftStart 0 0 false, .liftComplete 0 0 false 0 false, .doneBeat 0 [] 0, .doneBeatMessage 0 0 0 0,
    .stepBoundary 0, .stuckStep 0, .drainComplete 0, .drainBeatMessage 0 0 0, .flip 0, .forcedReconfiguration 0, .signalDetected 0,
    .lanesLocked 0 4 0 0 0, .trainingTimeout 0, .identity 0 idleFrame 0, .lossOfSignal 0, .markerLoss 0, .heartbeatLoss 0, .resendLimit 0,
    .skewLimit 0, .downRetry 0, .data 0 idleFrame false 0] : List Instr).all (fun c => c.wf) = true := by decide +kernel

theorem test_wf_takes_3 : ([
    .idle 0 idleFrame 0, .marker 0 idleFrame 0 0 0, .heartbeatFrame 0 idleFrame 0, .probe 0 idleFrame 0, .badFrame 0 (List.replicate 256 0) 0 0,
    .probeSend 0 0, .legBroken 0 0, .laneChangeDone 0 4 0 0 0, .tetherLanesLocked false false, .sqtail 0 0, .cqhead 0 0, .aperture 0 0 [],
    .rdata 0 0 [], .tetherReadTimeout 0, .completionWrite 0, .abort 0 0, .dictRead 0 0 none, .dictWrite 0 0 none, .dictCommit 0 0 none, .hello okMsg,
    .sessionOpen okMsg, .sessionClose okMsg, .heartbeat okMsg, .read okMsg, .list okMsg, .segRead okMsg, .write okMsg, .groupOpen okMsg, .stage okMsg,
    .segWrite okMsg, .groupAbort okMsg, .commit okMsg, .groupCommit 0, .groupIdleExpiry 0, .sessionIdleTimeout 0, .neighborSolicitation 0 okNet,
    .echoRequest 0 okNet [], .duplicateAddressDetection false, .permitExpiry 0, .glitchSensor 0, .teardownWaitEnd 0, .scrubDone 0 0 0,
    .pmbusPoll okPmbus okPmbus, .pmbAlertN 0 0, .regulatorTimeout 0, .thermalTrip 0, .failStop 1 0 0 0, .watchdog false 0, .sliceFreeze 0,
    .rejoinComplete 0 false, .restoreComplete 0, .recoveryTimeout 0, .reProtection 0 false [], .rebuild 0 0 false [], .shadowDecode 0 0 0 [] false,
    .railExcursion false, .bootRomDone false 0, .firmwareVerify false, .journalReplay false, .recoveryWrite 0 0 0 [] okNet] : List Instr).all (fun c => c.wf) = true := by decide +kernel

theorem test_wf_takes_4 : ([
    .recoveryInstall 0 false false okNet, .readBackDone false, .recordDurable false, .sample 0, .unlockExchange false, .slot 0] : List Instr).all (fun c => c.wf) = true := by decide +kernel

theorem test_wf_refuses_1 : ([
    .beatBoundary ⟨0, 0, []⟩, .roundBoundary ⟨0, 0, []⟩ 0, .iterationStart 1024, .stallRelease 1024, .passComplete 1024 0, .passComplete 0 2,
    .flitArrival 1024, .creditReturn 1024 0, .creditReturn 0 8, .exactAddGroup 1024 0, .exactAddGroup 0 8, .nop 1024 .array, .issue 1024, .mov 1024,
    .add 1024, .sub 1024, .mul 1024, .fma 1024, .max 1024, .min 1024, .scale 1024, .bcast 1024, .exp2 1024, .rcp 1024, .rsqrt 1024, .rsum 1024,
    .rmax 1024, .rmaxi 1024, .iadd 1024, .psum 1024, .top2 1024, .cvt 1024, .xadd 1024, .xrd 1024, .xclr 1024, .ld 1024, .st 1024, .saddi 1024,
    .loop 1024, .endIteration 1024] : List Instr).all (fun c => !c.wf) = true := by decide +kernel

theorem test_wf_refuses_2 : ([
    .swait 1024, .ssig 1024, .fadd32 1024, .fadd64 1024, .waitl 1024, .waitw 1024, .gondolaLoad 16 0 64 false okMem,
    .gondolaLoad 0 (2 ^ 52) 64 false okMem, .gondolaLoad 0 0 3 false okMem, .gondolaStore 16 0 (List.replicate 64 0) false okMem,
    .gondolaStore 0 (2 ^ 52) (List.replicate 64 0) false okMem, .gondolaStore 0 0 [0] false okMem, .fetchAdd32 16 0 0, .fetchAdd32 0 (2 ^ 52) 0,
    .fetchAdd32 0 0 (2 ^ 32), .fetchAdd64 16 0 0, .fetchAdd64 0 (2 ^ 52) 0, .fetchAdd64 0 0 (2 ^ 64), .swap 16 0 (List.replicate 64 0),
    .swap 0 (2 ^ 52) (List.replicate 64 0), .swap 0 0 [0], .wserial 16 0 0 0, .wserial 0 1024 0 0, .wserial 0 0 16 0, .wserial 0 0 0 (2 ^ 16),
    .registerWrite (.window 0) (2 ^ 64), .registerWrite (.window (9 * 2 ^ 32)) 0, .scanOut 64 0, .scanOut 0 (2 ^ 32), .scanHold 8,
    .scanRecordCommit 8 0, .scanRecordCommit 0 1024, .scanIn 64 0 false, .scanIn 0 (2 ^ 32) false, .submit 16 0 0, .submit 0 32 0,
    .submit 0 0 (2 ^ 512), .start 16 0 0, .start 0 32 0, .start 0 0 65536] : List Instr).all (fun c => !c.wf) = true := by decide +kernel

theorem test_wf_refuses_3 : ([
    .winchAbort 16 0 0, .winchAbort 0 32 0, .winchAbort 0 0 65536, .descriptorStart 32, .elementTransfer 32 0 ⟨true, okMem, okMem⟩,
    .elementTransfer 0 65536 ⟨true, okMem, okMem⟩, .descriptorComplete 32 0, .descriptorComplete 0 65536, .descriptorFail 32 0,
    .descriptorFail 0 65536, .boardRead ({ okBoard with lines := 0 }) okMem, .boardWrite ({ okBoard with lines := 0 }) okMem,
    .boardFetchAdd32 ({ okBoard with lines := 0 }), .boardFetchAdd64 ({ okBoard with lines := 0 }), .boardSwap ({ okBoard with lines := 0 }),
    .readData ({ okBoard with lines := 0 }), .writeAcknowledge ({ okBoard with lines := 0 }), .atomicResult ({ okBoard with lines := 0 }),
    .refresh 24 1, .refresh 0 3, .memoryTrainingDone (2 ^ 16) 0 0 0, .memoryTrainingDone 0 (2 ^ 8) 0 0, .memoryTrainingDone 0 0 (2 ^ 8) 0,
    .memoryTrainingDone 0 0 0 (2 ^ 16), .jobStart 64 0 none, .jobStart 0 (2 ^ 32) none, .jobStart 0 0 (some ⟨[], [], [], [], []⟩),
    .formationConfirmation 64 0 okConfirm, .formationConfirmation 0 32768 okConfirm, .formationConfirmation 0 0 ({ okConfirm with profile := 4 }),
    .formationTimeout 64, .probeCheckTimeout 64, .imageArrival 64 [], .loaderComplete 64 false 0, .loaderComplete 0 false (2 ^ 32), .jobEndDrain 64 0,
    .jobEndDrain 0 (2 ^ 32), .jobEndCancel 64 0, .jobEndCancel 0 (2 ^ 32), .jobResourceRelease 64] : List Instr).all (fun c => !c.wf) = true := by decide +kernel

theorem test_wf_refuses_4 : ([
    .weightRegionRelease 64, .admitReq 64 0 none, .admitReq 0 (2 ^ 32) none, .admitReq 0 0 (some [2 ^ 32]), .append 64 0 none, .append 0 (2 ^ 32) none,
    .append 0 0 (some [2 ^ 32]), .cancel 64 0, .cancel 0 (2 ^ 32), .trim 64 0, .trim 0 (2 ^ 32), .setMaskNone 64 0, .setMaskNone 0 (2 ^ 32),
    .setMaskAllowList 64 0 none, .setMaskAllowList 0 (2 ^ 32) none, .setMaskAllowList 0 0 (some [2 ^ 32]), .setMaskAutomaton 64 0,
    .setMaskAutomaton 0 (2 ^ 32), .loadAutomaton 64 0 none, .loadAutomaton 0 (2 ^ 32) none, .catalogLoad 0 0 (some [0]), .catalogLoad 64 0 none,
    .catalogLoad 0 (2 ^ 32) none, .catalogSwap 64 0, .catalogSwap 0 (2 ^ 32), .catalogEvict 64 0, .catalogEvict 0 (2 ^ 32), .step 64 0 none,
    .step 0 (2 ^ 32) none, .stepStart 64, .roundPlan 64 0, .roundPlan 0 (2 ^ 32), .roundPlanForward 64 0 0 0 0 0, .roundPlanForward 0 32768 0 0 0 0,
    .roundPlanForward 0 0 256 0 0 0, .roundPlanForward 0 0 0 256 0 0, .roundPlanForward 0 0 0 0 65536 0, .planRelease 64 0 0, .planRelease 0 256 0,
    .planRelease 0 0 256] : List Instr).all (fun c => !c.wf) = true := by decide +kernel

theorem test_wf_refuses_5 : ([
    .countCompletion 64 0 0, .countCompletion 0 256 0, .countCompletion 0 0 256, .stagingRecord 64 0 0 [] [] [] [],
    .stagingRecord 0 65536 0 [] [] [] [], .stagingRecord 0 0 (2 ^ 64) [] [] [] [], .stagingRecord 0 0 0 [⟨8192, 0, 0, 0, false⟩] [] [] [],
    .stagingRecord 0 0 0 [] [⟨16384, 0, 0, 0, 0, false, false⟩] [] [], .stagingRecord 0 0 0 [] [] [{ okCopy with slot := 16384 }] [],
    .stagingRecord 0 0 0 [] [] [] [⟨64, 0, 0, 0, 0, 0, 0⟩], .liftStart 64 0 false, .liftStart 0 8192 false, .liftComplete 64 0 false 0 false,
    .liftComplete 0 8192 false 0 false, .liftComplete 0 0 false 32768 false, .doneBeat 64 [] 0, .doneBeatMessage 64 0 0 0,
    .doneBeatMessage 0 32768 0 0, .doneBeatMessage 0 0 (2 ^ 64) 0, .doneBeatMessage 0 0 0 8, .stepBoundary 64, .stuckStep 64, .drainComplete 8,
    .drainBeatMessage 8 0 0, .drainBeatMessage 0 32768 0, .drainBeatMessage 0 0 (2 ^ 64), .flip 8, .forcedReconfiguration 8, .signalDetected 16,
    .lanesLocked 16 4 0 0 0, .lanesLocked 0 3 0 0 0, .lanesLocked 0 4 (2 ^ 16) 0 0, .lanesLocked 0 4 0 0 (2 ^ 32), .trainingTimeout 16,
    .identity 17 idleFrame 0, .identity 0 idleFrame (2 ^ 32), .identity 0 ({ idleFrame with typ := 8 }) 0, .lossOfSignal 16, .markerLoss 16,
    .heartbeatLoss 16] : List Instr).all (fun c => !c.wf) = true := by decide +kernel

theorem test_wf_refuses_6 : ([
    .resendLimit 16, .skewLimit 16, .downRetry 16, .data 17 idleFrame false 0, .data 0 idleFrame false (2 ^ 32),
    .data 0 ({ idleFrame with typ := 8 }) false 0, .idle 17 idleFrame 0, .idle 0 idleFrame (2 ^ 32), .idle 0 ({ idleFrame with typ := 8 }) 0,
    .marker 17 idleFrame 0 0 0, .marker 0 idleFrame (2 ^ 16) 0 0, .marker 0 idleFrame 0 0 (2 ^ 32), .marker 0 ({ idleFrame with typ := 8 }) 0 0 0,
    .heartbeatFrame 17 idleFrame 0, .heartbeatFrame 0 idleFrame (2 ^ 32), .heartbeatFrame 0 ({ idleFrame with typ := 8 }) 0, .probe 17 idleFrame 0,
    .probe 0 idleFrame (2 ^ 32), .probe 0 ({ idleFrame with typ := 8 }) 0, .badFrame 17 (List.replicate 256 0) 0 0, .badFrame 0 [0] 0 0,
    .badFrame 0 (List.replicate 256 0) (2 ^ 32) 0, .badFrame 0 (List.replicate 256 0) 0 (2 ^ 32), .probeSend 64 0, .probeSend 0 4096, .legBroken 64 0,
    .legBroken 0 4096, .laneChangeDone 16 4 0 0 0, .laneChangeDone 0 3 0 0 0, .laneChangeDone 0 4 (2 ^ 16) 0 0, .laneChangeDone 0 4 0 0 (2 ^ 32),
    .sqtail 64 0, .sqtail 0 (2 ^ 32), .cqhead 64 0, .cqhead 0 (2 ^ 32), .aperture 8 0 [], .aperture 0 (2 ^ 45) [],
    .aperture 0 0 (List.replicate 4097 0), .rdata 65536 0 [], .rdata 0 (2 ^ 16) []] : List Instr).all (fun c => !c.wf) = true := by decide +kernel

theorem test_wf_refuses_7 : ([
    .rdata 0 0 (List.replicate 4097 0), .tetherReadTimeout 65536, .completionWrite 64, .abort 64 0, .abort 0 (2 ^ 32), .dictRead 64 0 none,
    .dictRead 0 (2 ^ 32) none, .dictRead 0 0 (some { okMsg with op := 256 }), .dictWrite 64 0 none, .dictWrite 0 (2 ^ 32) none,
    .dictWrite 0 0 (some { okMsg with op := 256 }), .dictCommit 64 0 none, .dictCommit 0 (2 ^ 32) none,
    .dictCommit 0 0 (some { okMsg with op := 256 }), .hello ({ okMsg with op := 256 }), .sessionOpen ({ okMsg with op := 256 }),
    .sessionClose ({ okMsg with op := 256 }), .heartbeat ({ okMsg with op := 256 }), .read ({ okMsg with op := 256 }),
    .list ({ okMsg with op := 256 }), .segRead ({ okMsg with op := 256 }), .write ({ okMsg with op := 256 }), .groupOpen ({ okMsg with op := 256 }),
    .stage ({ okMsg with op := 256 }), .segWrite ({ okMsg with op := 256 }), .groupAbort ({ okMsg with op := 256 }),
    .commit ({ okMsg with op := 256 }), .groupCommit (2 ^ 32), .groupIdleExpiry (2 ^ 32), .sessionIdleTimeout 4294967296,
    .neighborSolicitation 0 ({ okNet with etherType := 2 ^ 16 }), .echoRequest 0 okNet (List.replicate 1501 0),
    .echoRequest 0 ({ okNet with etherType := 2 ^ 16 }) [], .permitExpiry 4, .glitchSensor 3, .teardownWaitEnd 8, .scrubDone 8 0 0,
    .scrubDone 0 (2 ^ 16) 0, .scrubDone 0 0 (2 ^ 8), .pmbAlertN (2 ^ 16) 0] : List Instr).all (fun c => !c.wf) = true := by decide +kernel

theorem test_wf_refuses_8 : ([
    .pmbAlertN 0 (2 ^ 16), .regulatorTimeout 2, .thermalTrip 80, .failStop 0 0 0 0, .failStop 11 0 0 0, .failStop 1 (2 ^ 16) 0 0,
    .failStop 1 0 (2 ^ 64) 0, .failStop 1 0 0 (2 ^ 64), .watchdog false (2 ^ 16), .sliceFreeze 64, .rejoinComplete 64 false, .restoreComplete 64,
    .recoveryTimeout 64, .reProtection 8 false [], .rebuild 8 0 false [], .shadowDecode 64 0 0 [] false, .shadowDecode 0 16384 0 [] false,
    .shadowDecode 0 0 32768 [] false, .bootRomDone false (2 ^ 32), .recoveryWrite 0 (2 ^ 32) 0 [] okNet, .recoveryWrite 0 0 (2 ^ 32) [] okNet,
    .recoveryWrite 0 0 0 (List.replicate 1501 0) okNet, .recoveryWrite 0 0 0 [] ({ okNet with etherType := 2 ^ 16 }),
    .recoveryInstall 0 false false ({ okNet with etherType := 2 ^ 16 }), .sample 8, .slot 64] : List Instr).all (fun c => !c.wf) = true := by decide +kernel
/-! ## Values of the manual's own tables -/

/-- Table 1.3: skipped positions for s = 1, 4 and 8. -/
theorem test_skipped_positions : ((List.range 16).filter (skippedAt 1) = [15]) ∧ ((List.range 16).filter (skippedAt 4) = [3, 7, 11, 15]) ∧
    ((List.range 16).filter (skippedAt 8) = [1, 3, 5, 7, 9, 11, 13, 15]) := by decide +kernel

/-- FP32: 1.5 + 2.25 = 3.75; 2^24 + 1 rounds to 2^24 (R42). -/
theorem test_f32_add : f32Add 0x3FC00000 0x40100000 = 0x40700000 ∧ f32Add 0x4B800000 0x3F800000 = 0x4B800000 := by decide +kernel

/-- EXP2 of 3 is 8, RCP of 4 is 0.25, RSQRT of 4 is 0.5 (R53). -/
theorem test_f32_functions : f32Exp2 0x40400000 = 0x41000000 ∧ f32Rcp 0x40800000 = 0x3E800000 ∧ f32Rsqrt 0x40800000 = 0x3F000000 := by decide +kernel

/-- An FP32 addend of 1.0 into an empty lane of F = 8 adds 2^8 (R67); a NaN sets NANF alone. -/
theorem test_exact_add : (laneAdd 8 30 0 0x3F800000).1 = 256 ∧ laneAdd 8 30 0 0x7FC00000 = (2 ^ 97, 2) := by decide +kernel

/-! ## States that meet the hypotheses of the statements -/

/-- A device that serves, booted. -/
def dev0 : Dev := { Dev.reset with state := .serving, boot := { Boot.reset with stage := .done, porstLow := false } }
/-- A device at beat 1,000. -/
def at0 (d : Dev) : State := { State.reset with dev := d, time := ⟨1000, 0, 0, 0xFF, 0⟩ }
/-- Compartment 7 is Active and owns column group 7, gondolas 14 and 15, GDDR7 device 15, package 7 and engine 31. -/
def owned (d : Dev) : Dev :=
  (((((d.setNum 0x4107 1 1).setNum 0x4107 2 128).setNum 0x4107 3 0x8000).setNum 0x4107 4 128).setNum 0x4107 5 (2 ^ 31)).setNum 0x4107 6 (2 ^ 63)
/-- A vector operation (Table 2.13). -/
def vword (o dst a b c rows fn imm : Nat) : Nat := o * 2 ^ 42 + dst * 2 ^ 37 + a * 2 ^ 32 + b * 2 ^ 27 + c * 2 ^ 22 + (rows - 1) * 2 ^ 18 + fn * 2 ^ 12 + imm
/-- A control operation (Table 2.13). -/
def cword (o dst a b imm : Nat) : Nat := o * 2 ^ 26 + dst * 2 ^ 22 + a * 2 ^ 18 + b * 2 ^ 14 + imm
/-- A facet that runs a program of one bundle. -/
def fac0 (bundle : Nat) : Facet :=
  { Facet.reset with run := .running, started := true, copy0 := { Copy.none with valid := true, prog := { Prog.none with bundles := [bundle], tiles := [0], windows := [0] } } }
/-- Facet 1023 alone, in a device that compartment 7 owns. -/
def facS (f : Facet) : State := at0 (owned { dev0 with facets := [(1023, f)] })
/-- Facet 1023 about to do a vector operation. -/
def vecS (w : Nat) : State := facS (fac0 (w * 2 ^ 40))
/-- Facet 1023 about to do a control operation. -/
def ctlS (w : Nat) : State := facS (fac0 (w * 2 ^ 8))

theorem test_queue : State.reset.pending = [] ∧ ∃ t, step { State.reset with pending := .bypass :: [] } = .next t := ⟨rfl, _, rfl⟩

theorem test_invariant : State.reset.Inv ∧ ∃ t, step State.reset = .next t :=
  ⟨⟨by decide +kernel, by decide +kernel, by decide +kernel, rfl⟩, _, rfl⟩

theorem test_row_operations : ∀ o ∈ [0x01, 0x02, 0x03, 0x04, 0x05, 0x06, 0x07, 0x08, 0x09, 0x0A, 0x0B, 0x0C, 0x0D, 0x0E, 0x0F, 0x10, 0x11, 0x12, 0x18],
    VectorReady (vecS (vword o 7 7 7 7 16 0 0xFFF)) 1023 o ∧ vD ((vecS (vword o 7 7 7 7 16 0 0xFFF)).facet 1023).vop < 8 ∧
    (∀ c ∈ vSources ((vecS (vword o 7 7 7 7 16 0 0xFFF)).facet 1023).vop, c < 8) ∧ (vecS (vword o 7 7 7 7 16 0 0xFFF)).dev.routedJob 1023 199 184 = none := by
  unfold VectorReady; decide +kernel

/-- Four flits in input queue 7. -/
def fourFlits : List Flit := List.replicate 4 ⟨1, mkSb true false false 0⟩

theorem test_operand_forms :
    (let s := facS { fac0 (vword 0x01 7 15 0 0 1 0 0 * 2 ^ 40) with iq := [(7, fourFlits)] }
     VectorReady s 1023 0x01 ∧ vRows (s.facet 1023).vop = 1 ∧ vD (s.facet 1023).vop < 8 ∧ srcQueue (vA (s.facet 1023).vop) = some 7 ∧
     4 ≤ ((s.facet 1023).iqOf 7).length ∧ tget (s.facet 1023).active.iq 7 = none) ∧
    (let s := facS { fac0 (vword 0x01 7 16 0 0 1 0 0 * 2 ^ 40) with drainQ := [1], bank1 := { Bank.zero with st := .ready, rowMask := 1, colMask := 1 } }
     VectorReady s 1023 0x01 ∧ vA (s.facet 1023).vop = 16 ∧ (s.facet 1023).drainQ ≠ []) ∧
    (let s := vecS (vword 0x01 7 0x11 0 0 1 0 0)
     VectorReady s 1023 0x01 ∧ vA (s.facet 1023).vop = 0x11) := by
  unfold VectorReady; decide +kernel

/-- Facet 1023 about to move a row to output queue 7, with some credits. -/
def outS (credits queued : Nat) : State :=
  facS { fac0 (vword 0x01 15 0 0 0 1 0 0 * 2 ^ 40) with
    copy0 := { (fac0 (vword 0x01 15 0 0 0 1 0 0 * 2 ^ 40)).copy0 with oq := [(7, ⟨0, 1, 64, 0⟩)] }
    credits := [(7, credits)], oq := [(7, List.replicate queued ⟨0, 0⟩)] }

theorem test_queues :
    (VectorReady (outS 1 60) 1023 0x01 ∧ vRows ((outS 1 60).facet 1023).vop = 1 ∧ vA ((outS 1 60).facet 1023).vop < 8 ∧
     vD ((outS 1 60).facet 1023).vop = 8 + 7 ∧ tget ((outS 1 60).facet 1023).active.oq 7 = some ⟨0, 1, 64, 0⟩ ∧
     (((outS 1 60).facet 1023).oqOf 7).length + 4 ≤ min 64 64 ∧ 0 < ((outS 1 60).facet 1023).credit 7 ∧ ((outS 1 60).facet 1023).poisonSeen = false) ∧
    (let s := { outS 1 60 with dev := (outS 1 60).dev.setFacet 1023 { (outS 1 60).facet 1023 with poisonSeen := true } }
     VectorReady s 1023 0x01 ∧ vA (s.facet 1023).vop < 8 ∧ tget (s.facet 1023).active.oq 7 = some ⟨0, 1, 64, 0⟩ ∧ (s.facet 1023).poisonSeen = true) := by
  unfold VectorReady; decide +kernel

theorem test_queue_stalls :
    (∀ issued ∈ [true, false], ∀ counted ∈ [true, false],
     let s := { outS 0 0 with dev := (outS 0 0).dev.setFacet 1023 { (outS 0 0).facet 1023 with issued := issued, counted := counted } }
     let f := s.facet 1023
     ProgramRuns s 1023 ∧ f.doneV = false ∧ f.arrayStall = none ∧ vOpc f.vop = 0x01 ∧ vRows f.vop = 1 ∧ f.vrow = 0 ∧ f.vout = [] ∧ vD f.vop = 8 + 7 ∧ f.poisonSeen = false ∧
     f.credit 7 = 0 ∧ f.counted = counted ∧ f.issued = issued) ∧
    (let s := facS { fac0 (vword 0x01 7 15 0 0 1 0 0 * 2 ^ 40) with iq := [(7, fourFlits.take 3)] }
     let f := s.facet 1023
     ProgramRuns s 1023 ∧ f.doneV = false ∧ f.arrayStall = none ∧ vOpc f.vop = 0x01 ∧ vRows f.vop = 1 ∧ f.vrow = 0 ∧ f.vout = [] ∧ vD f.vop < 8 ∧
     srcQueue (vA f.vop) = some 7 ∧ (f.iqOf 7).length < 4) := by
  unfold ProgramRuns; decide +kernel

theorem test_exact_add_bound : 2 ^ 5 * 2 ^ 90 ≤ 2 ^ 95 ∧ ([0x3F800000, 0xBF800000] : List Lane).length ≤ 2 ^ 5 ∧
    ([0x3F800000, 0xBF800000] : List Lane).Perm [0xBF800000, 0x3F800000] ∧ windowsOk [] [] = true ∧
    (addend 0 94 0x6D800000).isSome = true ∧ 2 ^ 95 ≤ signed 96 (bits (2 ^ 95 - 1) 95 0) + 1 ∧
    signed 96 (bits (2 ^ 95) 95 0) - 1 < -(2 : Int) ^ 95 := by decide +kernel

/-- A window of one row of lanes at the top of facet memory. -/
def win64 (discard : Bool) : Nat := (0x80000 - 1024) * 2 ^ 77 + 64 * 2 ^ 61 + 8 * 2 ^ 53 + 30 * 2 ^ 46 + (if discard then 2 ^ 45 else 0)
/-- Facet 1023 with such a window 0, its memory good. -/
def winS (bundle : Nat) (discard : Bool) (q : List Flit) : State :=
  let f := fac0 bundle
  { facS { f with copy0 := { f.copy0 with prog := { f.copy0.prog with windows := [win64 discard] } }, iq := [(7, q)] } with
    mem := MemSys.reset.write (facetAddr 1023 (0x80000 - 1024)) (List.replicate 1024 0) }

theorem test_windows : ∀ o ∈ [(0x1C, vword 0x1C 0 0 7 0 1 0 0), (0x1D, vword 0x1D 7 0 0 0 1 0 0), (0x1E, vword 0x1E 0 0 0 0 1 0 0)],
    let s := winS (o.2 * 2 ^ 40) false []
    let w := (s.facet 1023).active.prog.windows.getD (vFn (s.facet 1023).vop) 0
    VectorReady s 1023 o.1 ∧ vRows (s.facet 1023).vop = 1 ∧ (s.facet 1023).firstLane (s.facet 1023).vop = 0 ∧ 0 + 64 ≤ winLanes w ∧
    s.mem.wf = true ∧ winBase w % 128 = 0 ∧ winBase w + 16 * winLanes w ≤ 0x80000 ∧ vA (s.facet 1023).vop < 8 ∧ winDiscard w = false ∧
    (∀ i < winLanes w, lanePoison s.mem 1023 w i = false) ∧
    (∀ i < winLanes w, tget s.mem.flips (laneAddr 1023 w i / 8) = none ∧ tget s.mem.flips (laneAddr 1023 w i / 8 + 1) = none) := by
  unfold VectorReady; decide +kernel

/-- A group of 16 addends at OFFSET 48, with a serial. -/
def group16 (serial : Nat) : List Flit :=
  [⟨serial * 2 ^ 112 + 48 * 2 ^ 64 + 16 * 2 ^ 48 + 1 * 2 ^ 40, mkSb true false false 0⟩, ⟨1, mkSb true false true 0⟩]

theorem test_exact_add_groups : ∀ c ∈ [(winS 0 false (group16 1), 1), (winS 0 true (group16 0), 0), (winS 0 false (group16 0), 0)],
    c.1.dev.effs = [] ∧ c.1.dev.alive = true ∧ (c.1.facet 1023).active.valid = true ∧ (c.1.facet 1023).held = false ∧ (c.1.facet 1023).frozen = false ∧
    (c.1.facet 1023).iqOf 7 = group16 c.2 ∧ tget (c.1.facet 1023).grps 7 = none ∧ tget (c.1.facet 1023).active.iq 7 = none ∧ c.1.dev.facetJob 1023 = none ∧
    (∀ h ∈ (group16 c.2).head?, flitL h = false ∧ grpSerial h.pay = c.2 ∧ grpOp h.pay = 1 ∧ grpOffset h.pay + grpCount h.pay ≤ 64 ∧
      grpOffset h.pay % 8 = 0 ∧ grpCount h.pay ≤ 16 ∧ grpWin h.pay = 0) ∧ flitL ((group16 c.2).getD 1 ⟨0, 0⟩) = true ∧
    ((c.1.facet 1023).win 0).serial = 0 ∧ c.1.mem.wf = true := by decide +kernel

theorem test_scalar_operations :
    (facS (fac0 0)).dev.mayArray (facS (fac0 0)).ctx 1023 = true ∧ bits ((facS (fac0 0)).facet 1023).aop 31 28 = 0 ∧
    (facS (fac0 0)).dev.mayVector (facS (fac0 0)).ctx 1023 = true ∧ vOpc ((facS (fac0 0)).facet 1023).vop = 0 ∧
    (∀ o ∈ [0x00, 0x01, 0x02, 0x03, 0x04, 0x05, 0x06, 0x07, 0x08, 0x09, 0x0B], ControlReady (ctlS (cword o 15 15 15 0)) 1023 o) ∧
    ((ctlS (cword 0x04 0 15 0 0)).facet 1023).sreg 15 = 0 ∧
    (let s := facS { fac0 (cword 0x04 0 15 0 1023 * 2 ^ 8) with s := List.replicate 16 (BitVec.ofNat 64 (2 ^ 64 - 1)) }
     ControlReady s 1023 0x04 ∧ (s.facet 1023).sreg (cA (s.facet 1023).cop) ≠ 0) := by
  unfold ControlReady; decide +kernel

theorem test_bundle_end : ∃ f g h : Facet, (f.doneA = true ∧ f.doneV = true ∧ f.ended = false ∧ f.doneC = false) ∧ (g.doneA = true ∧ g.doneV = true ∧ g.ended = true) ∧ h = f :=
  ⟨{ fac0 0 with doneA := true, doneV := true }, { fac0 0 with doneA := true, doneV := true, ended := true }, _, by decide, by decide, rfl⟩

/-- Facet 1023 waits: S[0] = 1, IQ7 holds the last flit of stream 1, window 15 expects 1 and has none. -/
def waitF (o : Nat) (stall : Stall) (iq : List Flit) (arrivals : Nat) : Facet :=
  { fac0 (cword o 0 0 0 (if o = 0x0A then 7 else 15) * 2 ^ 8) with
    s := 1 :: List.replicate 15 0, iq := [(7, iq)], wins := [(15, ⟨0, 1, arrivals, 0⟩)], stall := stall }
/-- The last flit of stream 1. -/
def last1 : Flit := ⟨0, mkSb true false true 1⟩

theorem test_waits :
    (let s := { facS (waitF 0x06 .none [] 0) with dev := { (facS (waitF 0x06 .none [] 0)).dev with sync := [(15, 1)] } }
     ControlDecides s 1023 0x06 ∧ (s.facet 1023).sreg 0 ≤ s.dev.syncCtr (bits (cImm (s.facet 1023).cop) 12 0)) ∧
    (ControlDecides (facS (waitF 0x06 .none [] 0)) 1023 0x06 ∧ ¬ ((facS (waitF 0x06 .none [] 0)).facet 1023).sreg 0 ≤ (facS (waitF 0x06 .none [] 0)).dev.syncCtr 15) ∧
    (ControlDecides (facS (waitF 0x0A .none [last1] 0)) 1023 0x0A ∧ flitL last1 = true ∧ flitStream last1 = 1 ∧
      last1 ∈ ((facS (waitF 0x0A .none [last1] 0)).facet 1023).iqOf 7 ∧ bits (cImm ((facS (waitF 0x0A .none [last1] 0)).facet 1023).cop) 2 0 = 7) ∧
    (ControlDecides (facS (waitF 0x0A .none [] 0)) 1023 0x0A ∧ ((facS (waitF 0x0A .none [] 0)).facet 1023).iqOf 7 = []) ∧
    (ControlDecides (facS (waitF 0x0B .none [] 1)) 1023 0x0B ∧ (((facS (waitF 0x0B .none [] 1)).facet 1023).win 15).expect ≤ (((facS (waitF 0x0B .none [] 1)).facet 1023).win 15).arrivals) ∧
    (ControlDecides (facS (waitF 0x0B .none [] 0)) 1023 0x0B ∧ ¬ (((facS (waitF 0x0B .none [] 0)).facet 1023).win 15).expect ≤ (((facS (waitF 0x0B .none [] 0)).facet 1023).win 15).arrivals) := by
  unfold ControlDecides ProgramRuns; decide +kernel

theorem test_waits_issued :
    (∀ o ∈ [0x06, 0x0A, 0x0B], let s := facS { waitF o .none [] 0 with issued := true }
     ControlReady s 1023 o ∧ (s.facet 1023).issued = true) ∧
    ((facS (waitF 0x06 .none [] 0)).facet 1023).doneV = false ∧
    (let s := facS { waitF 0x06 .none [] 0 with copy0 := { (waitF 0x06 .none [] 0).copy0 with prog := { (waitF 0x06 .none [] 0).copy0.prog with
       bundles := [vword 0x01 7 7 7 7 1 0 0 * 2 ^ 40 + cword 0x06 0 0 0 15 * 2 ^ 8] } } }
     ControlDecides s 1023 0x06 ∧ ¬ (s.facet 1023).sreg 0 ≤ s.dev.syncCtr 15 ∧ (s.facet 1023).doneV = false ∧ vOpc (s.facet 1023).vop = 0x01) := by
  unfold ControlDecides ControlReady ProgramRuns; decide +kernel

theorem test_stall_release : ∀ st ∈ [Stall.sync, .waitl, .waitw, .iqEmpty 7, .oqFull 7],
    let s := facS { waitF 0x06 st fourFlits 1 with
      copy0 := { (waitF 0x06 st [] 1).copy0 with oq := [(7, ⟨0, 1, 64, 0⟩)] }, credits := [(7, 64)] }
    s.dev.runs s.ctx 1023 = true ∧ (s.facet 1023).stall = st ∧ 4 ≤ ((s.facet 1023).iqOf 7).length ∧ (s.facet 1023).oqRoom 7 = true := by decide +kernel

/-- Facet 1023 about to access its memory at S[0], whose last line is good. -/
def memS (o : Nat) : State :=
  { facS { fac0 (cword o 7 0 1 0 * 2 ^ 8) with s := BitVec.ofNat 64 (0x80000 - 256) :: 3 :: List.replicate 14 0 } with
    mem := MemSys.reset.write (facetAddr 1023 (0x80000 - 256)) (List.replicate 256 0) }

theorem test_program_memory : ∀ o ∈ [0x01, 0x02, 0x08, 0x09], let s := memS o
    let f := s.facet 1023
    ControlReady s 1023 o ∧ s.mem.wf = true ∧ lineAddr (f.sreg (cA f.cop)) + 256 * (bits (cImm f.cop) 13 10 + 1) ≤ 0x80000 ∧
    (∀ k ∈ facetWords 1023 (lineAddr (f.sreg (cA f.cop))) 256, tget s.mem.flips k = none ∧ s.mem.poisoned (8 * k) = false) ∧
    bits (cImm f.cop) 9 6 + (bits (cImm f.cop) 13 10 + 1) ≤ 16 ∧ (f.trow (cD f.cop % 8) 0).mask = 2 ^ 64 - 1 := by
  unfold ControlReady; decide +kernel

/-- Facet 1023 about to issue tile command 0 of MXFP4 operands (16 x 64 x 32). -/
def issueS (bank : BankState) : State :=
  let f := fac0 ((1 * 2 ^ 28) * 2 ^ 88)
  { facS { f with bank0 := { Bank.zero with st := bank }, drainQ := if bank = .ready then [0] else [] } with
    mem := MemSys.reset.write (facetAddr 1023 0) (List.replicate 4096 0) }

theorem test_issue :
    (let s := issueS .free
     let f := s.facet 1023
     s.dev.effs = [] ∧ s.dev.mayArray s.ctx 1023 = true ∧ bits f.aop 31 28 = 1 ∧ passes (tcShape (f.active.prog.tiles.getD 0 0)) = 1 ∧
     f.passes = [] ∧ tcAsrc (f.active.prog.tiles.getD 0 0) = false ∧ tcBsrc (f.active.prog.tiles.getD 0 0) = false) ∧
    (let s := issueS .ready
     let f := s.facet 1023
     ProgramRuns s 1023 ∧ f.issued = false ∧ f.doneA = false ∧ bits f.aop 31 28 = 1 ∧ passes (tcShape (f.active.prog.tiles.getD 0 0)) = 1 ∧ f.bankBusy f.curBank = true) := by
  unfold ProgramRuns; decide +kernel

theorem test_issue_memory : let s := issueS .free
    ∀ k ∈ facetWords 1023 0 (aBytes 0) ++ facetWords 1023 0 (bBytes 0), tget s.mem.flips k = none ∧ s.mem.poisoned (8 * k) = false := by decide +kernel

/-- A pass that has all its operands, into bank 1. -/
def passF : Facet := { fac0 0 with passes := [⟨1, 0, ⟨List.replicate (aBytes 0) 0, aBytes 0, none, false, false⟩, ⟨List.replicate (bBytes 0) 0, bBytes 0, none, false, false⟩, 0xFFFF, 2 ^ 64 - 1⟩] }

theorem test_pass_complete : let s := facS passF
    s.dev.effs = [] ∧ s.dev.executes s.ctx = true ∧ (s.facet 1023).powered = true ∧ (s.facet 1023).held = false ∧ (s.facet 1023).frozen = false ∧
    (∀ p ∈ (s.facet 1023).passes, p.a.full = true ∧ p.b.full = true ∧ p.a.queue = none ∧ p.b.queue = none ∧ p.bank < 2 ∧ ((s.facet 1023).bank p.bank).st = .free) ∧
    (s.facet 1023).passes.length = 1 := by decide +kernel

theorem test_iteration_start : ∀ it ∈ [0, 1], let s := facS { fac0 0 with run := .idle, iter := it }
    s.dev.executes s.ctx = true ∧ (s.facet 1023).run = .idle ∧ (s.facet 1023).started = true ∧ (s.facet 1023).active.valid = true ∧
    s.dev.facetComp 1023 = some 7 ∧ (s.dev.canopyOf 7).st ≠ .flipping ∧ ((s.facet 1023).iter ≤ s.dev.nominal (s.facet 1023) ↔ it = 0) := by decide +kernel

theorem test_flit_arrival : ∀ c ∈ [(mkSb false false false 0, 0), (mkSb true true false 0, 0), (mkSb true false false 0, 63), (mkSb true false false 0, 64)],
    let s := facS { fac0 0 with arriving := [(7, ⟨0, c.1⟩)], iq := [(7, List.replicate c.2 ⟨0, 0⟩)], creditFly := [(7, 1)] }
    let f := s.facet 1023
    s.dev.effs = [] ∧ s.dev.executes s.ctx = true ∧ f.arriving = [(7, ⟨0, c.1⟩)] ∧ f.passes = [] ∧ (f.iqOf 7).length = c.2 ∧ f.epoch = false ∧ s.dev.facetJob 1023 = none ∧
    0 < tgetD f.creditFly 7 0 := by decide +kernel

/-- A facet whose slot 63 takes from side 3 into its queue 7. -/
def slotF (e : Nat) : Facet := { fac0 0 with copy0 := { (fac0 0).copy0 with slots := List.replicate 64 e }, bufs := [(3, [(63, ⟨0, 0⟩)])] }

theorem test_slot : let s := facS (slotF ((2048 + 3 * 256 + 7 * 32) * 2 ^ 48))
    s.dev.effs = [] ∧ s.dev.alive = true ∧ s.dev.legs = [] ∧ (∀ p < 16, (s.dev.port p).st ≠ .inService) ∧ s.dev.executes s.ctx = true ∧
    (s.facet 1023).switching = true ∧ (∀ dir < 4, ofEn (outField ((s.facet 1023).active.slots.getD 63 0) dir) = false) ∧
    ofEn (outField ((s.facet 1023).active.slots.getD 63 0) 4) = true ∧ ofSrc (outField ((s.facet 1023).active.slots.getD 63 0) 4) = 3 := by decide +kernel

/-- Facet 0 sends from queue 7 toward a neighbour; a port In service with nothing to send. -/
theorem test_slot_neighbour : ∃ dir < 4, ∃ m side, neighbour 0 dir = some (m, side) ∧
    let e := (2048 + 4 * 256 + 7 * 32) * 2 ^ (12 * dir)
    let s := at0 { dev0 with facets := [(0, { fac0 0 with copy0 := { (fac0 0).copy0 with slots := List.replicate 64 e } }), (m, fac0 0)] }
    s.dev.effs = [] ∧ s.dev.alive = true ∧ s.dev.legs = [] ∧ (∀ p < 16, (s.dev.port p).st ≠ .inService) ∧ (s.facet 0).poisonSeen = false ∧
    s.dev.executes s.ctx = true ∧ (s.facet 0).switching = true ∧ (∀ k < 5, k ≠ dir → ofEn (outField ((s.facet 0).active.slots.getD 63 0) k) = false) ∧
    ofEn (outField ((s.facet 0).active.slots.getD 63 0) dir) = true ∧ ofSrc (outField ((s.facet 0).active.slots.getD 63 0) dir) = 4 ∧
    (∀ k < 5, ofEn (outField ((s.facet m).active.slots.getD 63 0) k) = false) ∧ tkeys s.dev.facets = [Nat.min 0 m, Nat.max 0 m] :=
  ⟨1, by decide, 1, _, rfl, by decide +kernel⟩

/-- Port 15 in some state, with a plan entry. -/
def portS (q : Port) (plan : List Byte) : State := at0 (owned ({ dev0 with ports := [(15, q)] }.setObj 0x2000 6 (.bytes plan)))

theorem test_slot_port : let s := portS { Port.reset with st := .inService } []
    s.dev.facets = [] ∧ (∀ k < 16, k ≠ 15 → (s.dev.port k).st ≠ .inService) ∧ (s.dev.port 15).st = .inService ∧ (s.dev.port 15).changing = false ∧
    (s.dev.port 15).resend = [] ∧ (s.dev.port 15).pass = [] ∧ (s.dev.port 15).ctl = [] ∧ s.dev.effs = [] ∧ s.dev.legs = [] ∧ (s.dev.port 15).fifo = [] ∧ ((s.dev.port 15).slot 63).testBit 63 = false ∧ s.dev.alive = true := by decide +kernel
/-- Bytes of a wiring plan whose entry 15 is e. -/
def plan15 (e : Nat) : List Byte := List.replicate 480 0 ++ leBytes 32 e
/-- An IDENTITY payload that matches a planned entry of reach r. -/
def ident (r : Nat) : List Byte := List.replicate 15 0 ++ [16, BitVec.ofNat 8 r]

theorem test_link_training :
    (let s := portS Port.reset (plan15 (2 ^ 148))
     s.dev.effs = [] ∧ s.dev.alive = true ∧ s.dev.state ≠ .training ∧ (s.dev.port 15).st = .idle ∧ s.dev.portOn 15 = true ∧
     s.dev.state.placed? = true ∧ (s.dev.port 15).since = 0) ∧
    (let s := portS { Port.reset with st := .identifying, lanes := 16 } (plan15 (2 ^ 148))
     (s.dev.port 15).st = .identifying ∧ pePlanned (s.dev.planEntry 15) = true ∧ planMatches (s.dev.planEntry 15) (List.replicate 17 0) = true ∧
     planMatches (s.dev.planEntry 15) (1 :: List.replicate 7 0 ++ 9 :: List.replicate 8 0) = false) ∧
    (let s := portS { Port.reset with st := .identifying } []
     (s.dev.port 15).st = .identifying ∧ pePlanned (s.dev.planEntry 15) = false) ∧
    (let s := portS { Port.reset with st := .down, since := 936 } []
     s.dev.effs = [] ∧ s.dev.alive = true ∧ s.dev.state ≠ .training ∧ (s.dev.port 15).st = .down ∧ s.dev.portOn 15 = true ∧ (s.dev.port 15).since + 64 ≤ s.time.beat) ∧
    (let s := portS { Port.reset with st := .inService, changing := true } []
     (s.dev.port 15).changing = true ∧ s.dev.ballast.profChange = none ∧ (s.dev.port 15).farLanes = 0) := by decide +kernel

/-- A plan entry of 16 lanes lets a training link lock lanes. -/
theorem test_lanes_locked : let s := portS { Port.reset with st := .training } (plan15 (2 ^ 148))
    (s.dev.port 15).st = .training ∧ 4 ≤ min 16 (s.dev.lanesHere 15) := by decide +kernel

theorem test_link_losses :
    (let s := portS { Port.reset with st := .inService, lastMarker := 984, lastHeart := 935, skewRun := 64, resends := [(0, 8)] } []
     s.dev.effs = [] ∧ s.dev.alive = true ∧ s.dev.state ≠ .training ∧ s.dev.jobs = [] ∧ (s.dev.port 15).changing = false ∧ (s.dev.port 15).st = .inService ∧
     (s.dev.port 15).lastMarker + 16 ≤ s.time.beat ∧ (s.dev.port 15).lastHeart + 65 ≤ s.time.beat ∧ (∃ r ∈ (s.dev.port 15).resends, 8 ≤ r.2) ∧
     64 ≤ (s.dev.port 15).skewRun) := by decide +kernel

/-- A job that runs alone on compartment 7. -/
def job0 : Job := {
  st := .running, comp := 7, spar := false, rank := 0, members := [0], slice := 1, origin := ⟨63, 1⟩, endOrigin := [], digest := [],
  peerImage := false, header := 0, info := ImageInfo.none, hostImage := 0, groups := [7], released := false, regionHeld := true, tiered := false,
  pageSize := 4096, wbase := workBase, wlen := 0, kvBase := workBase, kvLen := 0, countBuf := 0, maxStep := 100, lastStep := 0, agree := 1,
  confirmed := [], formedAt := 0, serial := 0, nextAdm := 1, staged := none, step := none, doneBeats := [], doneFlags := [], results := [],
  shares := [], flights := [], freeFrames := [], prefixes := [], automata := [], plans := [], inj := false, phase := .none, frozenAt := 0,
  iced := false, before := .forming, failed := [], linkSlot := none, imageRank := 0, passed := true, endStatus := 0, faultStatus := 0,
  held := false, applied := [], undone := none, aborts := [], parity := [], retBase := [], cntBase := [], early := [], reruns := [] }
/-- A stream leg from rank 0 on port 15 to rank 1. -/
def leg0 : Leg := ⟨0, 0, 1, 15, 0, 1, 64, 64, 0, 0, 2 ^ 63, [], [], [], [], [], [(15, 64)], 0, 0, 0, false, false, false⟩
/-- A tree of two members. -/
def tree0 : List TreeEntry := [⟨0, 0xFFFF, 0, 0, 0, 0⟩, ⟨1, 0, 0, 14, 0, 0⟩]
/-- Job 63 with one leg in a device whose port 15 is In service. -/
def legS (b : Job) (l : Leg) (q : Port) : State :=
  at0 (owned { dev0 with ports := [(15, q)], jobs := [(63, b)], legs := [(63 * 4096, l)], routes := [(63, ⟨5, 0, tree0, [], 0, 0, []⟩)] })
/-- The port of these legs. -/
def port0 : Port := { Port.reset with st := .inService }

theorem test_leg_loss : let s := legS job0 leg0 port0
    s.dev.effs = [] ∧ s.dev.alive = true ∧ s.dev.state ≠ .training ∧ s.dev.jobs = [(63, job0)] ∧ s.dev.board = [] ∧
    (s.dev.port 15).st = .inService ∧ (s.dev.port 15).changing = false ∧ job0.st = .running ∧ (tget s.dev.routes 63).isSome = true ∧ s.dev.legs = [(63 * 4096, leg0)] ∧ leg0.broken = false ∧
    legUses tree0 0 leg0 15 = true ∧ (∀ e ∈ treeLinks tree0 0, e.1 ≠ 15) := by decide +kernel

/-- The destination of leg0: rank 1, on its port 15. -/
def legB : Leg := { leg0 with dstPort := 15, srcPort := 0, srcRank := 1, dstRank := 0 }

theorem test_frames : let s := legS job0 legB port0
    s.dev.effs = [] ∧ s.dev.alive = true ∧ (s.dev.port 15).st = .inService ∧ s.dev.passRecs = [] ∧ s.dev.gust.armed = false ∧ s.dev.throughIn 15 63 = none ∧ s.dev.formAt 15 63 = none ∧ legB.through = [] ∧
    s.dev.legs = [(63 * 4096, legB)] ∧ tget legB.credits 15 = some 64 ∧
    legB.mask.testBit 63 = true ∧ (s.dev.port 15).fifo = [] ∧ (s.dev.port 15).expected = 0 ∧ s.dev.legAt 15 63 = some (63 * 4096, legB) ∧ job0.st = .running ∧
    tget s.dev.jobs (63 * 4096 / 4096) = some job0 ∧ job0.iced = false ∧ 0 = s.dev.num (0x4100 + job0.comp) 8 ∧ legB.kind = 0 ∧
    (legB.enc = true → true = true) ∧ legB.rx.length + 3 ≤ legB.rxb := by decide +kernel

/-- A leg that leaves by port 15 and ends elsewhere: the credits of an IDLE frame are its own. -/
theorem test_credit_frame : let s := legS job0 leg0 port0
    s.dev.legs = [(63 * 4096, leg0)] ∧ tget leg0.credits 15 = some 64 ∧ leg0.mask.testBit 63 = true ∧ leg0.through = [] ∧ s.dev.throughIn 15 63 = none ∧
    s.dev.formAt 15 63 = none ∧ s.dev.passRecs = [] ∧ tget s.dev.jobs 63 = some job0 ∧ tget s.dev.routes 63 = some ⟨5, 0, tree0, [], 0, 0, []⟩ ∧
    legIn tree0 job0.rank leg0 = none := by decide +kernel

theorem test_bad_frames : readFrame [] = none ∧ ∃ raw g, readFrame raw = some g ∧ g.typ = 0 ∧ g.seq ≠ 0 :=
  ⟨by decide +kernel, frameBytes { idleFrame with typ := 0, seq := 7 }, { idleFrame with typ := 0, seq := 7, ctl := List.replicate 192 0 }, by decide +kernel⟩

theorem test_markers : ∀ st ∈ [LinkState.conforming, .held, .inService], let s := portS { Port.reset with st := st, lastMarker := 999 } []
    (st = .inService → s.time.beat ≤ (s.dev.port 15).lastMarker + 1) ∧
    s.dev.effs = [] ∧ s.dev.alive = true ∧ (s.dev.port 15).st = st ∧ (-((s.dev.num 0x2010 5 : Int) * 1000) ≤ 16000 ∧ (16000 : Int) ≤ (s.dev.num 0x2010 5 : Int) * 1000) ∧
    ((s.dev.num 0x2010 5 : Int) * 1000 < 16001) ∧ (([0, 0, 0, 0, 0, 0, 0, 0, 4] : List Byte).getD 8 0).toNat = 4 := by decide +kernel

theorem test_probes : (let s := legS job0 leg0 port0
      s.dev.effs = [] ∧ s.dev.alive = true ∧ tget s.dev.legs (legKey 63 0) = some leg0 ∧ (tget s.dev.routes 63).isSome = true ∧ leg0.kind = 0 ∧
      job0.st = .running ∧ leg0.broken = false ∧ (s.dev.port leg0.srcPort).changing = false ∧ (s.dev.port leg0.srcPort).resend = [] ∧ leg0.srcRank = job0.rank ∧ (s.dev.port leg0.srcPort).st = .inService ∧ (s.dev.port leg0.srcPort).unacked.length < 1024) ∧
    (let l := { legB with lastProbe := 904 }
     let s := legS job0 l port0
     tget s.dev.legs (legKey 63 0) = some l ∧ (tget s.dev.routes 63).isSome = true ∧ l.broken = false ∧ l.endsAt job0.rank = true ∧ l.lastProbe + 96 ≤ s.time.beat) := by decide +kernel

theorem test_memory_form : MemSys.reset.wf = true ∧ MemSys.reset.poisoned workBase = false ∧ (0 : Nat) < ([1] : List Byte).length ∧ 8 * 2 + 8 ≤ 16 + 8 := by decide +kernel

/-- Memory of facet 1023 with its last 128 bytes good. -/
def goodMem : MemSys := MemSys.reset.write (facetAddr 1023 (0x80000 - 128)) (List.replicate 128 0)

theorem test_gondola_accesses : let s := { at0 (owned (dev0.setNum 0x2000 5 7)) with mem := goodMem }
    let addr := 7 * 2 ^ 49 + facetAddr 1023 (0x80000 - 64)
    let a := localOf addr
    s.fuse.wf = true ∧ s.time.wf = true ∧ s.mem.wf = true ∧ s.dev.effs = [] ∧ s.dev.alive = true ∧ s.dev.gondolaComp 15 = some 7 ∧ slotOf addr = s.dev.ownSlot ∧
    regionOf a = .facet 1023 ∧ a % 64 = 0 ∧ s.mem.flips = [] ∧ s.mem.anyPoison a 64 = false ∧ s.mem.touchesWeight a 64 = false ∧
    (∀ k ∈ [4, 8, 64], s.dev.accessStatus 7 a k = Config.ok) := by decide +kernel

theorem test_register_writes : let s := at0 (owned { dev0 with tether := { Tether.reset with st := .inService } })
    s.dev.effs = [] ∧ s.dev.alive = true ∧ s.dev.gondolaComp 15 = some 7 ∧ s.dev.facetComp 1023 = some 7 ∧ s.dev.facetComp 0 ≠ some 7 ∧
    s.dev.tether.st = .inService := by decide +kernel

theorem test_board_requests : let l := { leg0 with kind := 2 }
    let d := (legS job0 l port0).dev.setObj 0x2000 6 (.bytes (plan15 (2 ^ 147 + 3 * 2 ^ 154)))
    let s := { at0 d with mem := goodMem }
    let a := facetAddr 1023 (0x80000 - 64)
    s.dev.boardComp 5 = some (63, 7) ∧ s.dev.compState 7 = 1 ∧ (s.dev.boardLeg (fun i => decide (some 63 = some i)) 3).isSome = true ∧ regionOf a = .facet 1023 ∧
    s.mem.anyPoison a 64 = false ∧ s.mem.touchesWeight a 64 = false ∧ s.dev.accessStatus 7 a 64 = Config.ok ∧ a % 64 = 0 ∧ s.dev.boardComp 6 = none ∧
    s.fuse.wf = true ∧ s.time.wf = true ∧ s.mem.wf = true ∧ s.dev.effs = [] ∧ s.dev.alive = true := by decide +kernel

theorem test_board_replies : ∀ k ∈ [0, 1, 2, 3, 4], let s := at0 { dev0 with board := [(65535, ⟨.gondola 15, k, 0, 0, 64, 0, 1⟩)] }
    s.dev.effs = [] ∧ s.dev.alive = true ∧ tget s.dev.board 65535 = some ⟨.gondola 15, k, 0, 0, 64, 0, 1⟩ ∧ tget s.dev.board 0 = none := by decide +kernel

theorem test_beatref : (at0 dev0).dev.effs = [] ∧ (at0 dev0).dev.boot.porstLow = false ∧ (at0 dev0).time.ref = 0 := by decide +kernel

/-- A device whose pilot does not run yet, at a beat. -/
def early (st : DevState) (skip beat ref : Nat) : State :=
  { State.reset with time := ⟨beat, ref, 0, 0xFF, 0⟩, dev := { dev0 with state := st, boot := { dev0.boot with stage := .replay }, ballast := { Ballast.reset with skip := skip } } }

theorem test_boundaries : ∀ s ∈ [early .booting 0 14 0, early .booting 1 14 0, early .off 0 (2 ^ 20 - 1) 1, early .off 0 0 2],
    s.dev.effs = [] ∧ s.dev.boot.porstLow = false ∧ s.dev.pilotOn = false ∧ s.dev.state ≠ .training ∧ s.dev.ports = [] ∧ s.dev.tether.rings = [] ∧
    s.dev.bWaiting = false ∧ s.dev.gust.armed = false ∧ s.dev.gust.disarmDue = false ∧ s.dev.ballast.profChange = none ∧ s.dev.resume = [] ∧
    s.dev.notifyDue = false ∧ (∀ k ∈ s.dev.canopy, k.2.st ≠ .fenced ∧ k.2.st ≠ .flipping) ∧ (s.dev.tether.st = .idle → s.dev.boot.stage ≠ .done) ∧
    s.dev.tether.st ≠ .inService ∧ s.dev.tether.st ≠ .moored := by decide +kernel

theorem test_boundary_cases : (early .booting 0 14 0).dev.alive = true ∧ ¬ (15 * 0 / 16 < 16 * 0 / 16) ∧ 15 * 1 / 16 < 16 * 1 / 16 ∧
    (early .off 0 (2 ^ 20 - 1) 1).dev.alive = false ∧ ((early .off 0 (2 ^ 20 - 1) 1).time.beat + 1) % 2 ^ 20 = 0 ∧ (early .off 0 0 2).time.ref = 2 ∧ (early .off 0 0 2).dev.alive = false ∧
    (early .off 0 0 2).dev.ballast.brakeOn = false ∧ (early .off 0 0 2).dev.ballast.mooredHold = false ∧ (early .off 0 0 2).dev.ballast.moored ≠ .entering ∧
    (let s := early .booting 0 14 0
     ({ s.dev with ballast := { s.dev.ballast with brakeOn := true } } : Dev).alive = true) := by
  decide +kernel

theorem test_skip_count : capSkip 0 16000 15 = some 1 ∧ (15 : Nat) ≤ 15 := by decide +kernel

/-- A raw move of one 64-byte element inside compartment 7's working tier. -/
def descW (codec : Nat) : Nat :=
  (workBase + 15 * 0x100000000) * 2 ^ 460 + (workBase + 15 * 0x100000000 + 64) * 2 ^ 408 + (2 ^ 200 + 2 ^ 248 + 2 ^ 296 + 2 ^ 344 + 2 ^ 392) +
  15 * 2 ^ 164 + codec * 2 ^ 162 + 2 * 2 ^ 160 + 63 * 2 ^ 154 + 7 * 2 ^ 58
/-- Engine 31 with records. -/
def engS (rs : List Rec) : State := at0 (owned ({ dev0 with engines := [(31, { Engine.reset with recs := rs, next := 65535 })] }.setNum 0x2000 5 0))

theorem test_submission : (engS []).dev.effs = [] ∧ (engS []).dev.alive = true ∧ (engS []).dev.reaches 15 31 = some 7 ∧ descW 0 < 2 ^ 512 ∧
    (engS []).dev.submitStatus 31 7 (descW 1) = Config.range ∧ ((engS []).dev.engine 31).next < 65536 ∧ (∀ r ∈ ((engS []).dev.engine 31).recs, r.num ≠ 65535) ∧ (engS []).dev.reaches 0 31 = none ∧ (engS []).dev.reaches 15 0 = none ∧
    ((engS []).dev.canopyOf 7).active.descs.length ≤ 0 := by decide +kernel

/-- A plain descriptor passes whether or not it has a multicast destination (assumption 183); one of another key slot does not. -/
theorem test_submission_passes : (engS []).dev.submitStatus 31 7 (descW 0) = Config.ok ∧
    (engS []).dev.submitStatus 31 7 (descW 0 - 2 ^ 154) = Config.accessDenied := by
  have h : ∀ b, (engS []).dev.submitCheck b 31 7 (descW 0) = Config.ok ∧ (engS []).dev.submitCheck b 31 7 (descW 0 - 2 ^ 154) = Config.accessDenied := by
    decide +kernel
  exact ⟨(h _).1, (h _).2⟩

/-- A full engine. -/
theorem test_submission_full : let rs := (List.range 256).map fun i => (⟨i, 0, .queued, 0, 0, 0, .gondola, []⟩ : Rec)
    256 ≤ ((engS rs).dev.engine 31).outst := by decide +kernel

theorem test_descriptor_start : let r : Rec := ⟨1, 2 ^ 93 + 2 ^ 61, .queued, 0, 0, 0, .gondola, []⟩
    let q : Rec := ⟨2, 0, .waiting, 0, 0, 0, .gondola, []⟩
    (engS [r]).dev.ballast.brakeOn = false ∧ sdWaitEn r.desc = true ∧ (engS [r]).dev.syncCtr (sdWaitCtr r.desc) < sdWaitVal r.desc ∧ sdWaitEn q.desc = false ∧
    (((engS [q]).dev.engine 31).recs.filter fun r => decide (r.st = .active)).length < 8 ∧
    (let a (i : Nat) : Rec := ⟨i, 0, .active, 0, 0, 0, .gondola, []⟩
     8 ≤ (((engS ((List.range 8).map (fun i => a (10 + i)) ++ [q])).dev.engine 31).recs.filter fun r => decide (r.st = .active)).length) := by decide +kernel

theorem test_raw_element : let r : Rec := ⟨65535, descW 0, .active, 0, 0, 0, .gondola, []⟩
    let s := engS [r]
    let src := workBase + 15 * 0x100000000
    s.dev.effs = [] ∧ s.mem.wf = true ∧ s.dev.recOf 31 65535 = some r ∧ r.elem < sdTotal r.desc ∧ sdCodec r.desc = 0 ∧
    s.dev.elemAddr s.ctx r.desc r.elem (s.dev.elemPitch s.ctx r.desc r.elem) = (Config.ok, src, src + 64) ∧ src % 64 = 0 ∧ slotOf src = s.dev.ownSlot ∧
    slotOf (src + 64) = s.dev.ownSlot ∧ r.remote = [] ∧ r.status = 0 ∧ s.dev.ballast.brakeOn = false ∧ (∀ q ∈ (s.dev.engine 31).recs, q.num = 65535 → q = r) ∧
    s.mem.flips = [] ∧ s.mem.anyPoison (localOf src) 64 = false := by decide +kernel

/-- Its addresses are good, and facet memory of another compartment is none of its sources. -/
theorem test_raw_element_addresses : let r : Rec := ⟨65535, descW 0, .active, 0, 0, 0, .gondola, []⟩
    let s := engS [r]
    let src := workBase + 15 * 0x100000000
    s.dev.elemStatus s.ctx r.desc src (src + 64) 64 64 = Config.ok ∧ s.dev.elemStatus s.ctx r.desc 0 (src + 64) 64 64 ≠ Config.ok := by
  have h : ∀ b, let r : Rec := ⟨65535, descW 0, .active, 0, 0, 0, .gondola, []⟩
      let s := engS [r]
      let src := workBase + 15 * 0x100000000
      s.dev.elemCheck s.ctx b r.desc src (src + 64) 64 64 = Config.ok ∧ s.dev.elemCheck s.ctx b r.desc 0 (src + 64) 64 64 ≠ Config.ok := by decide +kernel
  exact ⟨(h _).1, (h _).2⟩

/-- A raw element with a POISON source, one whose source is no line, and one whose list has no entry for it. -/
theorem test_raw_element_fails :
    (let r : Rec := ⟨65535, descW 0 - 15 * 0x100000000 * 2 ^ 460 - workBase * 2 ^ 460 + facetAddr 1023 0 * 2 ^ 460, .active, 0, 0, 0, .gondola, []⟩
     let s := engS [r]
     s.dev.elemAddr s.ctx r.desc r.elem (s.dev.elemPitch s.ctx r.desc r.elem) = (Config.ok, facetAddr 1023 0, workBase + 15 * 0x100000000 + 64) ∧
     s.mem.anyPoison (localOf (facetAddr 1023 0)) 64 = true) ∧
    (let r : Rec := ⟨65535, descW 0 + 2 ^ 460, .active, 0, 0, 0, .gondola, []⟩
     let s := engS [r]
     s.dev.elemAddr s.ctx r.desc r.elem (s.dev.elemPitch s.ctx r.desc r.elem) = (Config.ok, workBase + 15 * 0x100000000 + 1, workBase + 15 * 0x100000000 + 64)) ∧
    (let r : Rec := ⟨65535, descW 0 + 2 ^ 126 + 2 ^ 123, .active, 0, 0, 0, .gondola, []⟩
     let s := engS [r]
     (s.dev.elemAddr s.ctx r.desc r.elem (s.dev.elemPitch s.ctx r.desc r.elem)).1 ≠ Config.ok) := by decide +kernel

theorem test_descriptor_ends : let done : Rec := ⟨65535, descW 0, .active, 1, 0, 0, .gondola, []⟩
    let bad : Rec := ⟨65535, descW 0, .active, 0, Config.authFail, 0, .gondola, []⟩
    (engS [done]).dev.recOf 31 65535 = some done ∧ sdTotal done.desc ≤ done.elem ∧ sdPlist done.desc = false ∧ (engS [bad]).dev.recOf 31 65535 = some bad ∧
    bad.status ≠ 0 ∧ bad.status ≠ Config.aborted ∧ (engS [done]).dev.reaches 15 31 = some 7 ∧ (engS []).dev.recOf 31 65535 = none ∧ done.remote = [] ∧
    (∀ q ∈ ((engS [done]).dev.engine 31).recs, q.num = 65535 → q = done) ∧
    (∀ desc ∈ [descW 0, descW 0 + 2 ^ 127], let w : Rec := { done with desc := desc }
      (engS [w]).dev.recOf 31 65535 = some w ∧ sdTotal w.desc ≤ w.elem ∧ slotOf (sdDst w.desc) = (engS [w]).dev.ownSlot ∧ (sdDsyncEn w.desc = true ↔ desc ≠ descW 0)) ∧
    (∀ st ∈ [RecState.queued, .waiting, .active, .done, .failed, .aborted, .aborting true], let w : Rec := { done with st := st }
      (engS [w]).dev.recOf 31 65535 = some w ∧ w.st = st ∧ (engS [w]).dev.farOpen 31 65535 = false) := by decide +kernel

/-- A descriptor with a write in flight on the board, aborted or not. -/
theorem test_abort_waits : ∀ st ∈ [RecState.active, .aborting true], let w : Rec := ⟨65535, descW 0, st, 0, 0, 0, .gondola, []⟩
    let r : BoardReq := ⟨.engine 31 65535 0, 1, 1, 0, 64, 0, 1⟩
    let s := at0 { (engS [w]).dev with board := [(7, r)] }
    s.dev.recOf 31 65535 = some w ∧ s.dev.farOpen 31 65535 = true ∧ s.dev.reaches 15 31 = some 7 ∧ s.dev.board = [(7, ⟨.engine 31 65535 0, 1, 1, 0, 64, 0, 1⟩)] ∧
    (∀ q ∈ (s.dev.engine 31).recs, q.num = 65535 → q = w) := by decide +kernel

/-- A device in a state, with memory training under way or not. -/
def trainS (st : DevState) (mem : Option Nat) : State := at0 { dev0 with state := st, boot := { dev0.boot with memFrom := mem } }

theorem test_memory_controllers : (trainS .placed none).dev.effs = [] ∧ (trainS .placed none).dev.alive = true ∧ (trainS .placed none).dev.state = .placed ∧
    (trainS .placed none).time.ref = 0 ∧ (trainS .training (some 0)).dev.alive = true ∧ (trainS .training (some 0)).dev.boot.memFrom ≠ none ∧
    (trainS .training (some 0)).dev.boot.memDone = false ∧ 6400 ≤ (trainS .training (some 0)).dev.num 0x4000 4 ∧
    (trainS .training (some 0)).dev.requiredDown = 0 ∧ ((trainS .training (some 0)).dev.setObj 0x2000 6 (.bytes (plan15 (2 ^ 149)))).requiredDown ≠ 0 := by
  decide +kernel

/-- A command entry: opcode, job and the rest of its bytes; its TAG is 7. -/
def ent (o job rest : Nat) : Nat := o + job * 2 ^ 16 + 7 * 2 ^ 32 + rest
/-- A device whose ring 31 belongs to compartment 7 and holds the command with an entry. -/
def ringD (d : Dev) (e : Nat) : Dev :=
  owned ({ d with tether := { Tether.reset with st := .inService, rings := [(31, { Ring.reset with st := 1 })], cmds := [(cmdKey 31 7, ⟨e, false, 0, false, false, 0⟩)] } }.setNum (0x2410 + 31) 8 7)
/-- That device at beat 1,000. -/
def cmdS (d : Dev) (e : Nat) : State := at0 (ringD d e)
/-- The bytes of the working tier of GDDR7 device 15. -/
def tier15 : Nat := workBase + 15 * 0x100000000
/-- The device with job 63, which is a job. -/
def jobD (b : Job) : Dev := { dev0 with jobs := [(63, b)] }

theorem test_scan_out : let e (first dst : Nat) := ent 0x50 63 (first * 2 ^ 64 + 2 ^ 80 + dst * 2 ^ 128)
    CommandReady (cmdS (jobD job0) (e 127 tier15)) 31 7 0x50 (e 127 tier15) ∧ tget (cmdS (jobD job0) (e 127 tier15)).dev.scans 7 = none ∧
    (cmdS (jobD job0) (e 127 tier15)).dev.scanFacets (e 127 tier15) = some (job0, [127]) ∧ (cmdS (jobD job0) (e 127 tier15)).dev.scanRange 7 tier15 1 false = true ∧
    efield (e 127 tier15) 16 8 % 2 ^ 49 = tier15 ∧
    (cmdS (jobD job0) (e 128 tier15)).dev.scanFacets (e 128 tier15) = none ∧ (cmdS (jobD job0) (e 127 workBase)).dev.scanFacets (e 127 workBase) = some (job0, [127]) ∧
    (cmdS (jobD job0) (e 127 workBase)).dev.scanRange 7 workBase 1 false = false := by
  delta CommandReady; decide +kernel

theorem test_scan_records : let e := ent 0x50 63 (127 * 2 ^ 64 + 2 ^ 80 + tier15 * 2 ^ 128)
    let k : Scan := ⟨31, 7, [127], false, false, tier15, 999, none, [127]⟩
    let s := cmdS { jobD job0 with scans := [(7, k)] } e
    s.dev.effs = [] ∧ s.mem.wf = true ∧ s.dev.alive = true ∧ tget s.dev.scans 7 = some k ∧ s.dev.scanJob k = some (63, job0) ∧ k.heldAt = none ∧
    k.accepted < s.time.beat ∧ s.dev.ballast.brakeOn = false ∧ s.dev.scanJob { k with heldAt := some 1000 } = some (63, job0) ∧ 127 ∈ k.todo ∧
    inRest k.dest = false ∧ inRest (k.dest + k.facets.idxOf 127 * scanPitch k.withMem false) = false := by decide +kernel

theorem test_scan_in : let e := ent 0x51 63 (127 * 2 ^ 64 + 2 ^ 80 + tier15 * 2 ^ 128)
    let s := cmdS (jobD job0) e
    CommandReady s 31 7 0x51 e ∧ tget s.dev.scans 7 = none ∧ (ebyte e 12).testBit 0 = false ∧ inRest tier15 = false ∧ (∀ i < 1, inRest (tier15 + i * scanLen false) = false) ∧
    s.dev.scanFacets e = some (job0, [127]) ∧ s.dev.scanRange 7 tier15 1 false = true ∧ (s.dev.facet (physFacet job0.groups 127)).held = false := by
  delta CommandReady; decide +kernel

/-- A device with a Tether. -/
def teth (t : Tether) : State := at0 { dev0 with tether := t }

theorem test_tether_link : ∀ st ∈ [TetherState.training, .inService, .down], ∀ since ∈ [936, 937], let s := teth { Tether.reset with st := st, since := since }
    s.dev.effs = [] ∧ s.dev.alive = true ∧ s.dev.tether.st = st ∧ (since = 936 → s.dev.tether.since + 64 ≤ s.time.beat) ∧
    (since = 937 → s.time.beat < s.dev.tether.since + 64) := by decide +kernel

theorem test_tether_lost : let c : Cmd := ⟨ent 4 63 0, false, 0, false, false, 0⟩
    let s := teth { Tether.reset with st := .training, lost := [cmdKey 31 7], cmds := [(cmdKey 31 7, c)] }
    s.dev.tether.lost = [cmdKey 31 7] ∧ s.dev.cmd 31 7 = some c := by decide +kernel

/-- Ring 31 with 16 submission and 16 completion entries. -/
def ringS (g : Ring) (reads : Tab DevRead) (cmds : Tab Cmd) (pend : List Compl) : State :=
  at0 (((owned { dev0 with tether := { Tether.reset with st := .inService, rings := [(31, g)], reads := reads, cmds := cmds, pend := pend } }).setNum
    (0x2410 + 31) 2 16).setNum (0x2410 + 31) 4 16)
/-- An enabled ring. -/
def ring1 : Ring := { Ring.reset with st := 1 }

theorem test_doorbells : (ringS ring1 [] [] []).dev.effs = [] ∧ (ringS ring1 [] [] []).dev.linkUp = true ∧ ((ringS ring1 [] [] []).dev.ring 31).st = 1 ∧
    15 % 65536 < (ringS ring1 [] [] []).dev.num (0x2410 + 31) 2 ∧ (ringS ring1 [] [] []).dev.num (0x2410 + 31) 2 ≤ 16 % 65536 ∧ ((ringS ring1 [] [] []).dev.ring 0).st ≠ 1 ∧
    (let g := { ring1 with cqTail := 1, cqUsed := 3 }
     (ringS g [] [] []).dev.ring 31 = g ∧ 3 ≤ g.cqUsed ∧ g.cqUsed ≤ 16 ∧ 1 % 131072 = (g.cqTail + 16 - g.cqUsed + 3) % 16 ∧ 14 % 131072 = (g.cqTail + 16 - g.cqUsed + 0) % 16) := by
  decide +kernel

theorem test_apertures : let s := at0 ((ringS ring1 [] [] []).dev.setNum (0x2460 + 7) 1 (tier15 + 0))
    s.dev.linkUp = true ∧ s.dev.num (0x2460 + 7) 1 ≠ 0 ∧ s.dev.accessStatus 7 (tier15 + (2 ^ 32 - 64) % 2 ^ 32) 64 = Config.ok ∧ (2 ^ 32 - 64) % 2 ^ 32 + 64 ≤ 2 ^ 32 ∧
    s.dev.num (0x4200 + 7) 2 = 0 ∧ s.dev.num (0x2460 + 6) 1 = 0 := by decide +kernel

/-- A device with a fetch of one entry of ring 31 outstanding under tag 65,535, among others. -/
def ahead (before after : List Fetched) (s : State) : State :=
  at0 { s.dev with tether := { s.dev.tether with fetched := before ++ ⟨65535, 31, 1, none⟩ :: after } }

theorem test_fetched_entries : let p : DevRead := ⟨.entries 31 0 1, false, 0⟩
    let s (cmds : Tab Cmd) := ahead [] [] (ringS ring1 [(65535, p)] cmds [])
    let c : Cmd := ⟨ent 4 63 0, false, 0, false, false, 0⟩
    (s []).dev.effs = [] ∧ (s []).dev.linkUp = true ∧ tget (s []).dev.tether.reads 65535 = some p ∧ p.use = .entries 31 0 1 ∧ ((s []).dev.ring 31).st ≠ 0 ∧ ((s []).dev.ring 31).st = 1 ∧
    (s []).dev.cmd 31 (eTag (ent 4 63 0)) = none ∧ (operandData (ent 4 63 0)).2 = 0 ∧ (s []).dev.firstChecks 31 (ent 0x7F 63 0) false ≠ Config.ok ∧
    (s []).dev.firstChecks 31 (ent 4 63 0) false = Config.ok ∧ (s [(cmdKey 31 7, c)]).dev.cmd 31 (eTag (ent 4 63 0)) = some c ∧
    (s []).dev.tether.fetched = [⟨65535, 31, 1, none⟩] := by decide +kernel

theorem test_fetched_early : let p : DevRead := ⟨.entries 31 0 1, false, 0⟩
    let s := ahead [⟨7, 30, 8, none⟩] [⟨8, 31, 1, none⟩] (ringS ring1 [(65535, p)] [] [])
    s.dev.effs = [] ∧ s.dev.linkUp = true ∧ tget s.dev.tether.reads 65535 = some p ∧
    s.dev.tether.fetched = ⟨7, 30, 8, none⟩ :: [] ++ ⟨65535, 31, 1, none⟩ :: [⟨8, 31, 1, none⟩] := by decide +kernel

theorem test_lost_operands : let p : DevRead := ⟨.operands 31 7, false, 0⟩
    let c : Cmd := ⟨ent 1 63 0, false, 0, false, false, 0⟩
    let s := ringS ring1 [(65535, p)] [(cmdKey 31 7, c)] []
    tget s.dev.tether.reads 65535 = some p ∧ s.dev.cmd 31 7 = some c ∧ c.started = false ∧ s.dev.answered 31 7 = false ∧ twf s.dev.tether.reads = true ∧
    (∀ q ∈ s.dev.tether.reads, q.2.use = .operands 31 7 → q.1 = 65535) := by decide +kernel

theorem test_ring_fetch : let s := ringS { ring1 with tail := 15 } [] [] []
    let d := s.dev
    d.effs = [] ∧ d.linkUp = true ∧ d.tether.back = false ∧ d.tether.reads.length < 256 ∧ d.heldCmds < 16384 ∧ d.readTag ∉ d.tether.reads.map Prod.fst ∧ d.ready 0 = 0 ∧
    (d.tether.lastRing + 30) % 63 + 1 = 31 ∧ (d.ready 31 ≠ 0 ∧ d.ringWaits 31 = false) ∧ (∀ j < 30, ¬ (d.ready ((d.tether.lastRing + j) % 63 + 1) ≠ 0)) := by decide +kernel

theorem test_express_fetch : let s := at0 ({ dev0 with tether := { Tether.reset with st := .inService, rings := [(0, { ring1 with tail := 1 })] } }.setNum 0x2410 2 16)
    s.dev.linkUp = true ∧ s.dev.ready 0 ≠ 0 ∧ s.dev.readTag ∉ s.dev.tether.reads.map Prod.fst := by decide +kernel

theorem test_completion_write : let c : Compl := ⟨7, 0, 0, 0, 63, 0, 4, 31, 0, Config.range, 0, true⟩
    let s := ringS { ring1 with cqTail := 15, cqUsed := 15 } [] [] [c]
    s.dev.linkUp = true ∧ (s.dev.ring 31).st ≠ 0 ∧ (s.dev.ring 31).cqUsed < s.dev.num (0x2410 + 31) 4 ∧ s.dev.tether.pend = [] ++ c :: [] ∧ c.ring = 31 ∧
    (let f := ringS { ring1 with cqUsed := 16 } [] [] [c]
     f.dev.num (0x2410 + 31) 4 ≤ (f.dev.ring 31).cqUsed) := by decide +kernel

theorem test_fail_stops : (at0 dev0).dev.effs = [] ∧ (at0 dev0).dev.alive = true ∧ (at0 dev0).dev.boot.stage = .done ∧ pmbFault (2 ^ 5) = true ∧ pmbFault 0 = false ∧
    (let s := at0 ({ dev0 with gust := { dev0.gust with armed := true } }.setNum 0x6000 0x1A 1000)
     s.dev.gust.armed = true ∧ s.dev.num 0x6000 0x1A ≠ 0 ∧ s.dev.gust.beat + s.dev.num 0x6000 0x1A ≤ s.time.beat ∧ s.dev.alive = true) := by decide +kernel

theorem test_reset_pins : State.reset.dev.boot.porstLow = true ∧ State.reset.dev.boot.sysrstLow = false ∧ dev0.boot.porstLow = false ∧ dev0.boot.stage = .done ∧ dev0.boot.sysrstLow = false ∧
    (∀ c ∈ [5, 6], let d := { dev0 with state := .stopped, boot := { dev0.boot with sysrstLow := true, stopCause := c } }
     d.boot.sysrstLow = true ∧ d.boot.porstLow = false ∧ d.boot.stage = .done ∧ (c = 6 ↔ (d.state = .stopped ∧ d.boot.stopCause = 6))) := by decide +kernel

/-- A boot at a stage. -/
def bootS (b : BootStage → Boot) (st : BootStage) : State := at0 { dev0 with state := .booting, boot := b st }

theorem test_boot_stages : ∀ st ∈ [BootStage.rom, .verify, .grounded], let s := bootS (fun st => { dev0.boot with stage := st }) st
    s.dev.effs = [] ∧ s.dev.boot.stage = st ∧ s.dev.boot.porstLow = false ∧ s.dev.boot.claim = none ∧ fwCheck s.fuse s.dev.boot.slot true ≠ 0 := by decide +kernel

theorem test_recovery : let s := bootS (fun st => { dev0.boot with stage := st, claim := some 1, recvTotal := 2, recv := [(0, [1]), (1, [2])] }) .grounded
    s.dev.boot.claim = some 1 ∧ (1 : Nat) + [(2 : Byte)].length ≤ s.dev.boot.recvTotal ∧ (1 : Nat) ≠ 2 ∧ s.dev.boot.recvTotal ≠ 0 ∧ s.dev.boot.recvTotal ≤ 12582912 ∧
    coverBytes s.dev.boot.recvTotal s.dev.boot.recv = some [1, 2] ∧ fwCheck s.fuse [1, 2] true ≠ 0 := by decide +kernel

/-- Frames that the management port takes and drops (R337, R339). -/
theorem test_frames_of_the_port : netOk okNet = true ∧ ([{ okNet with tagged := true }, { okNet with etherType := 0x0800 }, { okNet with bytes := 1519 },
    { okNet with linkLocal := false }, { okNet with plain := false }].all fun n => !netOk n) = true ∧ netOk { okNet with bytes := 1518 } = true := by decide +kernel

/-- Of two valid boot parameter blocks the one of the higher number counts; a blank flash has none. -/
theorem test_boot_parameters : Boot.reset.bpb = none ∧
    (let b : Boot := { Boot.reset with bpb0 := dev0.bpbBlock 1, bpb1 := dev0.bpbBlock 2 }
     b.bpb = some (dev0.bpbBlock 2)) ∧ (let b : Boot := { Boot.reset with bpb0 := dev0.bpbBlock 1, bpb1 := [1] }
     b.bpb = some (dev0.bpbBlock 1)) := by decide +kernel

/-- A journal record of a checkpoint. -/
def rec0 (seq : Nat) : JRec := ⟨seq, 0, 0, .checkpoint 7 0 0 1⟩

theorem test_flash_and_fuses : (let s := bootS (fun st => { dev0.boot with stage := st }) .replay
      s.dev.effs = [] ∧ s.dev.boot.stage = .replay ∧ s.dev.boot.porstLow = false ∧ s.dev.state = .booting ∧ twf s.dev.journal.snap = true) ∧
    (∀ i ∈ [2, 3, 4], ({ dev0 with boot := { dev0.boot with install := i } } : Dev).boot.install = i) ∧
    (let d : Dev := { dev0 with journal := { Journal.reset with queue := [rec0 1], compact := 2, recs := [rec0 0, rec0 5], cutSeq := 4 } }
     d.journal.queue = rec0 1 :: [] ∧ (∀ h ∈ d.heldReplies, 1 < h.1) ∧ d.journal.compact = 2 ∧ d.journal.recs = [rec0 0] ++ [rec0 5] ∧ (∀ r ∈ [rec0 0], r.seq ≤ d.journal.cutSeq) ∧
     (∀ r ∈ [rec0 5], d.journal.cutSeq < r.seq) ∧ d.effs = []) ∧
    (∀ low ∈ [true, false], let d : Dev := { dev0 with boot := { dev0.boot with fuseTarget := some 2, tamperDue := true, sysrstLow := low } }
     d.boot.fuseTarget = some 2 ∧ d.boot.porstLow = false ∧ d.boot.stage = .done ∧ d.granted Group.fuses = [] ∧ d.sessions = [] ∧ d.boot.sysrstLow = low ∧ d.boot.tamperDue = true) := by
  decide +kernel

/-- The device with a ballast. -/
def ballS (b : Ballast) : State := at0 { dev0 with ballast := b }

theorem test_profile_change : ∀ raise ∈ [true, false], let p : ProfChange := ⟨2, raise, raise, false, false, false, []⟩
    let s := ballS { Ballast.reset with profChange := some p }
    s.dev.effs = [] ∧ s.dev.alive = true ∧ s.dev.boot.stage = .done ∧ s.dev.ballast.profChange = some p ∧ p.raise = raise ∧ p.clockDone = false ∧
    (p.raise = true → p.vddDone = true) ∧ p.gddr = false := by decide +kernel

theorem test_brake : (ballS Ballast.reset).dev.ballast.brakeLow = false ∧ (ballS Ballast.reset).dev.ballast.leaseOut = false ∧ ((ballS Ballast.reset).dev.setNum 0x3100 5 0).num 0x3100 5 = 0 ∧
    (∀ m ∈ [MooredState.awake, .moored, .exiting], (ballS { Ballast.reset with moored := m }).dev.ballast.moored = m) ∧
    (ballS { Ballast.reset with brakeLow := true }).dev.ballast.brakeLow = true ∧
    (let s := ballS { Ballast.reset with brakeOn := true, highSince := 0 }
     s.dev.ballast.brakeOn = true ∧ s.dev.ballast.brakeLow = false ∧ s.dev.ballast.delayDone = false ∧ s.dev.ballast.highSince + s.dev.num 0x3200 4 ≤ s.time.beat) ∧
    (let s := { ballS { Ballast.reset with brakeOn := true, delayDone := true } with time := ⟨1008, 0, 0, 0xFF, 0⟩ }
     s.dev.ballast.delayDone = true ∧ s.time.beat % 16 = 0 ∧ s.dev.alive = true) := by decide +kernel

theorem test_moored : (let s := ballS { Ballast.reset with moored := .entering }
      s.dev.ballast.moored = .entering ∧ s.dev.ballast.emptied = false ∧ s.dev.enginesEmpty = true ∧ s.time.beat ≤ s.dev.ballast.mooredBeat + 4096 ∧ s.dev.alive = true) ∧
    (let s := { ballS { Ballast.reset with moored := .entering } with time := ⟨4096, 0, 0, 0xFF, 0⟩ }
     s.dev.ballast.emptied = false ∧ s.dev.ballast.mooredBeat + 4096 ≤ s.time.beat) ∧
    (∀ ask ∈ [true, false], let s := ballS { Ballast.reset with moored := .entering, emptied := true, mooredHold := true, exitAsked := ask }
     s.dev.ballast.emptied = true ∧ s.dev.ballast.mooredHold = true ∧ s.dev.ballast.exitAsked = ask) ∧
    (∀ low ∈ [true, false], (ballS { Ballast.reset with moored := .exiting, brakeLow := low }).dev.ballast.moored = .exiting) := by decide +kernel

/-- A request of job 63 in Decode, with 3 tokens of history and one to process. -/
def req0 : Req := {
  job := 63, serial := 5, st := .decode, committed := true, origin := ⟨31, 3⟩, wset := 9, gen := 2, recB := false, promptLen := 2, history := [1, 2, 3], kv := 3, input := [4],
  maxNew := 4, made := [], stops := [], seed := 0, temp := 0, topk := 1, topp := 0x3F800000, chunk := 0, ttft := 0, tbt := 0, hard := false, prio := false, reuse := false,
  deadline := none, mask := .none, cancel := [], retire := none, verifyFrom := 0, verifyUpTo := 0, pages := [], reserved := 64, sharedToks := 0, lastStep := 0,
  genChanged := false, replayed := false, replayTo := 0, verified := [] }
/-- A step in progress since beat 900. -/
def step0 (null : Bool) : StepRec := ⟨1, [⟨9, 2, 0, 1, false⟩], [⟨2, 5, 0, 3, 4, false, false⟩], 900, null, false, false, none⟩
/-- The host data of a JOB_START of a device alone. -/
def host0 (p : Nat) : JobHost := ⟨leBytes 128 (2 ^ 352 + p * 2 ^ 448), [0], [], [], []⟩

theorem test_job_start : let e := ent 0x20 62 0
    let st (p : Nat) := ((cmdS dev0 e).dev.began 31 7).startStatus 62 7 (host0 p).desc (host0 p).members (parseRoutes [] 1) 0 [] 0
    CommandReady (cmdS dev0 e) 31 7 0x20 e ∧ st 1 ≠ Config.ok ∧ st 4096 = Config.ok ∧ (cmdS dev0 e).fuse.number = 0 ∧ tget (cmdS dev0 e).dev.jobs 62 = none ∧ (cmdS dev0 e).dev.num (0x2030 + 7) 1 = 0 ∧
    leNat (((host0 4096).desc.drop 44).take 2) = 1 ∧ leNat ((host0 4096).imageHead.take 128) = 0 ∧
    (let b := { job0 with st := .ended }
     let s := cmdS { dev0 with jobs := [(62, b)] } e
     tget s.dev.jobs 62 = some b ∧ b.regionHeld = true ∧ (s.dev.began 31 7).startStatus 62 7 (host0 4096).desc (host0 4096).members (parseRoutes [] 1) 0 [] 0 = Config.ok) := by
  delta CommandReady; decide +kernel

theorem test_formation : (∀ st ∈ [JobState.forming, .loading], let b := { job0 with st := st, slice := 4, members := [0, 1, 2, 3], rank := 3, passed := false, formedAt := 0 }
      let s := { at0 (jobD b) with time := ⟨2 * Config.round, 0, 0, 0xFF, 0⟩ }
      s.dev.effs = [] ∧ s.dev.alive = true ∧ tget s.dev.jobs 63 = some b ∧ 0 < b.slice ∧ 0 ≠ b.rank ∧ b.confirmed.contains 0 = false ∧ b.st = st ∧ s.dev.profile = 0 ∧ b.linkSlot = none ∧
      s.dev.num (0x5340 + 63) 1 ≤ 2 ∧ b.confirmed.length + 2 < b.slice ∧ b.confirmed.length + 1 < b.slice ∧ b.formedAt + 2 * Config.round ≤ s.time.beat ∧ b.passed = false) ∧
    (let b := { job0 with st := .forming, slice := 2, members := [0, 1] }
     let s := legS b legB port0
     tget s.dev.jobs 63 = some b ∧ b.st = .forming ∧ b.slice = 2 ∧ b.confirmed.length + 2 = b.slice ∧ 1 ≠ b.rank ∧ okConfirm.status = Config.ok ∧ okConfirm.profile = s.dev.profile ∧
     okConfirm.mode = s.dev.num (0x5340 + 63) 1 ∧ okConfirm.rejoin = false ∧ b.peerImage = false ∧ b.linkSlot = none ∧ b.confirmed.contains 1 = false ∧
     s.dev.legs = [(63 * 4096, legB)] ∧ legB.endsAt b.rank = true) := by decide +kernel

/-- A leg that ends here has been probed, or not for two Rounds. -/
theorem test_formation_probes : ∀ probed ∈ [true, false], let b := { job0 with st := .forming, slice := 2, members := [0, 1], confirmed := [1] }
    let l := { legB with probed := probed }
    let s := { legS b l port0 with time := ⟨2 * Config.round, 0, 0, 0xFF, 0⟩ }
    tget s.dev.jobs 63 = some b ∧ b.st = .forming ∧ b.confirmed.length + 1 = b.slice ∧ s.dev.legs = [(63 * 4096, l)] ∧ l.endsAt b.rank = true ∧
    l.probed = probed ∧ l.lastProbe + 2 * Config.round ≤ s.time.beat := by decide +kernel

/-- A shadow that another job's reconfiguration takes up, and one that is free. -/
theorem test_shadow_busy : let b := { job0 with st := .loading, passed := false }
    let s (k : Canopy) := at0 (owned { jobD b with images := [(63, [])], canopy := [(7, k)] })
    (∀ st ∈ [Reconf.fenced, .flipping], (s { Canopy.reset with st := st, job := some 62 }).dev.shadowBusy b.comp 63 = true) ∧
    (∀ st ∈ [Reconf.idle, .shadowValid], (s { Canopy.reset with st := st }).dev.shadowBusy b.comp 63 = false) ∧ b.st = .loading ∧ b.passed = false ∧
    (s { Canopy.reset with st := .loading, job := some 63 }).dev.shadowBusy b.comp 63 = false := by decide +kernel

theorem test_loader : let b := { job0 with st := .loading, passed := false }
    let s := at0 (owned { jobD b with images := [(63, [])], canopy := [(7, { Canopy.reset with st := .loading, job := some 63 })] })
    s.dev.effs = [] ∧ s.dev.alive = true ∧ tget s.dev.jobs 63 = some b ∧ tget s.dev.images 63 = some [] ∧ b.st = .loading ∧ b.passed = false ∧ b.comp < 8 ∧ (s.dev.canopyOf b.comp).st = .loading ∧
    (match (s.dev.setNum (0x2310 + 7) 9 5).checkImage 7 63 b [] true with | .error sub => decide (sub ≠ 0) | .ok _ => false) = true := by decide +kernel

theorem test_job_end : ∀ st ∈ [JobState.running, .draining, .faulted, .ended, .forming, .loading], ∀ cancel ∈ [true, false],
    let e := ent 0x21 63 ((if cancel then 1 else 0) * 2 ^ 64)
    let b := { job0 with st := st }
    let s := cmdS (jobD b) e
    (s.dev.effs = [] ∧ s.dev.alive = true ∧ s.dev.state ≠ .moored ∧ s.dev.waiting 31 7 = some e ∧ eOpcode e = 0x21) ∧ ebyte e 8 = (if cancel then 1 else 0) ∧ eJob e = 63 ∧
    tget s.dev.jobs (eJob e) = some b ∧ b.st = st ∧ b.released = false ∧ b.regionHeld = true ∧ s.dev.gens b.comp = [] := by decide +kernel

/-- A current generation of weight set 9. -/
def gen2 : GenRec := { GenRec.none with gen := 2, role := 1, wsid := 3, tiles := 1, keyslot := 63 }
/-- A device with that generation and a job. -/
def servD (b : Job) (g : GenRec) (swap : Option Nat) : Dev := { jobD b with catalogs := [(7, ⟨[], [(9, ⟨g, GenRec.none, swap⟩)]⟩)], reqs := [(2, req0)] }

theorem test_admit : let e (plen : Nat) := ent 1 63 (9 * 2 ^ 64 + 2 * 2 ^ 96 + plen * 2 ^ 192 + 2 ^ 224 + 2 ^ 352 + 2 ^ 368 + 0x3F800000 * 2 ^ 384)
    let b := { job0 with header := 2 ^ 416, freeFrames := [0, 1] }
    let s (b : Job) (plen : Nat) := cmdS (servD b gen2 none) (e plen)
    (∀ n ∈ [0, 1], (s b n).dev.effs = [] ∧ (s b n).dev.alive = true ∧ (s b n).dev.state ≠ .moored ∧ (s b n).dev.waiting 31 7 = some (e n) ∧ eOpcode (e n) = 1) ∧
    ((s b 0).dev.began 31 7).admitStatus (e 0) [] ≠ Config.ok ∧ ((s b 1).dev.began 31 7).admitStatus (e 1) [8] = Config.ok ∧ tget (s b 1).dev.jobs (eJob (e 1)) = some b ∧
    (s b 1).dev.freeSlot = some 0 ∧ (s b 1).dev.genNamed b.comp (bits (efield (e 1) 8 2) 12 0) (efield (e 1) 12 4) = some (0, gen2) ∧
    (s b 1).dev.pagesReserved + pagesFor 2 ≤ 1048576 ∧ pagesFor 2 ≤ (s b 1).dev.framesLeft 63 b ∧ b.slice = 1 ∧
    (let b' := { b with freeFrames := [] }
     (s b' 1).dev.framesLeft 63 b' < pagesFor 2 ∧ ((s b' 1).dev.began 31 7).admitStatus (e 1) [8] = Config.ok) := by decide +kernel

/-- A command about request 2 of job 63, whose serial is 5. -/
def reqE (o rest : Nat) : Nat := ent o 63 (2 * 2 ^ 64 + 5 * 2 ^ 96 + rest)

theorem test_trim : ∀ n ∈ [0, 2, 3, 4], let s := cmdS (servD job0 gen2 none) (reqE 4 (n * 2 ^ 128))
    (s.dev.effs = [] ∧ s.dev.alive = true ∧ s.dev.state ≠ .moored ∧ s.dev.waiting 31 7 = some (reqE 4 (n * 2 ^ 128)) ∧ eOpcode (reqE 4 (n * 2 ^ 128)) = 4) ∧
    (s.dev.began 31 7).leadJob (reqE 4 (n * 2 ^ 128)) true = some job0 ∧ (s.dev.began 31 7).named 63 2 5 = some req0 ∧
    efield (reqE 4 (n * 2 ^ 128)) 8 2 = 2 ∧ efield (reqE 4 (n * 2 ^ 128)) 12 4 = 5 ∧ efield (reqE 4 (n * 2 ^ 128)) 16 4 = n ∧
    (n = 2 ∨ n = 3 → 0 < n ∧ n ≤ req0.history.length - (s.dev.began 31 7).sharedToks req0) ∧ (n = 4 → req0.history.length - (s.dev.began 31 7).sharedToks req0 < n) := by decide +kernel

/-- An automaton of one state over a vocabulary of one token. -/
def auto0 : List Byte := leBytes 64 (1 + 2 ^ 32 + 2 ^ 64) ++ leBytes 16 (0xFFFFFFFF * 2 ^ 96) ++ List.replicate 48 0 ++ List.replicate 64 0

theorem test_set_mask : (∀ kind ∈ [0, 1, 2, 3], let e := reqE 5 (kind * 2 ^ 80 + 255 * 2 ^ 88)
      let b := { job0 with automata := [(255, ⟨1, [(0, 0, 0, 0)], [], [0]⟩)] }
      let s := cmdS (servD b gen2 none) e
      (s.dev.effs = [] ∧ s.dev.alive = true ∧ s.dev.state ≠ .moored ∧ s.dev.waiting 31 7 = some e ∧ eOpcode e = 5) ∧ ebyte e 10 = kind ∧
      (s.dev.began 31 7).leadJob e true = some b ∧ (s.dev.began 31 7).named 63 2 5 = some req0 ∧ tget b.automata (ebyte e 11) = some ⟨1, [(0, 0, 0, 0)], [], [0]⟩ ∧
      (s.dev.began 31 7).usesAutomaton 63 (ebyte e 11) = false ∧ efield e 28 4 < 1) ∧
    parseAutomaton [] = none ∧ (parseAutomaton auto0).isSome = true := by decide +kernel

theorem test_append_cancel : (∀ o ∈ [2, 3], let s := cmdS (servD { job0 with tiered := true } gen2 none) (reqE o 0)
      (s.dev.effs = [] ∧ s.dev.alive = true ∧ s.dev.state ≠ .moored ∧ s.dev.waiting 31 7 = some (reqE o 0) ∧ eOpcode (reqE o 0) = o) ∧
      (s.dev.began 31 7).leadJob (reqE o 0) true = some { job0 with tiered := true } ∧ (s.dev.began 31 7).named 63 2 5 = some req0 ∧
      s.dev.lengthAhead 2 req0 + 1 ≤ 2097152 ∧ pagesFor (max req0.reserved (min 2097152 (s.dev.lengthAhead 2 req0 + 61 + (req0.maxNew - req0.made.length)))) = 2 ∧
      s.dev.pagesReserved + (2 - pagesFor req0.reserved) ≤ 1048576) ∧
    (let s := cmdS (servD job0 gen2 none) (reqE 2 0)
     (s.dev.began 31 7).leadJob (reqE 2 0) true = some job0 ∧ job0.tiered = false ∧ (s.dev.began 31 7).framesLeft 63 job0 < 1 ∧
     s.dev.lengthAhead 2 req0 + 61 ≤ 2097152 ∧ pagesFor req0.reserved = 1) ∧
    (let e := ent 3 63 (1 * 2 ^ 64 + 1 * 2 ^ 96)
     let b := { job0 with nextAdm := 6 }
     let s := cmdS (servD b gen2 none) e
     (s.dev.began 31 7).leadJob e true = some b ∧ (s.dev.began 31 7).named 63 1 1 = none ∧ 1 ≤ efield e 12 4 ∧ efield e 12 4 < b.nextAdm ∧ s.dev.waiting 31 7 = some e ∧ eOpcode e = 3) := by
  decide +kernel

theorem test_catalog : (∀ swap ∈ [none, some 1], ∀ role ∈ [1, 2], ∀ o ∈ [0x10, 0x11, 0x12], let e := ent o 63 (9 * 2 ^ 64 + 2 * 2 ^ 96)
      let en : CatEntry := ⟨{ gen2 with role := role }, GenRec.none, swap⟩
      let s := cmdS (servD job0 { gen2 with role := role } swap) e
      (s.dev.effs = [] ∧ s.dev.alive = true ∧ s.dev.state ≠ .moored ∧ s.dev.waiting 31 7 = some e ∧ eOpcode e = o) ∧ tget (s.dev.catalog 7).entries (efield e 8 2) = some en ∧ s.dev.ringComp 31 = 7 ∧
      s.dev.compState 7 = 1 ∧ ((s.dev.recsOf 7 9).find? fun r => decide (r.2.gen = efield e 12 4)) = some (0, { gen2 with role := role }) ∧ en.a.hold = 0 ∧
      (s.dev.began 31 7).loadStatus s.ctx 7 e (List.replicate 32 0) ≠ Config.ok) ∧
    (let e := ent 0x12 63 (9 * 2 ^ 64 + 3 * 2 ^ 96)
     let s := cmdS (servD job0 gen2 none) e
     s.dev.compState 7 = 1 ∧ ((s.dev.recsOf 7 9).find? fun r => decide (r.2.gen = efield e 12 4)) = none) := by decide +kernel

theorem test_lifts : (∀ store ∈ [[], [(3, (⟨1, false⟩ : StoreKey))], [(3, ⟨1, true⟩)]], ∀ keys ∈ [[], [(63, (⟨3, 0, 0⟩ : KeySlot))], [(63, ⟨5, 0, 0⟩)]], ∀ res ∈ [0, 1],
      let b := { job0 with wlen := 2 ^ 24, wbase := tier15 }
      let g := { gen2 with res := res }
      let s := at0 (owned { servD b g none with comps := [(7, { Comp.reset with store := store })], keys := keys })
      s.dev.effs = [] ∧ s.dev.alive = true ∧ tget s.dev.jobs 63 = some b ∧ b.st = .running ∧ b.phase = .none ∧ b.comp < 8 ∧ (tget (s.dev.catalog 7).entries 9).isSome = true ∧
      s.dev.genAt 7 9 0 = g ∧ g.role ≠ 0 ∧ s.dev.wanted 7 9 0 = true ∧ s.dev.workEngine 7 = some 31 ∧ (res = 0 → (s.dev.freeRun 63 g.tiles).isSome = true) ∧
      (∀ p ∈ s.dev.engines, ∀ r ∈ p.2.recs, r.st.live = true → r.purpose ≠ .liftGen 63 9 0) ∧ tget (s.dev.comp 7).store g.wsid = tget store 3 ∧ tget s.dev.keys g.keyslot = tget keys 63) := by
  decide +kernel

theorem test_staging : let b := { job0 with rank := 1, slice := 2, members := [0, 1] }
    let s := at0 (owned (jobD b))
    s.dev.effs = [] ∧ s.dev.alive = true ∧ tget s.dev.jobs 63 = some b ∧ b.rank ≠ 0 ∧ b.stepping? = true ∧ b.phase ≠ .frozen ∧ b.phase ≠ .rejoining ∧ s.dev.reqs = [] ∧
    (∃ k : ReqCopy, k.kv = 0 ∧ ∃ a, k.auto = some a) :=
  ⟨by decide +kernel, by decide +kernel, by decide +kernel, by decide +kernel, by decide +kernel, by decide +kernel, by decide +kernel, by decide +kernel,
    { okCopy with auto := some ⟨0, ⟨1, [], [], []⟩, 0, 0, 0⟩ }, rfl, _, rfl⟩

/-- A member that holds no record of a generation that one of its requests waits for. -/
theorem test_lift_of_nothing : let b := { job0 with rank := 1, slice := 2, members := [0, 1] }
    let s := at0 (owned { jobD b with reqs := [(2, req0)] })
    s.dev.effs = [] ∧ s.dev.alive = true ∧ tget s.dev.jobs 63 = some b ∧ b.st = .running ∧ b.phase = .none ∧ (s.dev.genAt 7 9 0).role = 0 ∧ (s.dev.genAt 7 9 0).res = 0 ∧
    s.dev.wanted 7 9 0 = true ∧ b.rank ≠ 0 := by decide +kernel

/-- A step record of one group for weight set 9, generation 2, with one row of request 2. -/
def stepRec0 (count : Nat) : List Byte := leBytes 64 (1 + 2 ^ 16) ++ leBytes 16 (9 + 2 * 2 ^ 32) ++ leBytes 8 (2 * 2 ^ 50 + count * 2 ^ 37)

theorem test_step_command : let e := ent 0x30 15 0
    let b := { job0 with spar := true, header := 2 ^ 376 + 2 ^ 416 }
    let d (b : Job) := { servD b { gen2 with res := 2 } none with jobs := [(15, b)], reqs := [(2, { req0 with job := 15 })] }
    let s := cmdS (d b) e
    CommandReady s 31 7 0x30 e ∧ eJob e = 15 ∧ tget s.dev.jobs 15 = some b ∧ b.rank = 0 ∧ b.spar = true ∧ b.st = .running ∧ b.staged = none ∧ b.step = none ∧
    parseStep [] (hGroups b.header) = none ∧ parseStep (stepRec0 1) (hGroups b.header) = some ([(9, 2)], [⟨2, 0, 1⟩]) ∧ (s.dev.began 31 7).stepStatus 15 b [(9, 2)] [⟨2, 0, 1⟩] = Config.ok ∧
    (s.dev.began 31 7).stepStatus 15 b [(9, 2)] [⟨2, 0, 2⟩] ≠ Config.ok ∧ b.tiered = false ∧ tget (cmdS dev0 e).dev.jobs 15 = none ∧
    (let st := { step0 false with origin := some ⟨31, 3⟩ }
     let c := { b with step := some st }
     tget (cmdS (d c) e).dev.jobs 15 = some c ∧ c.step = some st ∧ st.origin = some ⟨31, 3⟩) ∧
    (∀ c ∈ [{ b with undone := some { step0 false with origin := some ⟨31, 3⟩ } }, { b with aborts := [⟨31, 3⟩] }, { b with st := .faulted }, { b with rank := 1 }],
      tget (cmdS (d c) e).dev.jobs 15 = some c) := by
  delta CommandReady; decide +kernel

theorem test_step_start : ∀ start ∈ [1000, 1001], let st := { step0 false with start := start }
    let b := { job0 with spar := true, staged := some st }
    let s := at0 (owned (jobD b))
    s.dev.alive = true ∧ tget s.dev.jobs 63 = some b ∧ b.staged = some st ∧ st.groups ≠ [] ∧ (s.dev.supply 63).startable 63 b = true ∧ s.dev.reqs = [] := by decide +kernel

theorem test_member_step_start : ∀ start ∈ [1000, 1001], let st := { step0 false with start := start }
    let b := { job0 with rank := 1, slice := 2, members := [0, 1], staged := some st }
    let s := at0 (owned (jobD b))
    s.dev.effs = [] ∧ s.dev.alive = true ∧ tget s.dev.jobs 63 = some b ∧ b.rank ≠ 0 ∧ b.spar = false ∧ b.step = none ∧ b.staged = some st ∧ st.groups ≠ [] ∧
    s.dev.startable 63 b = true := by decide +kernel

theorem test_steps : (let b := { job0 with step := some (step0 false) }
      let s := at0 (owned (jobD b))
      s.dev.effs = [] ∧ s.dev.alive = true ∧ tget s.dev.jobs 63 = some b ∧ b.step = some (step0 false) ∧ b.phase = .none ∧ tget b.doneBeats b.rank = none ∧ b.rank = 0 ∧ (s.dev.supply 63).supplied 63 = true ∧
      s.dev.facetsIdle b = true ∧ b.boundaryDue (900 + 65535) = false ∧ ({ s with time := ⟨900 + 65535, 0, 0, 0xFF, 0⟩ } : State).time.beat = (step0 false).start + 65535 ∧
      (let t := at0 (owned { jobD b with facets := [(28, { Facet.reset with run := .running })] })
       tget t.dev.jobs 63 = some b ∧ t.dev.facetsIdle b = false)) ∧
    (let b := { job0 with step := some (step0 true) }
     let s := at0 (owned { dev0 with jobs := [(15, b)] })
     s.dev.groups = [] ∧ s.dev.bWaiting = false ∧ (step0 true).origin = none ∧ (step0 true).null = true ∧ (step0 true).start + 1 ≤ s.time.beat ∧ b.iced = false ∧ b.staged = none ∧ s.dev.reqs = [] ∧
     s.dev.schanges = [] ∧ s.dev.tether.pend = [] ∧ b.spar = false ∧ b.st = .running ∧ (step0 true).rows.length ≤ 32768) ∧
    (let res : RowResult := ⟨[], []⟩
     let b := { job0 with st := .faulted, phase := .frozen, rank := 1, slice := 2, members := [0, 1], step := some (step0 false), doneBeats := [(0, 950), (1, 950)], results := [res] }
     let s := at0 (owned { dev0 with jobs := [(15, b)], reqs := [(b.reqKey 15 2, { req0 with job := 15 })] })
     b.boundaryDue s.time.beat = true ∧ (step0 false).rows = [⟨2, 5, 0, 3, 4, false, false⟩] ∧ tget s.dev.reqs (b.reqKey 15 2) = some { req0 with job := 15 } ∧ req0.serial = 5 ∧
     req0.st.live = true ∧ req0.kv = 3 ∧ req0.history.length = 3 ∧ req0.cancel = [] ∧ req0.maxNew ≠ 0 ∧ req0.pages = []) ∧
    (let b := { job0 with rank := 1, slice := 2, members := [0, 1], step := some (step0 false) }
     0 < b.slice ∧ 0 ≠ b.rank ∧ tget b.doneBeats 0 = none ∧ tget ({ b with doneBeats := [(0, 1)] } : Job).doneBeats 0 = some 1) := by decide +kernel

/-- A routing record of layer 255 whose router, dispatch and return facet are logical facet 0. -/
def route0 : Nat := 255 * 2 ^ 248
/-- A job in a step that plans rounds, with its plans. -/
def planJob (spar : Bool) (plans : List Plan) : Job := { job0 with
  spar := spar, header := 4 * 2 ^ 368, info := { ImageInfo.none with routing := [route0] }, step := some { step0 false with origin := some ⟨31, 3⟩ }, plans := plans }
/-- A pending plan. -/
def plan0 (waiting : List Nat) : Plan := ⟨255, 0, 1, 2, 9, 0, .pending, 0, 0, some ⟨31, 7⟩, waiting⟩
/-- The count record of layer 255, group 0 of step 1: 2 rounds, 9 at most. -/
def planMem : MemSys := MemSys.reset.write (facetAddr (physFacet [7] 0) 0) (leBytes 64 (1 + 255 * 2 ^ 16 + 2 * 2 ^ 32 + 9 * 2 ^ 48) ++ List.replicate 128 0)

theorem test_plans : ∀ spar ∈ [true, false], let b := planJob spar []
    let s := { at0 (jobD b) with mem := planMem }
    let r := b.countRecord s.ctx route0
    s.dev.effs = [] ∧ s.dev.alive = true ∧ tget s.dev.jobs 63 = some b ∧ b.routeOf 255 = some route0 ∧ b.planning = true ∧ b.planOf 255 0 = none ∧ countFor r 1 255 0 = true ∧
    countNeed r = 2 ∧ countMax r = 9 ∧ b.spar = spar := by decide +kernel

theorem test_plan_forward : let b := { planJob true [plan0 [1]] with slice := 2, members := [0, 1] }
    let c : Cmd := ⟨ent 0x31 63 0, false, 0, true, false, 0⟩
    let s := at0 { jobD b with tether := { Tether.reset with cmds := [(cmdKey 31 7, c)] } }
    tget s.dev.jobs 63 = some b ∧ b.planOf 255 0 = some (plan0 [1]) ∧ 1 < b.slice ∧ (plan0 [1]).waiting = [1] ∧ 1 ≠ b.rank ∧ (plan0 [1]).origin = some ⟨31, 7⟩ ∧ s.dev.cmd 31 7 = some c := by
  decide +kernel

theorem test_round_plan : let e (serial rounds : Nat) := ent 0x31 63 (serial * 2 ^ 64 + 255 * 2 ^ 80 + rounds * 2 ^ 96)
    let b := planJob true [plan0 []]
    CommandReady (cmdS (jobD b) (e 1 4)) 31 7 0x31 (e 1 4) ∧ tget (cmdS (jobD b) (e 1 4)).dev.jobs (eJob (e 1 4)) = some b ∧ b.rank = 0 ∧ b.planning = true ∧
    b.planOf (ebyte (e 1 4) 10) (ebyte (e 1 4) 11) = some (plan0 []) ∧ (plan0 []).serial = efield (e 1 4) 8 2 ∧ (plan0 []).need ≤ ebyte (e 1 4) 12 ∧ ebyte (e 1 4) 12 ≤ hRounds b.header ∧ b.slice = 1 ∧
    b.routeOf (ebyte (e 1 4) 10) = some route0 ∧ (plan0 []).serial ≠ efield (e 2 4) 8 2 ∧ ebyte (e 1 1) 12 < (plan0 []).need ∧ hRounds b.header < ebyte (e 1 5) 12 ∧
    (planJob true []).planOf 255 0 = none ∧ tget (cmdS dev0 (e 1 4)).dev.jobs 63 = none := by
  delta CommandReady; decide +kernel

/-- Compartment 7 under reconfiguration. -/
def recoS (k : Canopy) (b : Job) (fs : Tab Facet) : State := at0 (owned { jobD b with canopy := [(7, k)], facets := fs })

theorem test_reconfiguration : let b := { job0 with st := .loading }
    let k : Canopy := { Canopy.reset with st := .fenced, job := some 63 }
    let s := recoS k b []
    s.dev.effs = [] ∧ s.dev.alive = true ∧ s.dev.canopyOf 7 = k ∧ k.st = .fenced ∧ s.dev.drained 7 k = true ∧ s.dev.canopyJob 7 k = some (63, b) ∧ tget s.dev.jobs 63 = some b ∧
    (recoS k b [(28, { Facet.reset with run := .running })]).dev.drained 7 k = false ∧ k.job = some 63 ∧ b.comp = 7 ∧ b.iced = false ∧ b.step = none ∧ b.staged = none ∧
    (s.dev.drainFacets 7 k).Nodup ∧ s.dev.groups = [] ∧ s.dev.schanges = [] ∧ s.dev.reqs = [] := by decide +kernel

theorem test_flip : let b := { job0 with st := .loading }
    let k (beat : Nat) : Canopy := { Canopy.reset with st := .flipping, job := some 63, drain := some beat }
    (k 999).st = .flipping ∧ (recoS (k 999) b []).dev.flipDue 7 1000 (k 999) = true ∧ (recoS (k 1000) b []).dev.flipDue 7 1000 (k 1000) = false ∧
    1000 < (k 999).fence + (recoS (k 999) b []).dev.num 0x2300 1 ∧ (k 999).fence + (recoS (k 999) b []).dev.num 0x2300 1 ≤ 2 ^ 32 ∧
    (let b := { b with slice := 2, members := [0, 1] }
     (recoS (k 999) b []).dev.canopyJob 7 (k 999) = some (63, b) ∧ 1 ≠ b.rank ∧ 1 < b.slice ∧ tget (k 999).drains 1 = none) := by decide +kernel

/-- A session of a provisioner. -/
def sess0 (v : Via) : Session := ⟨1, 0xFF, v, 0, 0, 5, [4, 5], [(4, some ⟨v, 7, 4, 0x10, 0, 0, 0, false, true, []⟩), (5, none)], none, none⟩
/-- A request. -/
def msg0 (v : Via) (op seq group : Nat) (body : List Byte) : OapMsg := ⟨v, 7, seq, group, op, false, 1, true, true, body, true, true, true, true, true, okNet⟩
/-- A device with a session on a transport, a port that is up, and a DICT command for an operation. -/
def oapS (v : Via) (op : Nat) (gs : Tab Group) : State :=
  at0 { ringD dev0 (ent (dictOpcode op) 0 (2 ^ 16 * 2 ^ 256)) with portState := 3, sessions := [(7, sess0 v)], groups := gs, nextGroup := 2 }

theorem brings_port {s : State} {m : OapMsg} {c : Nat} (e : Nat) (hv : m.via = .port c) (h : s.dev.effs = [] ∧ m.lengthOk = true ∧ m.version = 1 ∧
    opCodes.contains m.op = true ∧ s.dev.portUp = true ∧ s.dev.boot.stage = .done ∧ netOk m.net = true ∧ m.net.waiting < 32) : Brings s m (portCmd m) e :=
  ⟨h.1, h.2.1, h.2.2.1, h.2.2.2.1, by rw [hv]; exact ⟨rfl, h.2.2.2.2⟩⟩

theorem brings_ring {s : State} {m : OapMsg} {r g : Nat} (e : Nat) (hv : m.via = .ring r g) (h : s.dev.effs = [] ∧ m.lengthOk = true ∧ m.version = 1 ∧
    opCodes.contains m.op = true ∧ s.dev.alive = true ∧ s.dev.state ≠ .moored ∧ s.dev.waiting r g = some e ∧ eOpcode e = dictOpcode m.op ∧ s.dev.dictTurn r g = true) : Brings s m (dictCmd r g m) e :=
  ⟨h.1, h.2.1, h.2.2.1, h.2.2.2.1, by
    rw [hv]; exact ⟨rfl, ⟨h.1, h.2.2.2.2.1, h.2.2.2.2.2.1, h.2.2.2.2.2.2.1, h.2.2.2.2.2.2.2.1⟩, h.2.2.2.2.2.2.2.2⟩⟩

theorem accepts_role {s : State} {m : OapMsg} {q : Session} (h : tget s.dev.sessions m.session = some q ∧ sameVia q.via m.via = true ∧ m.tagOk = true ∧ q.high < m.seq ∧
    (∀ p ∈ q.replies, p.1 ≠ m.seq) ∧ q.role = 1) : Accepts s m q :=
  ⟨h.1, h.2.1, h.2.2.1, h.2.2.2.1, h.2.2.2.2.1, fun r => absurd (h.2.2.2.2.2.symm.trans r) (by decide), by
    rcases m.via with c | ⟨r, g⟩
    · trivial
    · exact fun r => absurd (h.2.2.2.2.2.symm.trans r) (by decide)⟩

/-- A group of the session in a state. -/
def group0 (st : GroupState) (es : List Entry) : Group := ⟨st, 7, 1, true, es, classOf es, 0, 0, 0, 0, 0, 0, none⟩

/-- Every operation can be brought and accepted on the port. -/
theorem test_port_requests : ∀ op ∈ [3, 4, 0x10, 0x11, 0x12, 0x20, 0x21, 0x22, 0x23, 0x24, 0x30], ∀ st ∈ [GroupState.opened, .granted, .committed],
    let m := msg0 (.port 9) op 6 1 (List.replicate 8 0)
    let s := oapS (.port 9) op [(1, group0 st [])]
    Brings s m (portCmd m) 0 ∧ Accepts s m (sess0 (.port 9)) ∧ tget s.dev.groups m.group = some (group0 st []) ∧ (group0 st []).session = m.session := by
  have h : ∀ op ∈ [3, 4, 0x10, 0x11, 0x12, 0x20, 0x21, 0x22, 0x23, 0x24, 0x30], ∀ st ∈ [GroupState.opened, .granted, .committed],
      let m := msg0 (.port 9) op 6 1 (List.replicate 8 0)
      let s := oapS (.port 9) op [(1, group0 st [])]
      let q := sess0 (.port 9)
      (s.dev.effs = [] ∧ m.lengthOk = true ∧ m.version = 1 ∧ opCodes.contains m.op = true ∧ s.dev.portUp = true ∧ s.dev.boot.stage = .done ∧ netOk m.net = true ∧ m.net.waiting < 32) ∧
      (tget s.dev.sessions m.session = some q ∧ sameVia q.via m.via = true ∧ m.tagOk = true ∧ q.high < m.seq ∧ (∀ p ∈ q.replies, p.1 ≠ m.seq) ∧ q.role = 1) ∧
      tget s.dev.groups m.group = some (group0 st []) ∧ (group0 st []).session = m.session := by decide +kernel
  exact fun op ho st hs => ⟨brings_port 0 rfl (h op ho st hs).1, accepts_role (h op ho st hs).2.1, (h op ho st hs).2.2⟩

/-- Every operation can be brought and accepted as a DICT command. -/
theorem test_dict_requests : ∀ op ∈ [0x10, 0x11, 0x12, 0x20, 0x21, 0x22, 0x23, 0x24, 0x30], let v := Via.ring 31 7
    let m := msg0 v op 6 1 []
    Brings (oapS v op []) m (dictCmd 31 7 m) (ent (dictOpcode op) 0 (2 ^ 16 * 2 ^ 256)) ∧ Accepts (oapS v op []) m (sess0 v) := by
  have h : ∀ op ∈ [0x10, 0x11, 0x12, 0x20, 0x21, 0x22, 0x23, 0x24, 0x30], let v := Via.ring 31 7
      let m := msg0 v op 6 1 []
      let s := oapS v op []
      let e := ent (dictOpcode op) 0 (2 ^ 16 * 2 ^ 256)
      (s.dev.effs = [] ∧ m.lengthOk = true ∧ m.version = 1 ∧ opCodes.contains m.op = true ∧ s.dev.alive = true ∧ s.dev.state ≠ .moored ∧ s.dev.waiting 31 7 = some e ∧ eOpcode e = dictOpcode m.op ∧ s.dev.dictTurn 31 7 = true) ∧
      (tget s.dev.sessions m.session = some (sess0 v) ∧ sameVia (sess0 v).via m.via = true ∧ m.tagOk = true ∧ (sess0 v).high < m.seq ∧ (∀ p ∈ (sess0 v).replies, p.1 ≠ m.seq) ∧ (sess0 v).role = 1) := by
    decide +kernel
  exact fun op ho => ⟨brings_ring _ rfl (h op ho).1, accepts_role (h op ho).2⟩

theorem test_repeats : let q := sess0 (.port 9)
    (q.replies.find? fun p => decide (p.1 = 4)) = some (4, some ⟨.port 9, 7, 4, 0x10, 0, 0, 0, false, true, []⟩) ∧ (q.replies.find? fun p => decide (p.1 = 5)) = some (5, none) ∧
    (q.replies.find? fun p => decide (p.1 = 0)) = none ∧ ((oapS (.port 9) 3 [(1, group0 .opened [])]).dev.groups.map Prod.fst).Nodup := by decide +kernel

/-- A write of 0x4207:08, the pacing of the sweep. -/
def entry0 (v : Nat) (kind : Nat) : Entry := ⟨kind, 0x4207, 8, leBytes 4 v, leBytes 4 0, none, [], true, true⟩

theorem test_group_commit : let d (g : Group) : Dev := { owned dev0 with groups := [(1, g)] }
    let s (g : Group) := at0 (d g)
    (∀ es ∈ [[entry0 500 0], [entry0 500 1], [entry0 1 0]], let g := group0 .granted es
      (s g).dev.effs = [] ∧ (s g).dev.pilotOn = true ∧ tget (s g).dev.groups 1 = some g ∧ g.st = .granted ∧ g.cls = 0 ∧ g.fuses = false ∧ (s g).dev.finished.length < 64) ∧
    (s (group0 .granted [entry0 500 1])).dev.guardFault (group0 .granted [entry0 500 1]) ≠ none ∧
    (let g := group0 .granted [entry0 500 0]
     (s g).dev.guardFault g = none ∧ (s g).dev.groupFault (s g).ctx g = none ∧ plainObject 0x4200 8 = true ∧ (∀ e ∈ g.entries, (objRow e.index e.sub).map (fun r => (decide (r.ty ≠ 0x0B), r.base)) = some (true, 0x4200))) ∧
    (s (group0 .granted [entry0 1 0])).dev.groupFault (s (group0 .granted [entry0 1 0])).ctx (group0 .granted [entry0 1 0]) = none := by decide +kernel

theorem test_commit : let g := group0 .opened [entry0 500 0]
    let s := oapS (.port 9) 0x30 [(1, g)]
    let x := s.ctx
    let G := { g with asker := some ⟨.port 9, 7, 6, 0x30⟩, lastRound := x.round }
    tget s.dev.groups 1 = some g ∧ g.st = .opened ∧ s.dev.groupFault x G = none ∧ s.dev.journal.used + (jbytes (.grant G.cls G.jvals) + jbytes (.marker 0 0)) ≤ logBytes := by decide +kernel

theorem test_sessions_end : let s := oapS (.port 9) 3 [(1, group0 .opened [])]
    let t := { s with time := ⟨Config.round * 10000000, 0, 0, 0xFF, 0⟩ }
    t.dev.effs = [] ∧ t.dev.pilotOn = true ∧ tget t.dev.sessions 7 = some (sess0 (.port 9)) ∧ (sess0 (.port 9)).last + t.dev.num 0x1210 3 ≤ t.time.beat / Config.round ∧
    tget t.dev.groups 1 = some (group0 .opened []) ∧ (group0 .opened []).lastRound + t.dev.num 0x1100 7 ≤ t.time.beat / Config.round ∧
    (let p : Permit := ⟨1, 0, []⟩
     let q := { sess0 (.port 9) with permit := some 1 }
     let u := at0 { dev0 with permits := [(1, p)], sessions := [(7, q)] }
     tget u.dev.permits 1 = some p ∧ u.dev.boot.porstLow = false ∧ p.endRound ≤ u.time.beat / Config.round ∧ u.dev.sessions = [(7, q)] ∧ q.permit = some 1) := by decide +kernel

theorem test_port_and_gust : (oapS (.port 9) 3 []).dev.portUp = true ∧ (at0 dev0).dev.portUp = false ∧ (at0 { dev0 with portState := 2 }).dev.portState = 2 ∧
    (let s := { at0 dev0 with time := ⟨Config.round * 10000000, 0, 0, 0xFF, 0⟩ }
     s.dev.pilotOn = true ∧ s.dev.num 0x1220 2 ≠ 1 ∧ max s.dev.mgrRound s.dev.mgrBase + s.dev.num 0x1220 1 ≤ s.time.beat / Config.round) ∧
    (let s := at0 ({ dev0 with gust := ⟨true, 0, none, false⟩ }.setNum 0x6000 5 1000)
     s.dev.gust.armed = true ∧ s.dev.num 0x6000 5 ≠ 0 ∧ s.dev.gust.beat + s.dev.num 0x6000 5 ≤ s.time.beat) ∧
    (let m : Samp := ⟨true, 1000, 0, []⟩
     let s := at0 ({ dev0 with samp := [(7, m)] }.setNum 0x4107 1 1)
     tget s.dev.samp 7 = some m ∧ s.dev.alive = true ∧ s.dev.compState 7 = 1 ∧ m.on = true ∧ m.from_ ≤ s.time.beat ∧ (s.time.beat - m.from_) % max 1 (s.dev.num (0x7010 + 7) 1) = 0) := by decide +kernel

/-- A device that runs an ABORT of the command with TAG 3 of a ring, which has an opcode. -/
def abortS (r op : Nat) (started : Bool) (d : Dev) : State :=
  let e := ent 0x60 0 (r * 2 ^ 64 + 3 * 2 ^ 96)
  let q := ringD d e
  at0 { q with tether := { q.tether with rings := [(31, { Ring.reset with st := 1, seen := [(3, op), (7, 0x60)] })],
                                         cmds := [(cmdKey 31 3, ⟨ent op 63 0, false, 0, started, false, 0⟩), (cmdKey 31 7, ⟨e, false, 0, false, false, 0⟩)] } }

theorem test_abort : (∀ op ∈ [0x11, 0x20, 0x30, 0x31, 0x42, 0x50, 0x51, 4], ∀ started ∈ [true, false], let s := abortS 31 op started dev0
      let e := ent 0x60 0 (31 * 2 ^ 64 + 3 * 2 ^ 96)
      (s.dev.effs = [] ∧ s.dev.alive = true ∧ s.dev.state ≠ .moored ∧ s.dev.waiting 31 7 = some e ∧ eOpcode e = 0x60) ∧ s.dev.groupOfCmd 31 3 = none ∧ ebyte e 8 = 31 ∧ efield e 12 4 = 3 ∧
      tget (s.dev.ring 31).seen 3 = some op ∧ abortable op = decide (op ≠ 4) ∧ s.dev.answered 31 3 = false ∧
      ((s.dev.began 31 7).cmd 31 3).map Cmd.started = some started) ∧
    (let s := abortS 64 4 false dev0
     s.dev.waiting 31 7 = some (ent 0x60 0 (64 * 2 ^ 64 + 3 * 2 ^ 96)) ∧ 63 < ebyte (ent 0x60 0 (64 * 2 ^ 64 + 3 * 2 ^ 96)) 8) ∧
    (abortS 30 4 false dev0).dev.ringComp 30 ≠ (abortS 30 4 false dev0).dev.ringComp 31 := by decide +kernel

theorem test_abort_running : (let b := { job0 with staged := some { step0 false with origin := some ⟨31, 3⟩ } }
      let s := abortS 31 0x30 true (jobD b)
      (s.dev.jobs.find? fun p => match p.2.staged with | some st => decide (st.origin = some ⟨31, 3⟩) | none => false) = some (63, b)) ∧
    (let q : SChange := ⟨7, none, 0, 1, .swapCmd 9 false ⟨31, 3⟩⟩
     let s := abortS 31 0x11 true { dev0 with schanges := [q] }
     (s.dev.schanges.find? fun p => match p.effect with | .swapCmd _ _ o => decide (o = ⟨31, 3⟩) | _ => false) = some q) ∧
    (let k : Scan := ⟨31, 3, [127], false, false, tier15, 999, some 1000, [127]⟩
     let s := abortS 31 0x50 true { jobD job0 with scans := [(7, k)] }
     (s.dev.scans.find? fun p => decide (p.2.ring = 31) && decide (p.2.tag = 3)) = some (7, k) ∧ (s.dev.began 31 7).scanJob k = some (63, job0)) := by decide +kernel

theorem test_recovery_phases : (let b := { job0 with st := .faulted, phase := .frozen, frozenAt := 999 }
      let s := at0 (jobD b)
      s.dev.effs = [] ∧ s.dev.alive = true ∧ tget s.dev.jobs 63 = some b ∧ b.iced = false ∧ b.frozenAt < s.time.beat ∧ s.dev.engines = [] ∧ s.dev.groups = [] ∧ (s.dev.canopyOf b.comp).group = none) ∧
    (let b := { job0 with st := .faulted, phase := .rejoining, rank := 1, slice := 2, members := [0, 1] }
     tget (at0 (jobD b)).dev.jobs 63 = some b ∧ b.rank ≠ 0 ∧ b.staged = none ∧ b.step = none ∧ (∀ k ∈ (at0 (jobD b)).dev.reqsOf 63, b.mirrorsLost (k % 16384) = false)) ∧
    (let b := { job0 with st := .faulted, before := .running, phase := .restoring, rank := 1, slice := 2, members := [0, 1] }
     let s := at0 (jobD b)
     tget s.dev.jobs 63 = some b ∧ b.before = .running ∧ b.undone = none ∧ b.aborts = [] ∧ s.dev.schanges = [] ∧ s.dev.reqs = [] ∧ b.st ≠ .ended ∧ b.phase ≠ .none ∧
     b.frozenAt + s.dev.num (0x5340 + 63) 4 * Config.round ≤ 2 ^ 60 ∧ ({ b with step := some (step0 false) } : Job).step ≠ none) := by decide +kernel

theorem test_teardown : ∀ step ∈ [1, 2], ∀ beat ∈ [0, 3097], let k : Comp := { Comp.reset with tearStep := step, tearBeat := beat }
    let s := { at0 ((owned { dev0 with comps := [(7, k)], engines := [(31, { Engine.reset with recs := [⟨1, descW 0, .active, 0, 0, 0, .gondola, []⟩] })] }).setNum 0x4107 1 2) with
      time := ⟨4096, 0, 0, 0xFF, 0⟩ }
    s.dev.effs = [] ∧ s.dev.alive = true ∧ s.dev.compState 7 = 2 ∧ (s.dev.comp 7).tearStep = step ∧ (beat = 0 → (s.dev.comp 7).tearBeat + 4096 ≤ s.time.beat) := by decide +kernel

theorem test_stripes : let d := ((((owned dev0).setNum 0x4207 2 16).setNum 0x4207 3 2).setNum 0x4207 5 tier15).setNum 0x4207 6 (2 * shardBytes)
    let s := at0 d
    s.dev.effs = [] ∧ s.dev.winchOn = true ∧ s.dev.num (0x4200 + 7) 6 / shardBytes = 2 ∧ s.dev.num (0x4200 + 7) 2 = 16 ∧ s.dev.num (0x4200 + 7) 3 = 2 ∧ s.dev.state ≠ .moored ∧
    (s.dev.jobs.any fun p => decide (p.2.comp = 7) && decide (p.2.st = .running) && (s.dev.groupMembers 7).all fun v => p.2.members.contains v) = false ∧
    (let t := at0 { d with jobs := [(63, job0)] }
     (t.dev.jobs.any fun p => decide (p.2.comp = 7) && decide (p.2.st = .running) && (t.dev.groupMembers 7).all fun v => p.2.members.contains v) = true) ∧
    rebuildShard 14 2 (s.dev.roleIn 7 1) [] = none ∧ (rebuildShard 14 2 (s.dev.roleIn 7 1) [(s.dev.roleIn 7 1, [1])]).isSome = true := by decide +kernel

theorem test_shadow_decode : let b := { job0 with st := .loading, phase := .rejoining, freeFrames := [5] }
    let q (fill : Nat) (place : PagePlace) : Req := { req0 with kv := 64, pages := [⟨place, fill, 1, false⟩] }
    let s (q : Req) := at0 ((owned { jobD b with reqs := [(2, q)] }).setNum (0x5340 + 63) 1 1)
    ∀ p ∈ [(0, PagePlace.reserved), (0, .working 5), (64, .working 5)], (s (q p.1 p.2)).dev.winchOn = true ∧ tget (s (q p.1 p.2)).dev.jobs 63 = some b ∧ (s (q p.1 p.2)).dev.num (0x5340 + 63) 1 = 1 ∧
      tget (s (q p.1 p.2)).dev.reqs (b.reqKey 63 2) = some (q p.1 p.2) ∧ (q p.1 p.2).job = 63 ∧ 64 * (0 + 1) ≤ (q p.1 p.2).kv ∧ (q p.1 p.2).pages[0]? = some ⟨p.2, p.1, 1, false⟩ ∧ b.freeFrames.head? = some 5 := by
  decide +kernel

/-- The plan of an aborted run, which the host has answered or not. -/
def rerun0 (o : Option Origin) : Plan := { plan0 [] with origin := o, rounds := 3 }

theorem test_plans_counted : ∀ n ∈ [0, 1], let b := planJob true []
    let s := at0 { jobD b with sync := [(syncOf b.comp (rrCntctr route0), n)] }
    b.step = some { step0 false with origin := some ⟨31, 3⟩ } ∧ s.dev.counted b route0 = decide (n = 1) := by decide +kernel

theorem test_plans_early : let b := { planJob true [] with step := some (step0 false), rank := 1, slice := 2, members := [0, 1], early := [(255, 0, 1, 3)] }
    b.spar = true ∧ (step0 false).restore = false ∧ (step0 false).origin = none ∧ b.rank ≠ 0 ∧ b.planning = true ∧
    b.early.find? (fun e => decide (e.1 = 255) && decide (e.2.1 = 0) && decide (e.2.2.1 = (step0 false).serial)) = some (255, 0, 1, 3) ∧
    (∀ e ∈ b.early, e.1 ≠ 255 ∨ e.2.1 ≠ 1 ∨ e.2.2.1 ≠ (step0 false).serial) := by decide +kernel

theorem test_plans_again : let b (o : Option Origin) := { planJob true [] with reruns := [rerun0 o] }
    (∀ o ∈ [none, some (⟨31, 3⟩ : Origin)], (b o).rerunOf 255 0 1 = some (rerun0 o) ∧ (b o).planOf 255 0 = none) ∧ (b none).rerunOf 255 1 1 = none ∧
    (rerun0 none).need ≤ 4 ∧ 4 ≤ hRounds (b none).header ∧ 1 < (rerun0 none).need ∧ hRounds (b none).header < 5 ∧
    (let c := { planJob true [plan0 []] with staged := some (step0 false), slice := 2, members := [0, 1] }
     1 < c.slice ∧ c.planning = true ∧ ({ c with step := none } : Job).planning = false ∧ ({ c with step := none } : Job).planOf 255 0 ≠ none) := by decide +kernel

theorem test_unstaged_reconfiguration : ∀ st ∈ [Reconf.fenced, .flipping], ∀ job ∈ [none, some 63], let k : Canopy := { Canopy.reset with st := st, job := job }
    (recoS k job0 []).dev.canopyOf 7 = k ∧ k.staged = job.isSome := by decide +kernel

/-- A nonce of HELLO on a transport, in this Round. -/
def nonceD (v : Via) (d : Dev) : Dev := { d with nonces := [(v, 0, 0)] }
/-- A SESSION_OPEN body for a role with a certificate. -/
def openBody (role : Nat) (cert : List Byte) : List Byte :=
  List.replicate 88 0 ++ leBytes 32 (Config.random 0) ++ leBytes 1 role ++ [0] ++ leBytes 2 cert.length ++ cert ++ List.replicate 114 0
/-- A certificate of a provisioner with no bound on the device. -/
def cert1 : List Byte := leBytes 4 0x31545243 ++ [1, 1] ++ List.replicate 252 0

theorem test_hello : ∀ op ∈ [1, 2], let m := { msg0 (.port 9) op 6 1 [] with session := 0 }
    Brings (oapS (.port 9) 3 []) m (portCmd m) 0 := by
  have h : ∀ op ∈ [1, 2], let m := { msg0 (.port 9) op 6 1 [] with session := 0 }
      let s := oapS (.port 9) 3 []
      s.dev.effs = [] ∧ m.lengthOk = true ∧ m.version = 1 ∧ opCodes.contains m.op = true ∧ s.dev.portUp = true ∧ s.dev.boot.stage = .done ∧ netOk m.net = true ∧ m.net.waiting < 32 := by
    decide +kernel
  exact fun op ho => brings_port 0 rfl (h op ho)

/-- A DICT command behind an earlier one. -/
theorem test_dict_order : let m := { msg0 (.port 9) 1 6 1 [] with session := 0 }
    let c : Cmd := ⟨ent 0x41 0 0, false, 0, false, false, 1⟩
    let c' : Cmd := ⟨ent 0x40 0 0, false, 0, false, false, 0⟩
    let s := at0 { (oapS (.port 9) 3 []).dev with tether := { Tether.reset with cmds := [(cmdKey 31 7, c), (cmdKey 63 (2 ^ 32 - 1), c')] } }
    Brings s m (portCmd m) 0 ∧ s.dev.cmd 31 7 = some c ∧ s.dev.cmd 63 (2 ^ 32 - 1) = some c' ∧ isDict c'.entry = true ∧ c'.started = false ∧
    s.dev.answered 63 (2 ^ 32 - 1) = false ∧ c'.order < c.order :=
  ⟨brings_port 0 rfl (by decide +kernel), by decide +kernel⟩

theorem test_hello_command : let m := { msg0 (.ring 31 7) 1 6 1 [] with session := 0 }
    Brings (oapS (.ring 31 7) 1 []) m (dictCmd 31 7 m) (ent (dictOpcode 1) 0 (2 ^ 16 * 2 ^ 256)) ∧ 96 ≤ efield (ent (dictOpcode 1) 0 (2 ^ 16 * 2 ^ 256)) 32 4 :=
  ⟨brings_ring _ rfl (by decide +kernel), by decide +kernel⟩

/-- The nonce of a body is read back whatever the random bits are. -/
theorem test_nonce_body (role : Nat) (cert : List Byte) : ((openBody role cert).drop 88).take 32 = leBytes 32 (Config.random 0) := by
  unfold openBody
  simp only [List.append_assoc]
  rw [List.drop_append_of_le_length (by simp), List.drop_of_length_le (by simp), List.nil_append, List.take_append_of_le_length (by simp [leBytes]), List.take_of_length_le (by simp [leBytes])]

theorem test_nonce : let d := nonceD (.port 9) dev0
    (Via.port 9, 0, 0) ∈ d.nonces ∧ leBytes 32 (Config.random 0) = ((openBody 1 cert1).drop 88).take 32 ∧ (at0 d).ctx.round ≤ 0 + 1 :=
  ⟨by decide +kernel, (test_nonce_body 1 cert1).symm, by decide +kernel⟩

/-- A device whose first provisioner root is that of the certificate. -/
def rootedS : State := { at0 { dev0 with objs := [(okey 0x1310 1, .bytes (digest32 (List.replicate 57 0) ++ List.replicate 96 0))] } with fuse := { State.reset.fuse with lifecycle := 1 } }

theorem test_session_open : let m := msg0 (.port 9) 2 6 0 []
    cert1.length = 258 ∧ rootedS.dev.openStatus rootedS.ctx m 1 cert1 = (Config.ok, none) ∧ (at0 dev0).dev.openStatus (at0 dev0).ctx m 1 cert1 = (Config.authFail, none) ∧
    (at0 dev0).dev.openStatus (at0 dev0).ctx m 1 [] = (Config.range, none) := by decide +kernel

/-- The group of a command under way is granted and waits for fuses. -/
theorem test_abort_waits_for_fuses : let g : Group := { group0 .granted [{ entry0 1 0 with index := 0x1300, sub := 2 }] with asker := some ⟨.ring 31 3, 7, 6, 0x30⟩ }
    let s := abortS 31 0x42 true { dev0 with groups := [(1, g)] }
    s.dev.groupOfCmd 31 3 = some (1, g) ∧ g.st = .granted ∧ g.fuses = true := by decide +kernel

/-- An aborted descriptor of compartment 7. -/
def aborted0 : Rec := ⟨1, descW 0, .aborted, 0, 0, 0, .gondola, []⟩

theorem test_frozen_records : let b := { job0 with st := .faulted, phase := .frozen, frozenAt := 999, comp := 6 }
    let d := { jobD b with engines := [(31, { Engine.reset with recs := [{ aborted0 with st := .active }] })] }
    ∀ p ∈ d.engines, ∀ r ∈ p.2.recs, r.st.open = true ∧ d.descOfJob 63 b r = false := by decide +kernel

theorem test_open_accesses : ∀ beat ∈ [1, 1000], let d : Dev := { dev0 with board := [(5, ⟨.engine 31 1 0, 1, 1, 0, 64, 0, 1⟩)], engines := [(31, { Engine.reset with recs := [aborted0] })], comps := [(7, { Comp.reset with tearStep := 1, tearBeat := beat })] }
    d.openAccesses 7 = 1 ∧ ({ dev0 with engines := d.engines } : Dev).openAccesses 7 = 0 ∧ (owned d).compState 7 = 1 := by decide +kernel

/-- A stripe of a generation that is lost: record 9 of compartment 7 with its directory in it. -/
theorem test_lost_shard : let g := { gen2 with dir := tier15 }
    let d := (((((owned { dev0 with catalogs := [(7, ⟨[], [(9, ⟨g, GenRec.none, none⟩)]⟩)] }).setNum 0x4207 2 16).setNum 0x4207 3 2).setNum 0x4207 5 tier15).setNum 0x4207 6 (2 * shardBytes))
    (9, 0, g) ∈ d.gens 7 ∧ g.role ≠ 0 ∧ g.res ≠ 3 ∧ d.genTouches (at0 d).ctx 7 0 g = true ∧ (at0 d).dev.rejoining 7 = false ∧ 2 < 16 ∧
    0 < d.num (0x4200 + 7) 6 / shardBytes := by decide +kernel

theorem test_samples_not_due : let m : Samp := ⟨true, 999, 0, []⟩
    let s := at0 (({ dev0 with samp := [(7, m)] }).setNum 0x7017 1 2)
    tget s.dev.samp 7 = some m ∧ m.from_ ≤ s.time.beat ∧ (s.time.beat - m.from_) % max 1 (s.dev.num (0x7010 + 7) 1) ≠ 0 := by decide +kernel

end Sys2Proof.Tests
end

section
/-!
The beat and the Round (R16, R26): which beats of a window of 16 the skip count skips, and when ROUND_BOUNDARY acts.
-/

namespace Sys2Proof.Machine

/-! ## Skipped beats (R26) -/

/-- The cap loop chooses among the skip counts 0 to 15 only. -/
theorem capSkip_le {pOth pCan cap s : Nat} (h : capSkip pOth pCan cap = some s) : s ≤ 15 := by
  have hmem : s ∈ List.range 16 := List.mem_of_find?_eq_some h
  have hlt : s < 16 := List.mem_range.mp hmem
  omega

/-- Only the place of a beat in its window of 16 decides whether it is skipped. -/
theorem skippedAt_window (s w : Nat) {k : Nat} (hk : k < 16) :
    skippedAt s (16 * w + k) = decide ((k + 1) * s / 16 > k * s / 16) := by
  have hplace : (16 * w + k) % 16 = k := by omega
  unfold skippedAt
  rw [hplace]

/-- The beats of a window before place n that are not skipped. -/
def unskipped (s w n : Nat) : List Nat := (List.range n).filter fun k => !skippedAt s (16 * w + k)

/-- The floor rises by at most one in a beat, so it counts the skipped beats before each place of the window. -/
theorem length_unskipped {s : Nat} (w : Nat) (hs : s ≤ 15) {n : Nat} (hn : n ≤ 16) :
    (unskipped s w n).length + n * s / 16 = n := by
  induction n with
  | zero => rw [Nat.zero_mul, Nat.zero_div]; rfl
  | succ n ih =>
    have ih : (unskipped s w n).length + n * s / 16 = n := ih (by omega)
    have hsplit : (unskipped s w (n + 1)).length
        = (unskipped s w n).length + if (n + 1) * s / 16 > n * s / 16 then 0 else 1 := by
      unfold unskipped
      rw [List.range_succ, List.filter_append, List.length_append, List.filter_cons, List.filter_nil, skippedAt_window s w hn]
      by_cases hskip : (n + 1) * s / 16 > n * s / 16
      · rw [if_pos hskip, decide_eq_true hskip, Bool.not_true, if_neg Bool.false_ne_true, List.length_nil]
      · rw [if_neg hskip, decide_eq_false hskip, Bool.not_false, if_pos rfl, List.length_singleton]
    have hnext : (n + 1) * s = n * s + s := Nat.succ_mul n s
    rw [hsplit, hnext]
    split <;> omega

/-! ## The Round (R16) -/

/-- The Round number is the beat number without its low 20 bits. -/
theorem Ctx.round_eq_shiftRight (x : Ctx) : x.round = x.time.beat >>> 20 :=
  (Nat.shiftRight_eq_div_pow x.time.beat 20).symm

/-- The number of the beat that the next boundary begins: the first boundary begins beat 0 (R15). -/
def TimeBase.next (t : TimeBase) : Nat := if t.ref = 2 then 0 else t.beat + 1

/-- A BEAT_BOUNDARY asks for no margin of the ring oscillators. -/
theorem exec_beatBoundary (env : BeatEnv) (s : State) :
    exec (.beatBoundary env) s = onDev s fun x d => d.boundary x env 0 := rfl

/-- ROUND_BOUNDARY is a beat boundary behind a guard on the number of the beat that begins. -/
theorem exec_roundBoundary (env : BeatEnv) (margin : Int) (s : State) :
    exec (.roundBoundary env margin) s =
      onDev s fun x d => if x.time.next % 2 ^ 20 = 0 then d.boundary x env margin else d := rfl

/-- Off a multiple of 2^20 ROUND_BOUNDARY leaves the state as it is (assumption 77). -/
theorem exec_roundBoundary_of_not_multiple (env : BeatEnv) (margin : Int) {s : State} (he : s.dev.effs = [])
    (h : s.time.next % 2 ^ 20 ≠ 0) : exec (.roundBoundary env margin) s = .next s := by
  rw [exec_roundBoundary]
  exact onDev_pure (if_neg h) he

/-- At a multiple of 2^20 ROUND_BOUNDARY without a margin is BEAT_BOUNDARY (assumption 77). -/
theorem exec_roundBoundary_of_multiple (env : BeatEnv) {s : State} (h : s.time.next % 2 ^ 20 = 0) :
    exec (.roundBoundary env 0) s = exec (.beatBoundary env) s := by
  simp only [exec_roundBoundary, exec_beatBoundary, onDev_next, if_pos h]

/-! ## The obligations -/

/-- Settles O30: the floor of k s / 16 counts the skipped beats before place k, and is s at the end of the window. -/
theorem skipCountIsSkippedInEveryWindow : Obligations.SkipCountIsSkippedInEveryWindow := by
  refine ⟨fun _ _ _ _ => capSkip_le, fun s w hs => ⟨fun k hk => ?_, ?_⟩⟩
  · rw [skippedAt_window s w hk, decide_eq_true_eq]
  · have hcount : (unskipped s w 16).length + 16 * s / 16 = 16 := length_unskipped w hs (Nat.le_refl 16)
    change (unskipped s w 16).length = 16 - s
    omega

/-- Settles O31: ROUND_BOUNDARY is guarded by the number of the beat that begins, and with margin 0 is BEAT_BOUNDARY. -/
theorem roundsAreTwoToTheTwentyBeats : Obligations.RoundsAreTwoToTheTwentyBeats := by
  intro s env margin
  exact ⟨Ctx.round_eq_shiftRight s.ctx, exec_roundBoundary_of_not_multiple env margin, exec_roundBoundary_of_multiple env⟩

end Sys2Proof.Machine
end

section
/-!
The exact add (R68): a lane is a sum and its flags, each addend is clamped on its own, and below the loader's bound the additions
are those of the integers, which commute.
-/

namespace Sys2Proof.Machine

/-! ## A lane is a sum and its flags (Table 2.6) -/

/-- The sum a lane holds. -/
def laneSum (lane : Nat) : Int := signed 96 (bits lane 95 0)

/-- The lane of a sum and of the flags above it (2^96 stands first: the kernel would count down from a right factor). -/
def laneWord (v : Int) (flags : Nat) : Nat := (v % (2 ^ 96 : Nat)).toNat + 2 ^ 96 * flags

/-- The range of a lane: a 96-bit two's-complement number. -/
def InLane (v : Int) : Prop := -2 ^ 95 ≤ v ∧ v < 2 ^ 95

/-- The sum as the lane keeps it: itself in the range, beyond it the end of the range. -/
def saturate (v : Int) : Int := if v > 2 ^ 95 - 1 then 2 ^ 95 - 1 else if v < -2 ^ 95 then -2 ^ 95 else v

theorem laneSum_laneWord {v : Int} (hv : InLane v) (flags : Nat) : laneSum (laneWord v flags) = v := by
  obtain ⟨hlow, hhigh⟩ := hv
  have hbits : bits (laneWord v flags) 95 0 = (v % (2 ^ 96 : Nat)).toNat := by
    simp only [bits, laneWord, Nat.shiftRight_zero]
    omega
  simp only [laneSum, hbits, signed]
  split <;> omega

theorem bits_flags_laneWord (v : Int) {flags : Nat} (h : flags < 2 ^ 32) : bits (laneWord v flags) 127 96 = flags := by
  simp only [bits, laneWord, Nat.shiftRight_eq_div_pow]
  omega

theorem laneFlags_laneWord (v : Int) (flags : Nat) : laneFlags (laneWord v flags) = flags % 2 ^ 3 := by
  simp only [laneFlags, bits, laneWord, Nat.shiftRight_eq_div_pow]
  omega

/-- A lane that holds 0 and no flag is 0. -/
theorem laneWord_zero : laneWord 0 0 = 0 := by
  rw [laneWord, Int.zero_emod, Int.toNat_zero, Nat.mul_zero]

/-- The order in which two flags are raised does not matter. -/
theorem or_flags_right_comm (flags r₁ r₂ : Nat) : flags ||| r₁ ||| r₂ = flags ||| r₂ ||| r₁ := by
  rw [Nat.or_assoc, Nat.or_comm r₁, Nat.or_assoc]

/-- Flags are raised in a lane without a change of its sum. -/
theorem laneWord_or_flags (v : Int) (flags raised : Nat) :
    laneWord v flags ||| raised * 2 ^ 96 = laneWord v (flags ||| raised) := by
  have hlow : (v % (2 ^ 96 : Nat)).toNat < 2 ^ 96 := by omega
  have hor (k : Nat) : laneWord v k = k <<< 96 ||| (v % (2 ^ 96 : Nat)).toNat := by
    rw [← Nat.shiftLeft_add_eq_or_of_lt hlow, Nat.shiftLeft_eq, Nat.add_comm, Nat.mul_comm, laneWord]
  rw [hor, hor, ← Nat.shiftLeft_eq, or_flags_right_comm, Nat.shiftLeft_or_distrib]

theorem saturate_of_inLane {v : Int} (h : InLane v) : saturate v = v := by
  obtain ⟨hlow, hhigh⟩ := h
  rw [saturate, if_neg (by omega), if_neg (by omega)]

theorem saturate_of_ge {v : Int} (h : 2 ^ 95 ≤ v) : saturate v = 2 ^ 95 - 1 := if_pos (by omega)

theorem saturate_of_lt {v : Int} (h : v < -2 ^ 95) : saturate v = -2 ^ 95 := by
  rw [saturate, if_neg (by omega), if_pos h]

theorem saturate_inLane (v : Int) : InLane (saturate v) := by
  by_cases hhigh : 2 ^ 95 ≤ v
  · rw [saturate_of_ge hhigh]
    exact ⟨by decide, by decide⟩
  · by_cases hlow : v < -2 ^ 95
    · rw [saturate_of_lt hlow]
      exact ⟨by decide, by decide⟩
    · have hin : InLane v := ⟨Int.not_lt.mp hlow, Int.not_le.mp hhigh⟩
      rw [saturate_of_inLane hin]
      exact hin

/-! ## One addend (R67, R68) -/

/-- What an addend adds: its rounded and clamped integer, 0 for a NaN. -/
def addendValue (F : Int) (b : Nat) (x : Lane) : Int :=
  match addend F b x with
  | none => 0
  | some (a, _) => a

/-- The flags an addend raises by itself: NANF for a NaN, CLMP when clamped. -/
def addendFlags (F : Int) (b : Nat) (x : Lane) : Nat :=
  match addend F b x with
  | none => 2
  | some (_, clamped) => if clamped then 1 else 0

/-- An addend is clamped to a two's-complement number of b + 1 bits. -/
theorem addend_bounds {F : Int} {b : Nat} {x : Lane} {a : Int} {clamped : Bool} (h : addend F b x = some (a, clamped)) :
    -(2 ^ b : Nat) ≤ a ∧ a < (2 ^ b : Nat) := by
  have hpos : 0 < 2 ^ b := Nat.two_pow_pos b
  generalize hlim : 2 ^ b = lim at hpos
  unfold addend at h
  rw [hlim] at h
  split at h
  case h_1 => cases h
  case h_2 s _ =>
    cases h
    split <;> omega
  case h_3 s m e _ =>
    dsimp only at h
    split at h
    · cases h; omega
    · split at h <;> cases h <;> omega

theorem addendValue_bounds (F : Int) (b : Nat) (x : Lane) :
    -(2 ^ b : Nat) ≤ addendValue F b x ∧ addendValue F b x < (2 ^ b : Nat) := by
  have hpos : 0 < 2 ^ b := Nat.two_pow_pos b
  unfold addendValue
  split
  case h_1 => omega
  case h_2 h => exact addend_bounds h

/-- No addend raises OVF by itself. -/
theorem addendFlags_lt (F : Int) (b : Nat) (x : Lane) : addendFlags F b x < 2 ^ 2 := by
  unfold addendFlags
  split
  case h_1 => decide
  case h_2 => split <;> decide

/-! ## One exact add -/

/-- OVF, when the sum leaves the range. -/
def ovfFlag (v : Int) : Nat := if v > 2 ^ 95 - 1 ∨ v < -2 ^ 95 then 4 else 0

theorem ovfFlag_of_inLane {v : Int} (h : InLane v) : ovfFlag v = 0 := by
  obtain ⟨hlow, hhigh⟩ := h
  exact if_neg (by omega)

/-- A NaN leaves the sum and raises NANF. -/
theorem laneAdd_of_nan {F : Int} {b : Nat} {x : Lane} (h : addend F b x = none) (lane : Nat) :
    (laneAdd F b lane x).1 = lane ||| 2 * 2 ^ 96 := by
  rw [laneAdd, h]
  rfl

/-- Any other addend is added with saturation, and raises CLMP and OVF. -/
theorem laneAdd_of_addend {F : Int} {b : Nat} {x : Lane} {a : Int} {clamped : Bool} (h : addend F b x = some (a, clamped))
    (lane : Nat) :
    (laneAdd F b lane x).1 = laneWord (saturate (laneSum lane + a))
      (bits lane 127 96 ||| (if clamped then 1 else 0) + ovfFlag (laneSum lane + a)) := by
  have htop : ((2 ^ 95 : Nat) : Int) = 2 ^ 95 := by norm_cast
  simp only [laneAdd, h, htop, laneWord, saturate, laneSum, ovfFlag, Bool.or_eq_true, decide_eq_true_eq]
  rw [Nat.mul_comm]
  congr 1

/-- A sum beyond either end of the range raises OVF in the lane, whatever its flags were. -/
theorem laneFlags_laneAdd_of_overflow {F : Int} {b : Nat} {x : Lane} {a : Int} {clamped : Bool}
    (h : addend F b x = some (a, clamped)) {lane : Nat} (hv : laneSum lane + a > 2 ^ 95 - 1 ∨ laneSum lane + a < -2 ^ 95) :
    (laneFlags (laneAdd F b lane x).1).testBit 2 = true := by
  have hraised : ((if clamped then 1 else 0) + ovfFlag (laneSum lane + a)).testBit 2 = true := by
    rw [ovfFlag, if_pos hv]
    cases clamped <;> decide
  rw [laneAdd_of_addend h, laneFlags_laneWord, Nat.testBit_mod_two_pow, Nat.testBit_or, hraised, Bool.or_true]
  rfl

theorem laneSum_laneAdd {F : Int} {b : Nat} {x : Lane} {a : Int} {clamped : Bool} (h : addend F b x = some (a, clamped))
    (lane : Nat) : laneSum (laneAdd F b lane x).1 = saturate (laneSum lane + a) := by
  rw [laneAdd_of_addend h, laneSum_laneWord (saturate_inLane _)]

/-! ## Many exact adds -/

/-- A lane after the exact adds of a list, in its order. -/
def addAll (F : Int) (b : Nat) (lane : Nat) (xs : List Lane) : Nat := xs.foldl (fun l x => (laneAdd F b l x).1) lane

theorem addAll_cons (F : Int) (b : Nat) (lane : Nat) (x : Lane) (xs : List Lane) :
    addAll F b lane (x :: xs) = addAll F b (laneAdd F b lane x).1 xs := rfl

/-- An exact add without a range: the integers add up and the flags gather. -/
def exactStep (F : Int) (b : Nat) (acc : Int × Nat) (x : Lane) : Int × Nat :=
  (acc.1 + addendValue F b x, acc.2 ||| addendFlags F b x)

/-- Two exact adds without a range commute. -/
theorem exactStep_right_comm (F : Int) (b : Nat) (acc : Int × Nat) (x y : Lane) :
    exactStep F b (exactStep F b acc x) y = exactStep F b (exactStep F b acc y) x :=
  Prod.ext (Int.add_right_comm ..) (or_flags_right_comm ..)

/-- While the sum stays in the range, a lane does what the integers do. -/
theorem laneAdd_laneWord {F : Int} {b : Nat} {acc : Int × Nat} {x : Lane} (hflags : acc.2 < 2 ^ 2) (hv : InLane acc.1)
    (hsum : InLane (exactStep F b acc x).1) :
    (laneAdd F b (laneWord acc.1 acc.2) x).1 = laneWord (exactStep F b acc x).1 (exactStep F b acc x).2 := by
  simp only [exactStep, addendValue, addendFlags] at hsum ⊢
  cases h : addend F b x with
  | none => rw [laneAdd_of_nan h, laneWord_or_flags, Int.add_zero]
  | some add =>
    obtain ⟨a, clamped⟩ := add
    simp only [h] at hsum ⊢
    rw [laneAdd_of_addend h, laneSum_laneWord hv, bits_flags_laneWord _ (by omega), saturate_of_inLane hsum,
      ovfFlag_of_inLane hsum, Nat.add_zero]

/-- No exact add without a range raises OVF. -/
theorem exactStep_flags_lt {F : Int} {b : Nat} {acc : Int × Nat} (x : Lane) (h : acc.2 < 2 ^ 2) :
    (exactStep F b acc x).2 < 2 ^ 2 := by
  rw [exactStep]
  exact Nat.or_lt_two_pow h (addendFlags_lt F b x)

/-- A sum from which n more addends cannot leave the range. -/
def Room (b n : Nat) (v : Int) : Prop := -2 ^ 95 ≤ v - n * (2 ^ b : Nat) ∧ v + n * ((2 ^ b : Nat) - 1) < 2 ^ 95

theorem Room.inLane {b n : Nat} {v : Int} (h : Room b n v) : InLane v := by
  obtain ⟨hlow, hhigh⟩ := h
  have hpos : (0 : Int) < (2 ^ b : Nat) := by exact_mod_cast Nat.two_pow_pos b
  have hdown : (0 : Int) ≤ n * (2 ^ b : Nat) := Int.mul_nonneg (by omega) (by omega)
  have hup : (0 : Int) ≤ n * ((2 ^ b : Nat) - 1) := Int.mul_nonneg (by omega) (by omega)
  exact ⟨by omega, by omega⟩

/-- An addend takes one addend's room. -/
theorem Room.step {F : Int} {b n : Nat} {acc : Int × Nat} (x : Lane) (h : Room b (n + 1) acc.1) :
    Room b n (exactStep F b acc x).1 := by
  obtain ⟨hlow, hhigh⟩ := h
  obtain ⟨hmin, hmax⟩ := addendValue_bounds F b x
  rw [Int.natCast_succ, Int.add_mul, Int.one_mul] at hlow hhigh
  exact ⟨by rw [exactStep]; omega, by rw [exactStep]; omega⟩

/-- Below the loader's bound a lane that starts at 0 has room for its addends. -/
theorem room_zero {b C n : Nat} (hbound : C * 2 ^ b ≤ 2 ^ 95) (hn : n ≤ C) : Room b n 0 := by
  have hnat : n * 2 ^ b ≤ 2 ^ 95 := Nat.le_trans (Nat.mul_le_mul_right _ hn) hbound
  have hint : (n : Int) * (2 ^ b : Nat) ≤ 2 ^ 95 := by exact_mod_cast hnat
  refine ⟨by omega, ?_⟩
  rw [Int.mul_sub, Int.mul_one]
  cases n with
  | zero => simp
  | succ n => omega

/-- With room for all its addends, a lane holds their sum in the integers and the flags they raise by themselves. -/
theorem addAll_laneWord {F : Int} {b : Nat} (xs : List Lane) {acc : Int × Nat} (hflags : acc.2 < 2 ^ 2)
    (hroom : Room b xs.length acc.1) :
    addAll F b (laneWord acc.1 acc.2) xs =
      laneWord (xs.foldl (exactStep F b) acc).1 (xs.foldl (exactStep F b) acc).2 := by
  induction xs generalizing acc with
  | nil => rfl
  | cons x xs ih =>
    have hnext : Room b xs.length (exactStep F b acc x).1 := hroom.step x
    rw [addAll_cons, List.foldl_cons, laneAdd_laneWord hflags hroom.inLane hnext.inLane]
    exact ih (exactStep_flags_lt x hflags) hnext

theorem foldl_exactStep_flags_lt {F : Int} {b : Nat} (xs : List Lane) {acc : Int × Nat} (h : acc.2 < 2 ^ 2) :
    (xs.foldl (exactStep F b) acc).2 < 2 ^ 2 := by
  induction xs generalizing acc with
  | nil => exact h
  | cons x xs ih => exact ih (exactStep_flags_lt x h)

/-! ## The loader's bound -/

/-- Check WINDOW holds the bound of R68 for every window it accepts. -/
theorem windowsOk_bound {progs : List Prog} {ews : List Nat} (h : windowsOk progs ews = true) {e : Nat} (he : e ∈ ews) :
    bits (ewWindow e) 127 96 * 2 ^ winB (ewWindow e) ≤ 2 ^ 95 := by
  simp only [windowsOk, Bool.and_eq_true, List.all_eq_true, decide_eq_true_eq] at h
  obtain ⟨_, hall⟩ := h
  obtain ⟨⟨_, hbound⟩, _⟩ := hall e he
  exact hbound

/-! ## The obligation -/

/-- Below the loader's bound the order of the addends does not matter and no addend raises OVF. -/
theorem addAll_perm {F : Int} {b C : Nat} {xs ys : List Lane} (hbound : C * 2 ^ b ≤ 2 ^ 95) (hlen : xs.length ≤ C)
    (hperm : xs.Perm ys) :
    addAll F b 0 xs = addAll F b 0 ys ∧ (laneFlags (addAll F b 0 xs)).testBit 2 = false := by
  have hfold (zs : List Lane) (hz : zs.length ≤ C) : addAll F b 0 zs =
      laneWord (zs.foldl (exactStep F b) (0, 0)).1 (zs.foldl (exactStep F b) (0, 0)).2 := by
    rw [← addAll_laneWord zs (by decide) (room_zero hbound hz), laneWord_zero]
  have hexact : xs.foldl (exactStep F b) (0, 0) = ys.foldl (exactStep F b) (0, 0) :=
    hperm.foldl_eq' (fun x _ y _ acc => exactStep_right_comm F b acc x y) _
  have hflags : (xs.foldl (exactStep F b) (0, 0)).2 < 2 ^ 2 := foldl_exactStep_flags_lt xs (by decide)
  refine ⟨by rw [hfold xs hlen, hfold ys (hperm.length_eq ▸ hlen), hexact], ?_⟩
  rw [hfold xs hlen, laneFlags_laneWord, Nat.testBit_mod_two_pow, Nat.testBit_lt_two_pow hflags, Bool.and_false]

/-- Settles O10: the loader's bound keeps the sum in the range, where a lane is a sum of integers, and these commute; beyond the
range one add saturates. -/
theorem exactAddDependsOnTheMultisetAlone : Obligations.ExactAddDependsOnTheMultisetAlone := by
  refine ⟨fun F b C xs ys => addAll_perm, fun progs ews h e => windowsOk_bound h, ?_⟩
  intro F b l x a clamped h
  refine ⟨fun hge => ?_, fun hlt => ?_, fun hlow hhigh => ?_⟩
  · exact ⟨(laneSum_laneAdd h l).trans (saturate_of_ge hge), laneFlags_laneAdd_of_overflow h (.inl (Int.sub_one_lt_of_le hge))⟩
  · exact ⟨(laneSum_laneAdd h l).trans (saturate_of_lt hlt), laneFlags_laneAdd_of_overflow h (.inr hlt)⟩
  · exact (laneSum_laneAdd h l).trans (saturate_of_inLane ⟨hlow, hhigh⟩)

end Sys2Proof.Machine
end
